-- ==== Sys2Proof/Word.lean ====
section
/-! DEFINITION. The word types of the MH-3072 model. -/

namespace Sys2Proof

/-- One byte. -/
abbrev Byte := BitVec 8
/-- A 32-bit register or memory word. -/
abbrev Word := BitVec 32
/-- A 64-bit register; every register of the model is held in this width. -/
abbrev DWord := BitVec 64
/-- A 48-bit global address (R37). -/
abbrev Addr := BitVec 48

end Sys2Proof
end

