-- ==== Sys2Proof/Syntax.lean ====
section
/-! DEFINITION. The commands of the MH-3072: one constructor per row of spec/opcode_table.json, with what the row's sender
or the environment supplies as operands. -/

namespace Sys2Proof

/-- Who issues an access: the requesters of the one address space (chapter 02) and of the Corridor (R491). -/
inductive Requester where
  | host | debug | bsc | gallery | sched | loader | heath
  | core (k : Fin 32)
  | tileMem (t : Fin 48)
  | hall (t : Fin 48)
  | bankDma (b : Fin 64)
  deriving DecidableEq, Repr

/-- The blocks that carry a common header (R40, R41, R43). -/
inductive Block where
  | devctl | evc | banks | gallery | sched | gpio | heath | stair | epochs | health | security | link
  | tile (t : Fin 48)
  | lane (l : Fin 24)
  | quad (q : Fin 6)
  | mc (c : Fin 8)
  | core (k : Fin 32)
  | router (r : Fin 64)
  deriving DecidableEq, Repr

/-- A bit of one of a router's two copies of its active detour table turns over (R507): the second copy, or the first, which
`CRT_DETOUR` shows. -/
structure DetourUpset where
  router : Fin 64
  second : Bool
  at_ : Fin 64
  deriving DecidableEq, Repr

/-- What befalls a packet on its way over the Corridor, at the routers that it passes: bits of its header unit turned over where it
reaches a router (R493, R495); routers that correct one half of a data unit each; routers that find a half uncorrectable (R497). -/
structure Leg where
  hdr : Option (Fin 64 × BitVec 128) := none
  fixed : List (Fin 64) := []
  spoilt : List (Fin 64) := []
  deriving DecidableEq, Repr, Inhabited

/-- What befalls an access on its way over the Corridor: its request, its response, upsets of detour tables that come before it
(R507), and whether the response comes only after the requester's time-out (R498). -/
structure Transit where
  there : Leg := {}
  back : Leg := {}
  upsets : List DetourUpset := []
  late : Bool := false
  deriving DecidableEq, Repr, Inhabited

/-- The stored bits that an access finds flipped, each by its number in the unit that its code protects: a DDR4 burst has 8
beats of 72 bits, check bits last (R232, R239). `more` are those of the units that follow, where the access has more than one,
`way` is the way of its set that a hall's lookup finds uncorrectable on chip (R328), and `net` is what befalls the access on the
Corridor, where it crosses it. -/
structure Ecc where
  flips : List (Fin 576) := []
  more : List (List (Fin 576)) := []
  way : Option (Fin 4) := none
  net : Transit := {}
  deriving DecidableEq, Repr, Inhabited

/-- Nothing is flipped. -/
def Ecc.ok : Ecc := {}

/-- What an access of a memory channel is for (R230). -/
inductive McAccess where
  | captureTail | overwriteHeader | spillRead | spillWrite | refresh | zq | tracking | scrub | corridor (port : Fin 2)
  | headFill | bulkRead | rewindRead | otherWrite
  deriving DecidableEq, Repr

/-- Bursts of each class of R230. -/
structure Bursts where
  capture : Nat := 0
  spill : Nat := 0
  maint : Nat := 0
  port0 : Nat := 0
  port1 : Nat := 0
  gallery : Nat := 0
  deriving DecidableEq, Repr

/-- A fault as the fault record holds it (R44 to R46). -/
structure FaultRec where
  code : BitVec 16
  detail : BitVec 16
  rec1 : Word
  deriving DecidableEq, Repr

/-- What a receiver takes from its balls in the time of one lane word (R98, R102). -/
structure LaneWord where
  /-- the sliced symbols from bit 0 on, aligned to the code groups or blocks of the mode: a bit each in NRZ, a level each as
  two bits in PAM4, the more significant first (R88) -/
  line : BitVec 560
  /-- the moment the first of them crossed the balls -/
  stamp : DWord
  /-- words lost to an elastic buffer overrun before this one (R78) -/
  lost : Nat
  eidle : Bool
  /-- the PRBS checker gives up its synchronisation at the end of the word (R89) -/
  prbsLost : Bool
  deriving DecidableEq, Repr

/-- The marker on which a mode deskews (R95). -/
inductive Marker where
  | com | skp | alignment
  deriving DecidableEq, Repr

/-- A member's marker: the lane, the marker, and when it came, in UI (R95, R96). -/
structure MarkerSeen where
  lane : Fin 24
  marker : Marker
  at_ : Nat
  deriving DecidableEq, Repr

/-- A lane word handed to a transmit source. -/
structure TxWord where
  data : BitVec 512
  sbB : Word
  deriving DecidableEq, Repr

/-- How a channel training ends (R227, R242): with the delays it found, or at a step and logical rank. -/
inductive Trained where
  | pass (dq : List (Fin 72 × BitVec 25))
  | fail (step : Fin 5) (rank : Fin 16)
  deriving DecidableEq, Repr

/-- The parity of an arriving token (R245, R278): good, wrong at the FU port, wrong at an express input of tile `t`. -/
inductive Parity where
  | good | port | express (t : Fin 48) (dir : Fin 4)
  deriving DecidableEq, Repr

/-- A boot image as the boot flash holds it: manifest and payload (R545). -/
structure FlashCopy where
  manifest : List Byte
  payload : List Byte
  deriving DecidableEq, Repr

/-- How a fuse step ends (R542): programmed, `VPP_FUSE` out of range, or word `w` of copy A (or B) reads back `v`. -/
inductive FuseStep where
  | done | noSupply | wrong (w : Fin 55) (copyB : Bool) (v : Word)
  deriving DecidableEq, Repr

/-- A capture decision (R125). -/
structure Decision where
  keep : Bool
  sor : Bool
  sorOfs : Fin 64
  eor : Bool
  eorOfs : Fin 64
  typ : BitVec 8
  qsel : Fin 4
  seq : BitVec 8
  user : Word
  deriving DecidableEq, Repr

/-- A unit of a Heath capture port (R129): `count` + 1 bytes are valid in the last unit of a record. -/
structure HeathUnit where
  data : BitVec 256
  sor : Bool
  eor : Bool
  count : Fin 32
  typ : BitVec 8
  qsel : Fin 4
  user : Word
  deriving DecidableEq, Repr

/-- A token as a Heath exit port presents it (R281). -/
structure HeathToken where
  data : Word
  tag : BitVec 28
  ctx : BitVec 4
  last : Bool
  err : Bool
  poison : Bool
  idle : Bool
  deriving DecidableEq, Repr


/-- A transaction received over Raold Link (R524): the fields of its header, its data bytes, and what error correction finds for
each packet that it reads or befalls each packet on the Corridor (R232, R497). -/
structure Tran where
  ttype : BitVec 8
  tag : BitVec 12
  stream : BitVec 8
  addr : BitVec 48
  len : BitVec 13
  word3 : Word
  data : List Byte
  ecc : List Ecc := []
  deriving DecidableEq, Repr


/-- What wakes the device from Standby (R586). -/
inductive WakeSource where
  | link | pin (n : Fin 96) | bsc
  deriving DecidableEq, Repr



/-- Two copies of a queue position as an upset leaves them (R209): position 0 write, 1 read, 2 mark, 3 free; an upset that comes
`later` than the background pass's look at the queue stands until the next comparison. -/
structure PosBad where
  queue : Fin 1024
  pos : Fin 4
  a : DWord
  b : DWord
  later : Bool := false
  deriving DecidableEq, Repr

/-- What the environment supplies to one instruction of a stream core: what error correction finds where it fetches, where it
reads its operands (X first, then Y), and where it moves a stack cell; what happens to its packets; whether an authorised
debug session has claimed the core (R381); for how many intervals an interrupt has waited (R401). -/
structure CoreEnv where
  fetch : Ecc := .ok
  data : Ecc := .ok
  data2 : Ecc := .ok
  cell : Ecc := .ok
  net : Transit := {}
  cellNet : Transit := {}
  claimed : Bool := false
  since : Nat := 0
  deriving DecidableEq, Repr

/-- What the receivers of a bonding group's members have found of their markers: the group, the markers, and the place of each
FEC or PCS lane, as the markers tell it (R94 to R96). -/
structure BondSeen where
  group : Fin 4
  markers : List MarkerSeen
  order : List Nat
  deriving DecidableEq, Repr

/-- The Heath event lines at a timebase edge, and which of them lie on a tree sourced from the timebase with `DIV` ÷1 (R133). -/
structure StairLines where
  lines : BitVec 256
  direct : BitVec 256
  deriving DecidableEq, Repr

/-- A level that a pad has held for so many timebase ticks (R169, R607). -/
structure HeldLevel where
  level : Bool
  ticks : Nat
  deriving DecidableEq, Repr

/-- The accesses that arrive at a memory channel before its next window or in its course, with the bursts of each (R230). -/
structure Arrivals where
  chan : Fin 8
  accesses : List (McAccess × Nat)
  deriving DecidableEq, Repr

/-- The source of a token that reaches its exit port, and its parity there (R245, R270). -/
structure ExitToken where
  src : Fin 141
  parity : Parity
  deriving DecidableEq, Repr

/-- A tile whose channels the marker has crossed; `late` where an `ARM` came after the marker had reached the first of them
(R273). -/
structure MarkerPass where
  tile : Fin 48
  late : Bool
  deriving DecidableEq, Repr

/-- What a brown-out leaves of DDR4: the channels whose self-refresh entry completed with DIMM supplies in range, and the address
and length of each write that had been accepted and not issued (R237). -/
structure Kept where
  chans : BitVec 8
  unissued : List (Nat × Nat)
  deriving DecidableEq, Repr

/-- The commands: the rows of spec/opcode_table.json, in its order. -/
inductive Instr where
  /-- `REGISTER_WRITE`: a 32-bit write of `v` at address `a` -/
  | registerWrite (q : Requester) (a : Addr) (v : Word)
  /-- `RC_READ`: a read at address `a` of an RC register, with `inc` increments that coincide with it -/
  | rcRead (q : Requester) (a : Addr) (inc : Nat)
  /-- `STAGED_LOW_WORD_WRITE`: a write to the low word of a 64-bit register -/
  | stagedLowWordWrite (q : Requester) (a : Addr) (v : Word)
  /-- `LOW_WORD_READ_CAPTURE`: a read of the low word of a 64-bit register -/
  | lowWordReadCapture (q : Requester) (a : Addr)
  /-- `EVT_STATUS_CLEAR`: `EVT_STATUS` of block `b` written with `v` -/
  | evtStatusClear (q : Requester) (b : Block) (v : Word)
  /-- `EVT_FORCE`: `EVT_FORCE` of block `b` written with `v` -/
  | evtForce (q : Requester) (b : Block) (v : Word)
  /-- `FAULT_COUNT_CLEAR`: `FAULT_COUNT` of block `b` written; `coin` is a fault that coincides -/
  | faultCountClear (q : Requester) (b : Block) (v : Word) (coin : Option FaultRec)
  /-- `PERF_SEL_WRITE`: `PERF_SELn` of block `b` written with `v` -/
  | perfSelWrite (q : Requester) (b : Block) (n : Fin 2) (v : Word)
  /-- `SOFT_RESET_K`: `BLK_CTRL.SRST` of block `b` written with 1 -/
  | softResetK (q : Requester) (b : Block)
  /-- `SOFT_RESET_COMPLETE`: the soft reset of block `b` completes -/
  | softResetComplete (b : Block)
  /-- `DOMAIN_POWER_DOWN`: `BLK_CTRL.PWR_REQ` written 0b01 in the page that heads domain `d` -/
  | domainPowerDown (q : Requester) (d : Fin 24)
  /-- `DRAIN_COMPLETE`: every packet accepted into domain `d` has completed -/
  | drainComplete (d : Fin 24)
  /-- `DRAIN_TIMEOUT`: the drain of domain `d` has lasted `PWR_DRAIN_TIMEOUT` -/
  | drainTimeout (d : Fin 24)
  /-- `DOMAIN_POWER_UP`: a write of 1 to bit `d` of `PWR_ON` -/
  | domainPowerUp (q : Requester) (d : Fin 24)
  /-- `DOMAIN_POWER_UP_COMPLETE`: domain `d` has finished powering up -/
  | domainPowerUpComplete (d : Fin 24)
  /-- `QUAD_PLL_WRITE`: quad `n`'s `QUAD_PLL_RATE` (or, with `rate` false, `QUAD_PLL_CTRL`) written -/
  | quadPllWrite (q : Requester) (n : Fin 6) (rate : Bool) (v : Word)
  /-- `PLL_LOCK`: the PLL of quad `n` locks -/
  | pllLock (n : Fin 6)
  /-- `PLL_NO_LOCK`: 1 ms has passed since the PLL of quad `n` began to lock -/
  | pllNoLock (n : Fin 6)
  /-- `PLL_LOCK_LOSS`: the PLL of quad `n` loses lock without a command -/
  | pllLockLoss (n : Fin 6)
  /-- `LANE_WORD`: the line bits of a word's time reach lane `l`, and it delivers a word -/
  | laneWord (l : Fin 24) (w : LaneWord)
  /-- `ADAPT_DONE`: adaptation of lane `l` converges: eye height estimate and equaliser elements 0 to 25 -/
  | adaptDone (l : Fin 24) (eye : BitVec 8) (eq : List (BitVec 8))
  /-- `ADAPT_TIMEOUT`: adaptation of lane `l` has not converged within its bound -/
  | adaptTimeout (l : Fin 24)
  /-- `LANE_EQ_DATA_WRITE`: `LANE_EQ_DATA` of lane `l` written -/
  | laneEqDataWrite (q : Requester) (l : Fin 24) (v : Word)
  /-- `EYE_SCAN_START`: `LANE_EYE_CTRL` of lane `l` written with `v` and `START` 1 -/
  | eyeScanStart (q : Requester) (l : Fin 24) (v : BitVec 31)
  /-- `EYE_SCAN_DONE`: the dwell of a scan point ends with `errs` disagreements -/
  | eyeScanDone (l : Fin 24) (errs : Nat)
  /-- `TX_WORD_SLOT`: a transmit word slot of lane `l`; `heath` is what the Heath transmit port has ready -/
  | txWordSlot (l : Fin 24) (heath : Option TxWord)
  /-- `BOND_ALIGNED`: every member of a group has lock and its marker within 64 UI -/
  | bondAligned (m : BondSeen)
  /-- `BOND_SKEW`: a spread above 64 UI in 4 consecutive marker periods of group `g` -/
  | bondSkew (g : Fin 4) (spread : Nat)
  /-- `BOND_ALIGN_LOSS`: a member of group `g` loses lock or its marker is displaced in 4 consecutive periods -/
  | bondAlignLoss (g : Fin 4)
  /-- `LOOPBACK_SELECT`: `LOOP_CTRL` of lane `l` written -/
  | loopbackSelect (q : Requester) (l : Fin 24) (v : Word)
  /-- `LANE_CNT_CLR`: 1 written to `LANE_CNT_CLR` of lane `l` -/
  | laneCntClr (q : Requester) (l : Fin 24)
  /-- `TREE_SWITCH`: `HTH_CLK_CTRL[i]` written with `v` -/
  | treeSwitch (q : Requester) (n : Fin 8) (v : Word)
  /-- `TREE_RESTART`: the new or returning source of tree `n` gives its first edges -/
  | treeRestart (n : Fin 8)
  /-- `TREE_STOPPED`: enabled tree `n` has seen no edge for 1 µs -/
  | treeStopped (n : Fin 8)
  /-- `CAPTURE_DECISION`: the delay of the oldest held word of lane `l` ends; `ds` are the decisions present at its decision
  port -/
  | captureDecision (l : Fin 24) (ds : List Decision)
  /-- `HEATH_CAPTURE_UNIT`: Heath capture port `p` takes a unit -/
  | heathCaptureUnit (p : Fin 8) (u : HeathUnit)
  /-- `HEATH_EXIT_TOKEN`: the design presents a token at Heath exit port `n` -/
  | heathExitToken (n : Fin 64) (k : HeathToken)
  /-- `HTH_LOAD`: 1 written to `HTH_CMD.LOAD` -/
  | hthLoad (q : Requester)
  /-- `LOAD_FRAME`: the configuration engine writes one frame -/
  | loadFrame
  /-- `LOAD_CHECK_DONE`: the BSC has verified the Heath configuration -/
  | loadCheckDone
  /-- `HTH_RELEASE`: 1 written to `HTH_CMD.RELEASE` -/
  | hthRelease (q : Requester)
  /-- `HTH_ABORT`: 1 written to `HTH_CMD.ABORT` -/
  | hthAbort (q : Requester)
  /-- `RELEASE_STAGE`: the next release stage is due at an edge of tree 0 -/
  | releaseStage
  /-- `SCRUB_FRAME_CHECK`: the scrubber checks its next frame; `upset` is the live frame's data where it has changed -/
  | scrubFrameCheck (upset : Option (BitVec 1024))
  /-- `HTH_RUN_CLR`: 1 written to `HTH_RUN_CLR` -/
  | hthRunClr (q : Requester)
  /-- `HEATH_ENTRY_DELIVERY`: Heath entry port `n` is ready for a token -/
  | heathEntryDelivery (n : Fin 64)
  /-- `ARM`: 1 written to `STR_CMD.ARM` -/
  | arm (q : Requester)
  /-- `DISARM`: 1 written to `STR_CMD.DISARM` -/
  | disarm (q : Requester)
  /-- `STAIR_EDGE`: a timebase edge at the Stair -/
  | stairEdge (l : StairLines)
  /-- `TRIG_INPUT_CHANGE`: the `TRIG` lines asserted at the input balls change to these -/
  | trigInputChange (balls : BitVec 16)
  /-- `TCLK_LOST`: `TRIG_CLK` has had no edge for 1 µs -/
  | tclkLost
  /-- `TCLK_RESUME`: the first rising edge of `TRIG_CLK` after it stopped -/
  | tclkResume
  /-- `EVENT_STAMP_EDGE`: event-stamp input `e` has held a level, whose pad transition was at `t` -/
  | eventStampEdge (e : Fin 8) (l : HeldLevel) (t : DWord)
  /-- `STR_STAMP_POP`: `STR_STAMP_POP` written -/
  | strStampPop (q : Requester) (v : Word)
  /-- `QUEUE_ENABLE`: `GQ_CTRL` of queue `n` written with `v` and `EN` 1 -/
  | queueEnable (q : Requester) (n : Fin 1024) (v : Word)
  /-- `QUEUE_DISABLE`: `GQ_CTRL` of queue `n` written with `v` and `EN` 0 -/
  | queueDisable (q : Requester) (n : Fin 1024) (v : Word)
  /-- `READ`: READ of queue `n` through operation port `p` -/
  | read (q : Requester) (p : Fin 8) (n : Fin 1024) (arg : BitVec 38)
  /-- `ADVANCE`: ADVANCE of queue `n` through operation port `p` -/
  | advance (q : Requester) (p : Fin 8) (n : Fin 1024) (arg : BitVec 38)
  /-- `MARK`: MARK of queue `n` through operation port `p` -/
  | mark (q : Requester) (p : Fin 8) (n : Fin 1024) (arg : BitVec 38)
  /-- `REWIND`: REWIND of queue `n` through operation port `p` -/
  | rewind (q : Requester) (p : Fin 8) (n : Fin 1024) (arg : BitVec 38)
  /-- `RELEASE`: RELEASE of queue `n` through operation port `p` -/
  | release (q : Requester) (p : Fin 8) (n : Fin 1024) (arg : BitVec 38)
  /-- `WRITE_ADV`: WRITE_ADV of queue `n` through operation port `p` -/
  | writeAdv (q : Requester) (p : Fin 8) (n : Fin 1024) (arg : BitVec 38)
  /-- `FLUSH`: FLUSH of queue `n` through operation port `p` -/
  | flush (q : Requester) (p : Fin 8) (n : Fin 1024) (arg : BitVec 38)
  /-- `RESET`: RESET of queue `n` through operation port `p` -/
  | reset (q : Requester) (p : Fin 8) (n : Fin 1024) (arg : BitVec 38)
  /-- `RECORD_APPEND`: the oldest closed record of a capture port (lane l, 24 + group g, 32 + Heath port p) is appended; an
  uncorrectable error touched it or not -/
  | recordAppend (p : Fin 40) (poison : Bool)
  /-- `RECORD_VISIBLE`: the visibility time of the oldest closed record of queue `q` has come -/
  | recordVisible (q : Fin 1024)
  /-- `HELD_PRODUCER_RESUME`: the stalled producer of queue `q` tries again -/
  | heldProducerResume (q : Fin 1024)
  /-- `CHANNEL_WAIT_RESUME`: the memory channel that queue `q` waits on is READY again -/
  | channelWaitResume (q : Fin 1024)
  /-- `POSITION_CHECK_PASS`: the background pass finds these pairs of position copies different -/
  | positionCheckPass (bad : List PosBad)
  /-- `CHANNEL_ENABLE`: `BLK_CTRL.EN` of channel `c` written 1 -/
  | channelEnable (q : Requester) (c : Fin 8)
  /-- `CHANNEL_INIT_DONE`: the reset, clock, mode register and ZQ sequence of channel `c` completes -/
  | channelInitDone (c : Fin 8)
  /-- `TRAINING_DONE`: training of channel `c` completes -/
  | trainingDone (c : Fin 8) (r : Trained)
  /-- `CHANNEL_DISABLE`: `BLK_CTRL.EN` of channel `c` written 0 -/
  | channelDisable (q : Requester) (c : Fin 8)
  /-- `MC_RETRAIN`: 1 written to `MC_CMD.RETRAIN` -/
  | mcRetrain (q : Requester) (c : Fin 8)
  /-- `SR_ENTER`: 1 written to `MC_CMD.SR_ENTER` -/
  | srEnter (q : Requester) (c : Fin 8)
  /-- `SR_EXIT`: 1 written to `MC_CMD.SR_EXIT` -/
  | srExit (q : Requester) (c : Fin 8)
  /-- `CAPAR_RETRY`: `ALERT_N` reports a CA parity error on channel `c`; the retry fails or not -/
  | caparRetry (c : Fin 8) (fails : Bool)
  /-- `TRACKING_PASS`: a tracking pass of channel `c` finds these read delays and this temperature status -/
  | trackingPass (c : Fin 8) (delays : List (Fin 72 × BitVec 9)) (hot : Bool)
  /-- `ARBITRATION_WINDOW`: a new window of a channel starts -/
  | arbitrationWindow (a : Arrivals)
  /-- `SCRUB_BURST`: patrol scrub reads the next burst of channel `c` and finds `e` -/
  | scrubBurst (c : Fin 8) (e : Ecc)
  /-- `MC_LOOP_START`: 1 written to `MC_CMD.LOOP_START` -/
  | mcLoopStart (q : Requester) (c : Fin 8)
  /-- `MC_LOOP_DONE`: a loop-back run of channel `c` completes -/
  | mcLoopDone (c : Fin 8) (firstDq : Option (Fin 72)) (fails : Nat)
  /-- `TOKEN_ARRIVAL`: the token that source `src` of tile `t` has sent reaches its FU port; `way` is a way of its set that
  reads uncorrectable -/
  | tokenArrival (t : Fin 48) (src : Fin 141) (parity : Parity) (way : Option (Fin 4))
  /-- `FU_FIRE`: FU `f` fires the operation whose last operand heads port `p`; `e` is what SEC-DED finds in the context -/
  | fuFire (t : Fin 48) (f : Fin 64) (p : Fin 3) (e : Ecc)
  /-- `DIVIDER_RESULT`: divider `d` of tile `t` has its result; its residue check fails or not -/
  | dividerResult (t : Fin 48) (d : Fin 4) (bad : Bool)
  /-- `MEMORY_OP_RESPONSE`: the response to the `n`-th oldest request of tile `t`'s memory port; `e` is what error
  correction finds in a memory word -/
  | memoryOpResponse (t : Fin 48) (n : Fin 64) (e : Ecc)
  /-- `ENTRY_ADMIT`: array entry port `n` turns to its head token -/
  | entryAdmit (n : Fin 64)
  /-- `EXIT_ACCEPT`: the token that a source of tile `t` has sent reaches its exit port -/
  | exitAccept (t : Fin 48) (x : ExitToken)
  /-- `EXIT_PORT_DISABLE`: `TILE_XP_CFG.EN` of array exit port `n` written 0 -/
  | exitPortDisable (q : Requester) (n : Fin 64)
  /-- `TILE_MARKER_PASS`: the marker of the epoch that a tile closes next has passed its input channels -/
  | tileMarkerPass (m : MarkerPass)
  /-- `REMAP_ARM`: `TILE_REMAP_CTRL.ARM` of tile `t` written 1 -/
  | remapArm (q : Requester) (t : Fin 48)
  /-- `REMAP_CANCEL`: `TILE_REMAP_CTRL.ARM` of tile `t` written 0 -/
  | remapCancel (q : Requester) (t : Fin 48)
  /-- `TILE_PAUSE`: `TILE_CTRL` of tile `t` written with `v` -/
  | tilePause (q : Requester) (t : Fin 48) (v : Word)
  /-- `SPILL_ENABLE`: `HALL_CTRL.SPILL_EN` of tile `t` written 1 -/
  | spillEnable (q : Requester) (t : Fin 48)
  /-- `SPILL_FILL_DONE`: the zero fill of the spill region of tile `t` completes -/
  | spillFillDone (t : Fin 48)
  /-- `SPILL_OPERATION_DONE`: the spill operation of the arrival at port `p` of FU `f` completes; what error correction
  finds in its buckets -/
  | spillOperationDone (t : Fin 48) (f : Fin 64) (p : Fin 3) (e0 e1 e2 e3 : Ecc)
  /-- `HELD_STORE_RETRY`: the held store of port `p` of FU `f` is retried -/
  | heldStoreRetry (t : Fin 48) (f : Fin 64) (p : Fin 3) (e0 e1 e2 e3 : Ecc)
  /-- `SPILL_SCAN`: the spill scan of tile `t` reads its next bucket -/
  | spillScan (t : Fin 48) (e : Ecc)
  /-- `STALL_DETECTED`: the stall interval of tile `t` expires -/
  | stallDetected (t : Fin 48)
  /-- `TILE_LDR_LOAD`: 1 written to `TILE_LDR_CMD.LOAD` -/
  | tileLdrLoad (q : Requester)
  /-- `TILE_LDR_ABORT`: 1 written to `TILE_LDR_CMD.ABORT` -/
  | tileLdrAbort (q : Requester)
  /-- `CHECKING_DONE`: checks 1 to 4 of the context loader complete -/
  | checkingDone
  /-- `BINDING_DONE`: the binding check completes -/
  | bindingDone
  /-- `VERIFYING_DONE`: the BSC has verified the context image -/
  | verifyingDone
  /-- `WRITING_DONE`: every slot, map and `ARM` bit is written -/
  | writingDone
  /-- `NOP`: core `k` issues the instruction at its program counter, a NOP -/
  | nop (k : Fin 32) (x : CoreEnv)
  /-- `DROP`: core `k` issues the instruction at its program counter, a DROP -/
  | drop (k : Fin 32) (x : CoreEnv)
  /-- `DUP`: core `k` issues the instruction at its program counter, a DUP -/
  | dup (k : Fin 32) (x : CoreEnv)
  /-- `SWAP`: core `k` issues the instruction at its program counter, a SWAP -/
  | swap (k : Fin 32) (x : CoreEnv)
  /-- `OVER`: core `k` issues the instruction at its program counter, an OVER -/
  | over (k : Fin 32) (x : CoreEnv)
  /-- `ROT`: core `k` issues the instruction at its program counter, a ROT -/
  | rot (k : Fin 32) (x : CoreEnv)
  /-- `NIP`: core `k` issues the instruction at its program counter, a NIP -/
  | nip (k : Fin 32) (x : CoreEnv)
  /-- `TUCK`: core `k` issues the instruction at its program counter, a TUCK -/
  | tuck (k : Fin 32) (x : CoreEnv)
  /-- `PICK`: core `k` issues the instruction at its program counter, a PICK -/
  | pick (k : Fin 32) (x : CoreEnv)
  /-- `TWO_DROP`: core `k` issues the instruction at its program counter, a TWO_DROP -/
  | twoDrop (k : Fin 32) (x : CoreEnv)
  /-- `TWO_DUP`: core `k` issues the instruction at its program counter, a TWO_DUP -/
  | twoDup (k : Fin 32) (x : CoreEnv)
  /-- `TWO_SWAP`: core `k` issues the instruction at its program counter, a TWO_SWAP -/
  | twoSwap (k : Fin 32) (x : CoreEnv)
  /-- `DEPTH`: core `k` issues the instruction at its program counter, a DEPTH -/
  | depth (k : Fin 32) (x : CoreEnv)
  /-- `TOR`: core `k` issues the instruction at its program counter, a TOR -/
  | tor (k : Fin 32) (x : CoreEnv)
  /-- `FROMR`: core `k` issues the instruction at its program counter, a FROMR -/
  | fromr (k : Fin 32) (x : CoreEnv)
  /-- `RFETCH`: core `k` issues the instruction at its program counter, a RFETCH -/
  | rfetch (k : Fin 32) (x : CoreEnv)
  /-- `LIT`: core `k` issues the instruction at its program counter, a LIT -/
  | lit (k : Fin 32) (x : CoreEnv)
  /-- `LITU`: core `k` issues the instruction at its program counter, a LITU -/
  | litu (k : Fin 32) (x : CoreEnv)
  /-- `ADDI`: core `k` issues the instruction at its program counter, an ADDI -/
  | addi (k : Fin 32) (x : CoreEnv)
  /-- `ANDI`: core `k` issues the instruction at its program counter, an ANDI -/
  | andi (k : Fin 32) (x : CoreEnv)
  /-- `ORI`: core `k` issues the instruction at its program counter, an ORI -/
  | ori (k : Fin 32) (x : CoreEnv)
  /-- `XORI`: core `k` issues the instruction at its program counter, a XORI -/
  | xori (k : Fin 32) (x : CoreEnv)
  /-- `SHLI`: core `k` issues the instruction at its program counter, a SHLI -/
  | shli (k : Fin 32) (x : CoreEnv)
  /-- `SHRI`: core `k` issues the instruction at its program counter, a SHRI -/
  | shri (k : Fin 32) (x : CoreEnv)
  /-- `SARI`: core `k` issues the instruction at its program counter, a SARI -/
  | sari (k : Fin 32) (x : CoreEnv)
  /-- `ROLI`: core `k` issues the instruction at its program counter, a ROLI -/
  | roli (k : Fin 32) (x : CoreEnv)
  /-- `LDL`: core `k` issues the instruction at its program counter, a LDL -/
  | ldl (k : Fin 32) (x : CoreEnv)
  /-- `STL`: core `k` issues the instruction at its program counter, a STL -/
  | stl (k : Fin 32) (x : CoreEnv)
  /-- `RDS`: core `k` issues the instruction at its program counter, a RDS -/
  | rds (k : Fin 32) (x : CoreEnv)
  /-- `WRS`: core `k` issues the instruction at its program counter, a WRS -/
  | wrs (k : Fin 32) (x : CoreEnv)
  /-- `LLIT`: core `k` issues the instruction at its program counter, a LLIT0 to LLIT7 -/
  | llit (k : Fin 32) (x : CoreEnv)
  /-- `LADD`: core `k` issues the instruction at its program counter, a LADD0 to LADD7 -/
  | ladd (k : Fin 32) (x : CoreEnv)
  /-- `SEXTB`: core `k` issues the instruction at its program counter, a SEXTB -/
  | sextb (k : Fin 32) (x : CoreEnv)
  /-- `SEXTH`: core `k` issues the instruction at its program counter, a SEXTH -/
  | sexth (k : Fin 32) (x : CoreEnv)
  /-- `ADR`: core `k` issues the instruction at its program counter, an ADR -/
  | adr (k : Fin 32) (x : CoreEnv)
  /-- `SATH`: core `k` issues the instruction at its program counter, a SATH -/
  | sath (k : Fin 32) (x : CoreEnv)
  /-- `ADD`: core `k` issues the instruction at its program counter, an ADD -/
  | add (k : Fin 32) (x : CoreEnv)
  /-- `ADDS`: core `k` issues the instruction at its program counter, an ADDS -/
  | adds (k : Fin 32) (x : CoreEnv)
  /-- `ADDUS`: core `k` issues the instruction at its program counter, an ADDUS -/
  | addus (k : Fin 32) (x : CoreEnv)
  /-- `SUB`: core `k` issues the instruction at its program counter, a SUB -/
  | sub (k : Fin 32) (x : CoreEnv)
  /-- `SUBS`: core `k` issues the instruction at its program counter, a SUBS -/
  | subs (k : Fin 32) (x : CoreEnv)
  /-- `SUBUS`: core `k` issues the instruction at its program counter, a SUBUS -/
  | subus (k : Fin 32) (x : CoreEnv)
  /-- `NEG`: core `k` issues the instruction at its program counter, a NEG -/
  | neg (k : Fin 32) (x : CoreEnv)
  /-- `ABS`: core `k` issues the instruction at its program counter, an ABS -/
  | abs (k : Fin 32) (x : CoreEnv)
  /-- `MIN`: core `k` issues the instruction at its program counter, a MIN -/
  | min (k : Fin 32) (x : CoreEnv)
  /-- `MAX`: core `k` issues the instruction at its program counter, a MAX -/
  | max (k : Fin 32) (x : CoreEnv)
  /-- `MINU`: core `k` issues the instruction at its program counter, a MINU -/
  | minu (k : Fin 32) (x : CoreEnv)
  /-- `MAXU`: core `k` issues the instruction at its program counter, a MAXU -/
  | maxu (k : Fin 32) (x : CoreEnv)
  /-- `ADDC`: core `k` issues the instruction at its program counter, an ADDC -/
  | addc (k : Fin 32) (x : CoreEnv)
  /-- `SUBB`: core `k` issues the instruction at its program counter, a SUBB -/
  | subb (k : Fin 32) (x : CoreEnv)
  /-- `CLAMP`: core `k` issues the instruction at its program counter, a CLAMP -/
  | clamp (k : Fin 32) (x : CoreEnv)
  /-- `MUL`: core `k` issues the instruction at its program counter, a MUL -/
  | mul (k : Fin 32) (x : CoreEnv)
  /-- `MULH`: core `k` issues the instruction at its program counter, a MULH -/
  | mulh (k : Fin 32) (x : CoreEnv)
  /-- `MULHU`: core `k` issues the instruction at its program counter, a MULHU -/
  | mulhu (k : Fin 32) (x : CoreEnv)
  /-- `MAC`: core `k` issues the instruction at its program counter, a MAC -/
  | mac (k : Fin 32) (x : CoreEnv)
  /-- `MULI`: core `k` issues the instruction at its program counter, a MULI -/
  | muli (k : Fin 32) (x : CoreEnv)
  /-- `DIV`: core `k` issues the instruction at its program counter, a DIV -/
  | div (k : Fin 32) (x : CoreEnv)
  /-- `DIVU`: core `k` issues the instruction at its program counter, a DIVU -/
  | divu (k : Fin 32) (x : CoreEnv)
  /-- `REM`: core `k` issues the instruction at its program counter, a REM -/
  | rem (k : Fin 32) (x : CoreEnv)
  /-- `REMU`: core `k` issues the instruction at its program counter, a REMU -/
  | remu (k : Fin 32) (x : CoreEnv)
  /-- `DIVREM`: core `k` issues the instruction at its program counter, a DIVREM -/
  | divrem (k : Fin 32) (x : CoreEnv)
  /-- `DIVREMU`: core `k` issues the instruction at its program counter, a DIVREMU -/
  | divremu (k : Fin 32) (x : CoreEnv)
  /-- `AND`: core `k` issues the instruction at its program counter, an AND -/
  | and (k : Fin 32) (x : CoreEnv)
  /-- `OR`: core `k` issues the instruction at its program counter, an OR -/
  | or (k : Fin 32) (x : CoreEnv)
  /-- `XOR`: core `k` issues the instruction at its program counter, a XOR -/
  | xor (k : Fin 32) (x : CoreEnv)
  /-- `ANDN`: core `k` issues the instruction at its program counter, an ANDN -/
  | andn (k : Fin 32) (x : CoreEnv)
  /-- `NOT`: core `k` issues the instruction at its program counter, a NOT -/
  | not (k : Fin 32) (x : CoreEnv)
  /-- `SHL`: core `k` issues the instruction at its program counter, a SHL -/
  | shl (k : Fin 32) (x : CoreEnv)
  /-- `SHR`: core `k` issues the instruction at its program counter, a SHR -/
  | shr (k : Fin 32) (x : CoreEnv)
  /-- `SAR`: core `k` issues the instruction at its program counter, a SAR -/
  | sar (k : Fin 32) (x : CoreEnv)
  /-- `ROL`: core `k` issues the instruction at its program counter, a ROL -/
  | rol (k : Fin 32) (x : CoreEnv)
  /-- `ROR`: core `k` issues the instruction at its program counter, a ROR -/
  | ror (k : Fin 32) (x : CoreEnv)
  /-- `CLZ`: core `k` issues the instruction at its program counter, a CLZ -/
  | clz (k : Fin 32) (x : CoreEnv)
  /-- `CTZ`: core `k` issues the instruction at its program counter, a CTZ -/
  | ctz (k : Fin 32) (x : CoreEnv)
  /-- `POPC`: core `k` issues the instruction at its program counter, a POPC -/
  | popc (k : Fin 32) (x : CoreEnv)
  /-- `BSWAP`: core `k` issues the instruction at its program counter, a BSWAP -/
  | bswap (k : Fin 32) (x : CoreEnv)
  /-- `CMP`: core `k` issues the instruction at its program counter, a CMP -/
  | cmp (k : Fin 32) (x : CoreEnv)
  /-- `SELECT`: core `k` issues the instruction at its program counter, a SELECT -/
  | select (k : Fin 32) (x : CoreEnv)
  /-- `EXTU`: core `k` issues the instruction at its program counter, an EXTU -/
  | extu (k : Fin 32) (x : CoreEnv)
  /-- `EXTS`: core `k` issues the instruction at its program counter, an EXTS -/
  | exts (k : Fin 32) (x : CoreEnv)
  /-- `INS`: core `k` issues the instruction at its program counter, an INS -/
  | ins (k : Fin 32) (x : CoreEnv)
  /-- `CRC1`: core `k` issues the instruction at its program counter, a CRC1 -/
  | crc1 (k : Fin 32) (x : CoreEnv)
  /-- `CRC2`: core `k` issues the instruction at its program counter, a CRC2 -/
  | crc2 (k : Fin 32) (x : CoreEnv)
  /-- `CRC4`: core `k` issues the instruction at its program counter, a CRC4 -/
  | crc4 (k : Fin 32) (x : CoreEnv)
  /-- `HASH`: core `k` issues the instruction at its program counter, a HASH -/
  | hash (k : Fin 32) (x : CoreEnv)
  /-- `FOLD`: core `k` issues the instruction at its program counter, a FOLD -/
  | fold (k : Fin 32) (x : CoreEnv)
  /-- `LDW`: core `k` issues the instruction at its program counter, a LDW -/
  | ldw (k : Fin 32) (x : CoreEnv)
  /-- `LDH`: core `k` issues the instruction at its program counter, a LDH -/
  | ldh (k : Fin 32) (x : CoreEnv)
  /-- `LDHU`: core `k` issues the instruction at its program counter, a LDHU -/
  | ldhu (k : Fin 32) (x : CoreEnv)
  /-- `LDB`: core `k` issues the instruction at its program counter, a LDB -/
  | ldb (k : Fin 32) (x : CoreEnv)
  /-- `LDBU`: core `k` issues the instruction at its program counter, a LDBU -/
  | ldbu (k : Fin 32) (x : CoreEnv)
  /-- `STW`: core `k` issues the instruction at its program counter, a STW -/
  | stw (k : Fin 32) (x : CoreEnv)
  /-- `STH`: core `k` issues the instruction at its program counter, a STH -/
  | sth (k : Fin 32) (x : CoreEnv)
  /-- `STB`: core `k` issues the instruction at its program counter, a STB -/
  | stb (k : Fin 32) (x : CoreEnv)
  /-- `LDR`: core `k` issues the instruction at its program counter, a LDR0 to LDR7 -/
  | ldr (k : Fin 32) (x : CoreEnv)
  /-- `STR`: core `k` issues the instruction at its program counter, a STR0 to STR7 -/
  | str (k : Fin 32) (x : CoreEnv)
  /-- `AMOADD`: core `k` issues the instruction at its program counter, an AMOADD -/
  | amoadd (k : Fin 32) (x : CoreEnv)
  /-- `SWAPM`: core `k` issues the instruction at its program counter, a SWAPM -/
  | swapm (k : Fin 32) (x : CoreEnv)
  /-- `CAS`: core `k` issues the instruction at its program counter, a CAS -/
  | cas (k : Fin 32) (x : CoreEnv)
  /-- `FENCE`: core `k` issues the instruction at its program counter, a FENCE -/
  | fence (k : Fin 32) (x : CoreEnv)
  /-- `CMAC`: core `k` issues the instruction at its program counter, a CMAC -/
  | cmac (k : Fin 32) (x : CoreEnv)
  /-- `CMUL`: core `k` issues the instruction at its program counter, a CMUL -/
  | cmul (k : Fin 32) (x : CoreEnv)
  /-- `RMAC`: core `k` issues the instruction at its program counter, a RMAC -/
  | rmac (k : Fin 32) (x : CoreEnv)
  /-- `ACCLR`: core `k` issues the instruction at its program counter, an ACCLR -/
  | acclr (k : Fin 32) (x : CoreEnv)
  /-- `ACRD`: core `k` issues the instruction at its program counter, an ACRD -/
  | acrd (k : Fin 32) (x : CoreEnv)
  /-- `ACRDC`: core `k` issues the instruction at its program counter, an ACRDC -/
  | acrdc (k : Fin 32) (x : CoreEnv)
  /-- `ACGET`: core `k` issues the instruction at its program counter, an ACGET -/
  | acget (k : Fin 32) (x : CoreEnv)
  /-- `ACSET`: core `k` issues the instruction at its program counter, an ACSET -/
  | acset (k : Fin 32) (x : CoreEnv)
  /-- `BEXP`: core `k` issues the instruction at its program counter, a BEXP -/
  | bexp (k : Fin 32) (x : CoreEnv)
  /-- `BEXCLR`: core `k` issues the instruction at its program counter, a BEXCLR -/
  | bexclr (k : Fin 32) (x : CoreEnv)
  /-- `LDXY`: core `k` issues the instruction at its program counter, a LDXY -/
  | ldxy (k : Fin 32) (x : CoreEnv)
  /-- `STXY`: core `k` issues the instruction at its program counter, a STXY -/
  | stxy (k : Fin 32) (x : CoreEnv)
  /-- `CADD`: core `k` issues the instruction at its program counter, a CADD -/
  | cadd (k : Fin 32) (x : CoreEnv)
  /-- `CSUB`: core `k` issues the instruction at its program counter, a CSUB -/
  | csub (k : Fin 32) (x : CoreEnv)
  /-- `CSHR`: core `k` issues the instruction at its program counter, a CSHR -/
  | cshr (k : Fin 32) (x : CoreEnv)
  /-- `BR`: core `k` issues the instruction at its program counter, a BR -/
  | br (k : Fin 32) (x : CoreEnv)
  /-- `BZ`: core `k` issues the instruction at its program counter, a BZ -/
  | bz (k : Fin 32) (x : CoreEnv)
  /-- `BNZ`: core `k` issues the instruction at its program counter, a BNZ -/
  | bnz (k : Fin 32) (x : CoreEnv)
  /-- `BRANCH_COMPARE`: core `k` issues the instruction at its program counter, a BEQ to BLEU -/
  | branchCompare (k : Fin 32) (x : CoreEnv)
  /-- `CALL`: core `k` issues the instruction at its program counter, a CALL -/
  | call (k : Fin 32) (x : CoreEnv)
  /-- `BRI`: core `k` issues the instruction at its program counter, a BRI -/
  | bri (k : Fin 32) (x : CoreEnv)
  /-- `CALLI`: core `k` issues the instruction at its program counter, a CALLI -/
  | calli (k : Fin 32) (x : CoreEnv)
  /-- `RET`: core `k` issues the instruction at its program counter, a RET -/
  | ret (k : Fin 32) (x : CoreEnv)
  /-- `RETT`: core `k` issues the instruction at its program counter, a RETT -/
  | rett (k : Fin 32) (x : CoreEnv)
  /-- `LOOP`: core `k` issues the instruction at its program counter, a LOOP -/
  | loop (k : Fin 32) (x : CoreEnv)
  /-- `REP`: core `k` issues the instruction at its program counter, a REP -/
  | rep (k : Fin 32) (x : CoreEnv)
  /-- `TRAP`: core `k` issues the instruction at its program counter, a TRAP -/
  | trap (k : Fin 32) (x : CoreEnv)
  /-- `BRK`: core `k` issues the instruction at its program counter, a BRK -/
  | brk (k : Fin 32) (x : CoreEnv)
  /-- `WAIT`: core `k` issues the instruction at its program counter, a WAIT -/
  | wait (k : Fin 32) (x : CoreEnv)
  /-- `LAND`: core `k` issues the instruction at its program counter, a LAND -/
  | land (k : Fin 32) (x : CoreEnv)
  /-- `DONE`: core `k` issues the instruction at its program counter, a DONE -/
  | done (k : Fin 32) (x : CoreEnv)
  /-- `DBELL`: core `k` issues the instruction at its program counter, a DBELL -/
  | dbell (k : Fin 32) (x : CoreEnv)
  /-- `SYNCI`: core `k` issues the instruction at its program counter, a SYNCI -/
  | synci (k : Fin 32) (x : CoreEnv)
  /-- `OUT`: core `k` issues the instruction at its program counter, an OUT -/
  | out (k : Fin 32) (x : CoreEnv)
  /-- `OUTD`: core `k` issues the instruction at its program counter, an OUTD -/
  | outd (k : Fin 32) (x : CoreEnv)
  /-- `STAMP`: core `k` issues the instruction at its program counter, a STAMP -/
  | stamp (k : Fin 32) (x : CoreEnv)
  /-- `INTERRUPT_ENTRY`: core `k` stands at an interruptible boundary -/
  | interruptEntry (k : Fin 32) (x : CoreEnv)
  /-- `CORE_RUN`: `SC_CTRL.RUN` of core `k` written 1 -/
  | coreRun (q : Requester) (k : Fin 32)
  /-- `CORE_STOP`: `SC_CTRL.RUN` of core `k` written 0 -/
  | coreStop (q : Requester) (k : Fin 32)
  /-- `CORE_RESET`: `SC_CTRL.CRST` of core `k` written 1, with `RUN` = `run` -/
  | coreReset (q : Requester) (k : Fin 32) (run : Bool)
  /-- `CORE_RESET_DONE`: reset C of core `k` completes -/
  | coreResetDone (k : Fin 32)
  /-- `DOORBELL_SET`: 1 written to `SC_DBELL_SET` of core `k` -/
  | doorbellSet (q : Requester) (k : Fin 32)
  /-- `BANK_MIRROR_WRITE`: the stack base (0), limit (1), *DSP* (2) or *RSP* (3) of bank `b` of core `k` written in its page -/
  | bankMirrorWrite (q : Requester) (k : Fin 32) (b which : Fin 4) (v : Word)
  /-- `DISPATCH`: the scheduler takes its next decision -/
  | dispatch
  /-- `SLOT_FILL`: the copy of landing slot `n` of core `k` completes, the prefetch finding `e` -/
  | slotFill (k : Fin 32) (n : Fin 2) (e : Ecc)
  /-- `AFF_EXPIRE`: the affinity wait of flow `f` expires -/
  | affExpire (f : Fin 4096)
  /-- `STARVED`: the head item of flow `f` has waited `SCH_STARVE_INT` with no eligible core -/
  | starved (f : Fin 4096)
  /-- `FLOW_ENABLE`: `FLW_CTRL.EN` of flow `f` written 1 -/
  | flowEnable (q : Requester) (f : Fin 4096)
  /-- `BANK_HANDOVER`: `SPB_OWNER` of bank `b` written with `v` -/
  | bankHandover (q : Requester) (b : Fin 64) (v : Word)
  /-- `BANK_DMA_START`: `SPB_DMA_CMD` of bank `b` written with `START` 1 and `DIR` = `out` -/
  | bankDmaStart (q : Requester) (b : Fin 64) (out : Bool)
  /-- `BANK_DMA_ABORT`: 1 written to `SPB_DMA_CMD.ABORT` of bank `b` -/
  | bankDmaAbort (q : Requester) (b : Fin 64)
  /-- `BANK_DMA_END`: the copy of bank `b` ends; its first read finds `e` -/
  | bankDmaEnd (b : Fin 64) (e : Ecc)
  /-- `BANK_POWER_REQUEST`: `SPB_PWR` of bank `b` written with `v` -/
  | bankPowerRequest (q : Requester) (b : Fin 64) (v : Word)
  /-- `BANK_POWER_DONE`: bank `b` finishes its state change -/
  | bankPowerDone (b : Fin 64)
  /-- `ROW_TEST`: the background test of bank `b` takes its next row, which fails or not; `spares` are the spare rows that fail -/
  | rowTest (b : Fin 64) (fails : Bool) (spares : BitVec 4)
  /-- `EPOCH_BOUNDARY`: an epoch boundary falls, upsets of detour tables before it -/
  | epochBoundary (upsets : List DetourUpset)
  /-- `EPOCH_OUT_END`: 100 ns have passed since the boundary -/
  | epochOutEnd
  /-- `EPOCH_SYNC_EDGE`: a rising edge on `EPOCH_SYNC`, `since` ticks after the previous boundary -/
  | epochSyncEdge (since : Nat)
  /-- `SYNC_WINDOW_CLOSE`: the sync window closes with no edge, upsets of detour tables before it -/
  | syncWindowClose (upsets : List DetourUpset)
  /-- `REALIGN_TIMEOUT`: 1.5 periods have passed in REALIGN with no qualifying edge, upsets of detour tables before it -/
  | realignTimeout (upsets : List DetourUpset)
  /-- `EPOCH_COMMIT`: the snapshot of the next epoch of domain `d` completes -/
  | epochCommit (d : Fin 4)
  /-- `RECOVERY_COMPLETE`: the restore and rewind of domain `d` and those coupled with it finish; `lost` are tiles whose
  snapshot store reads uncorrectable -/
  | recoveryComplete (d : Fin 4) (lost : List (Fin 48))
  /-- `CORRIDOR_RD`: a read of `n` bytes at `a` under a tag of `q` reaches its target; `e` is what error correction finds in
  a memory word -/
  | corridorRd (q : Requester) (tag : BitVec 12) (a : Addr) (n : Nat) (e : Ecc) (x : Transit)
  /-- `CORRIDOR_WR`: a write of bytes at `a` under a tag of `q` reaches its target -/
  | corridorWr (q : Requester) (tag : BitVec 12) (a : Addr) (bs : List Byte) (x : Transit)
  /-- `CORRIDOR_WRP`: a posted write of the host reaches its target -/
  | corridorWrp (a : Addr) (bs : List Byte) (x : Transit)
  /-- `CORRIDOR_AMOADD`: an atomic add reaches its target -/
  | corridorAmoadd (q : Requester) (tag : BitVec 12) (a : Addr) (v : Word) (e : Ecc) (x : Transit)
  /-- `CORRIDOR_SWAP`: an atomic swap reaches its target -/
  | corridorSwap (q : Requester) (tag : BitVec 12) (a : Addr) (v : Word) (e : Ecc) (x : Transit)
  /-- `CORRIDOR_CAS`: a compare and swap reaches its target -/
  | corridorCas (q : Requester) (tag : BitVec 12) (a : Addr) (want v : Word) (e : Ecc) (x : Transit)
  /-- `CORRIDOR_DBELL`: a DBELL packet of core `q` reaches core `k` -/
  | corridorDbell (q k : Fin 32) (x : Transit)
  /-- `RSP_DATA`: a data response reaches requester `q` -/
  | rspData (q : Requester) (tag : BitVec 12) (x : Transit)
  /-- `RSP_NODATA`: a write response reaches requester `q` -/
  | rspNodata (q : Requester) (tag : BitVec 12) (x : Transit)
  /-- `RESPONSE_TIMEOUT`: a request of `q` has had no response for `CRT_RSP_TIMEOUT` -/
  | responseTimeout (q : Requester) (tag : BitVec 12)
  /-- `APPLY`: 1 written to `CRT_CMD.APPLY` of router `r` -/
  | apply (q : Requester) (r : Fin 64)
  /-- `RECONFIG_DONE`: every buffer of quiescing router `r` is empty -/
  | reconfigDone (r : Fin 64)
  /-- `QUIESCE_TIMEOUT`: router `r` has not emptied within `CRT_QUIESCE_TIMEOUT` -/
  | quiesceTimeout (r : Fin 64)
  /-- `TRAIN_ENABLE`: `RLK_CTRL` written with `v` -/
  | trainEnable (q : Requester) (v : Word)
  /-- `SIGNAL_DETECTED`: signal has been present on all four receive lanes for 1 ms -/
  | signalDetected
  /-- `LINK_ALIGNED`: consecutive units that each receive lane has locked on, the consecutive units that it brings later, and the
  skew of the lanes in units -/
  | linkAligned (rx later : List (List (BitVec 66))) (skew : Nat)
  /-- `LINK_UP`: the units that the receive lanes have brought are 16 READY blocks or more -/
  | linkUp
  /-- `LOCK_LOST`: a receive lane misses 4 consecutive MARKs -/
  | lockLost
  /-- `RLK_RETRAIN`: 1 written to `RLK_CMD.RETRAIN` -/
  | rlkRetrain (q : Requester)
  /-- `RETRAIN_TIMEOUT`: RETRAIN has lasted 10 ms -/
  | retrainTimeout
  /-- `LOOPBACK_SIGNAL_LOSS`: no signal on all receive lanes for 10 us -/
  | loopbackSignalLoss
  /-- `DATA_FLIT`: a flit arrives whose `TYPE` is DATA or unreadable: payload and control word -/
  | dataFlit (payload : BitVec 512) (ctl : BitVec 64)
  /-- `NULL_FLIT`: a NULL flit arrives -/
  | nullFlit (payload : BitVec 512) (ctl : BitVec 64)
  /-- `NAK`: a NAK flit arrives -/
  | nak (payload : BitVec 512) (ctl : BitVec 64)
  /-- `REPLAY_TIMEOUT`: 2 us have passed without `ACK` progress -/
  | replayTimeout
  /-- `LINK_RESET`: a LINK_RESET flit arrives -/
  | linkReset (payload : BitVec 512) (ctl : BitVec 64)
  /-- `REG_RD`: a REG_RD transaction is received -/
  | regRd (x : Tran)
  /-- `REG_WR`: a REG_WR transaction is received -/
  | regWr (x : Tran)
  /-- `BLK_RD`: a BLK_RD transaction is received -/
  | blkRd (x : Tran)
  /-- `BLK_WR`: a BLK_WR transaction is received -/
  | blkWr (x : Tran)
  /-- `BLK_WR_P`: a BLK_WR_P transaction is received -/
  | blkWrP (x : Tran)
  /-- `BULK_GRANT`: a BULK_GRANT transaction is received -/
  | bulkGrant (x : Tran)
  /-- `SYNC`: a SYNC transaction is received; the stamp at which its SYNC_RSP departs -/
  | sync (x : Tran) (depart : DWord)
  /-- `BULK_DATA`: bulk stream `n` sends its next transaction -/
  | bulkData (n : Fin 16)
  /-- `BULK_STALL`: bulk stream `n` has been stalled for 1 ms -/
  | bulkStall (n : Fin 16)
  /-- `RLK_LOOP_START`: 1 written to `RLK_CMD.LOOP_START` -/
  | rlkLoopStart (q : Requester)
  /-- `BOOT_LINK`: `SEC_CMD` written BOOT_LINK -/
  | bootLink (q : Requester)
  /-- `BOOT_COPY_A`: `SEC_CMD` written BOOT_COPY_A -/
  | bootCopyA (q : Requester)
  /-- `BOOT_COPY_B`: `SEC_CMD` written BOOT_COPY_B -/
  | bootCopyB (q : Requester)
  /-- `KEY_COMMAND`: `SEC_CMD` written KEY_COMMAND -/
  | keyCommand (q : Requester)
  /-- `DEBUG_OPEN`: `SEC_CMD` written DEBUG_OPEN -/
  | debugOpen (q : Requester)
  /-- `DEBUG_CLOSE`: `SEC_CMD` written DEBUG_CLOSE -/
  | debugClose (q : Requester)
  /-- `DEBUG_CHALLENGE`: `SEC_CMD` written DEBUG_CHALLENGE -/
  | debugChallenge (q : Requester)
  /-- `QUOTE`: `SEC_CMD` written QUOTE -/
  | quote (q : Requester)
  /-- `CFG_ROLLBACK`: `SEC_CMD` written CFG_ROLLBACK with the new count `n` -/
  | cfgRollback (q : Requester) (n : BitVec 7)
  /-- `FLASH_BOOT`: the boot controller has read copies A and B of the boot flash, none where a copy cannot be read; how a
  fuse step of the commit ends -/
  | flashBoot (a b : Option FlashCopy) (r : FuseStep)
  /-- `TEMP_SAMPLE`: the temperature sensors read these values, in 0.125 degrees, sensor 0 first -/
  | tempSample (ts : List (BitVec 12))
  /-- `VMON_SAMPLE`: the voltage monitors read these values, in mV, monitor 0 first -/
  | vmonSample (vs : List (BitVec 12))
  /-- `LEDGER_PASS`: a ledger pass measures these sentinel periods, in 0.1 ps, sentinel 0 first; none where a sentinel does
  not run -/
  | ledgerPass (ps : List (Option (BitVec 16)))
  /-- `AVS_STEP`: the BSC sends the next step; `start` is the regulator's output where it has been sent none; `fail` the
  PMBus command that failed after its retries -/
  | avsStep (start : Nat) (fail : Option (BitVec 8))
  /-- `AVS_CONFIRM`: `READ_VOUT` answers `reading` mV, or fails after its retries -/
  | avsConfirm (reading : Nat) (fail : Option (BitVec 8))
  /-- `ROTATION_START`: a boundary at which a rotation is due -/
  | rotationStart
  /-- `ROTATION_DRAINED`: the candidate has drained and has been copied -/
  | rotationDrained
  /-- `ROTATE_ABANDONED`: the drain exceeds its bound, or a detected fault of the candidate's domain arrives -/
  | rotateAbandoned
  /-- `BIST_SLICE`: a logic BIST slice ends on the vacated physical tile -/
  | bistSlice (fails : Bool)
  /-- `GAP_VECTOR`: FU `f` of tile `t`, idle, runs a gap vector; whether its signature is the expected one -/
  | gapVector (t : Fin 48) (f : Fin 64) (good : Bool)
  /-- `QUIET`: `PWR_CMD` written QUIET -/
  | quiet (q : Requester)
  /-- `ACTIVE`: `PWR_CMD` written ACTIVE -/
  | active (q : Requester)
  /-- `STANDBY`: `PWR_CMD` written STANDBY -/
  | standby (q : Requester)
  /-- `STANDBY_ENTERED`: the Standby entry sequence completes -/
  | standbyEntered
  /-- `WAKE`: a wake source comes -/
  | wake (w : WakeSource)
  /-- `WAKE_COMPLETE`: the wake sequence completes -/
  | wakeComplete
  /-- `HOLD_START`: `VDD_CORE` has been below the warning level for 50 ns -/
  | holdStart
  /-- `HOLD_END`: `VDD_CORE` has been above the warning level plus 20 mV for 50 us; its lowest sample in mV and the duration
  in us -/
  | holdEnd (mv us : Nat)
  /-- `RESET_P`: `VDD_AON` crosses 0.68 V -/
  | resetP
  /-- `RESET_B`: a brown-out, of `VDD_SRAM` or of `VDD_CORE`; what it leaves of DDR4; the record of a HOLD that it ends -/
  | resetB (sram : Bool) (kept : Kept) (mv us : Nat)
  /-- `RESET_E`: `RESET_N` is low through its filter -/
  | resetE
  /-- `WATCHDOG_EXPIRY`: the watchdog count reaches 0 -/
  | watchdogExpiry
  /-- `WDT_KICK`: `PWR_WDT_KICK` written with `v` -/
  | wdtKick (q : Requester) (v : Word)
  /-- `RESET_RELEASE`: 10 us after the cause ends; the `BOOT_SEL` pins, and which GPIO banks are supplied at 3.3 V -/
  | resetRelease (sel : BitVec 2) (vsel : BitVec 4)
  /-- `FLOG_CLEAR`: `PWR_FLOG_CNT` written -/
  | flogClear (q : Requester) (v : Word)
  /-- `FUNCTION_SWITCH`: `GPIO_CFG[n]` written with `v` -/
  | functionSwitch (q : Requester) (n : Fin 96) (v : Word)
  /-- `GPIO_OUT_SET`: `GPIO_OUT_SET[w]` written with `v` -/
  | gpioOutSet (q : Requester) (w : Fin 3) (v : Word)
  /-- `GPIO_OUT_CLR`: `GPIO_OUT_CLR[w]` written with `v` -/
  | gpioOutClr (q : Requester) (w : Fin 3) (v : Word)
  /-- `GPIO_PIN_EVENT`: the pad of pin `n` has held a level -/
  | gpioPinEvent (n : Fin 96) (l : HeldLevel)
  /-- `PPS_EDGE`: `PPS_IN` rises at stamp `t` -/
  | ppsEdge (t : DWord)
  /-- `SMBUS_READ_WORD`: an SMBus transfer to `addr` sends command byte `cmd` -/
  | smbusReadWord (addr : BitVec 7) (write : Bool) (cmd : BitVec 8)
  /-- `LANE_LOCK_CHANGE`: the CDR and the symbol or block lock of lane `l` change to these -/
  | laneLockChange (l : Fin 24) (cdr lock eidle : Bool) (ppm : BitVec 16)
  /-- `TRIG_CLK_EDGE`: a rising edge of `TRIG_CLK` -/
  | trigClkEdge
  /-- `RLK_LOOP_DONE`: a near-end loop-back run ends with `fails` failing flits -/
  | rlkLoopDone (fails : Nat)
  /-- `SEC_COMMAND_DONE`: the security command under way finishes: a random challenge, and how its fuse step ends -/
  | secCommandDone (chal : BitVec 256) (r : FuseStep)
  /-- `RESERVED_OPCODE`: core `k` issues a syllable with a reserved opcode -/
  | reservedOpcode (k : Fin 32) (x : CoreEnv)
  deriving DecidableEq, Repr

end Sys2Proof
end

