-- ==== Sys2Proof/Machine/Bits.lean ====
section
/-! DEFINITION. Bit fields, saturating counts and byte order: the helpers every layer uses. -/

namespace Sys2Proof.Machine

/-- The field of width `n` at bit `lo`, as a number. -/
def fld {w : Nat} (v : BitVec w) (lo n : Nat) : Nat := (v.toNat >>> lo) % 2 ^ n

/-- Bit `i` of a word. -/
def bit {w : Nat} (v : BitVec w) (i : Nat) : Bool := v.getLsbD i

/-- The word with ones in the field of width `n` at bit `lo`. -/
def ones (lo n : Nat) : DWord := BitVec.ofNat 64 ((2 ^ n - 1) <<< lo)

/-- `v` with the field of width `n` at `lo` replaced by `x`, cut to the field. -/
def setFld (v : DWord) (lo n x : Nat) : DWord :=
  (v &&& ~~~ ones lo n) ||| BitVec.ofNat 64 ((x % 2 ^ n) <<< lo)

/-- `v` with bit `i` set or cleared. -/
def setBit (v : DWord) (i : Nat) (b : Bool) : DWord := setFld v i 1 b.toNat

/-- The bits of `new` where `mask` is 1, those of `old` elsewhere. -/
def merge (mask old new : DWord) : DWord := (old &&& ~~~ mask) ||| (new &&& mask)

/-- A count of `n` more, saturating at the largest value of `w` bits. -/
def satAdd (w : Nat) (v : DWord) (n : Nat) : DWord :=
  BitVec.ofNat 64 (min (v.toNat + n) (2 ^ w - 1))

/-- The low 32 bits of a register. -/
def lo32 (v : DWord) : Word := v.setWidth 32
/-- The high 32 bits of a register. -/
def hi32 (v : DWord) : Word := (v >>> 32).setWidth 32
/-- A register from its high and low words. -/
def join32 (hi lo : Word) : DWord := (hi.setWidth 64 <<< 32) ||| lo.setWidth 64
/-- A 32-bit word as a register value. -/
def ext (w : Word) : DWord := w.setWidth 64

/-- A two's complement reading of the low `n` bits. -/
def sgn (n x : Nat) : Int :=
  if x % 2 ^ n < 2 ^ (n - 1) then (x % 2 ^ n : Nat) else ((x % 2 ^ n : Nat) : Int) - 2 ^ n

/-- The low `n` bits of an integer, two's complement. -/
def toBits (n : Nat) (x : Int) : Nat := (x % 2 ^ n).toNat

/-- The little-endian number that a list of bytes spells. -/
def leNat : List Byte → Nat
  | [] => 0
  | b :: r => b.toNat + 256 * leNat r

/-- The `n` little-endian bytes of a number. -/
def leBytes : Nat → Nat → List Byte
  | 0, _ => []
  | n + 1, x => BitVec.ofNat 8 x :: leBytes n (x / 256)

/-- How many of the low `n` bits are 1. -/
def popc : Nat → Nat → Nat
  | 0, _ => 0
  | n + 1, x => x % 2 + popc n (x / 2)

/-- One number for a pair of numbers, different for different pairs. -/
def pairNat (a b : Nat) : Nat := if a < b then b * b + a else a * a + a + b

/-- An item put before the first of a greater measure. -/
def insertBy {α : Type} (m : α → Nat) (a : α) : List α → List α
  | [] => [a]
  | b :: r => if m a < m b then a :: b :: r else b :: insertBy m a r

/-- A list in rising order of a measure; equals keep their order. -/
def sortBy {α : Type} (m : α → Nat) (l : List α) : List α := l.foldl (fun r a => insertBy m a r) []

/-- Folds an update over a list of items. -/
def foldl' {σ α : Type} (f : σ → α → σ) : σ → List α → σ
  | s, [] => s
  | s, a :: r => foldl' f (f s a) r

end Sys2Proof.Machine
end

