-- ==== Sys2Proof/Machine/Operands.lean ====
section
/-! DEFINITION. Bit fields, conditions, shifts, CRC and hash: the operands of the functional units and stream cores
(R295 to R297, R307). -/

namespace Sys2Proof.Machine

/-- The condition `n` of R295 on two words. -/
def condition (n : Nat) (a b : Word) : Bool :=
  match n with
  | 0 => a == b
  | 1 => a != b
  | 2 => a.slt b
  | 3 => !(a.slt b)
  | 4 => a.ult b
  | 5 => !(a.ult b)
  | 6 => b.slt a
  | 7 => !(b.slt a)
  | 8 => b.ult a
  | 9 => !(b.ult a)
  | _ => false

/-- A field operand (R296) is not reserved: position in [4:0], width 1 to 32 in [13:8], within the word. -/
def fieldOk (k : Word) : Bool :=
  let p := fld k 0 5
  let w := fld k 8 6
  1 ≤ w && w ≤ 32 && p + w ≤ 32 && fld k 5 3 == 0 && fld k 14 18 == 0

/-- EXTU, EXTS and INS (R296). -/
def extU (a k : Word) : Word := BitVec.ofNat 32 (fld a (fld k 0 5) (fld k 8 6))
/-- The field sign-extended from its top bit (R296). -/
def extS (a k : Word) : Word := BitVec.ofInt 32 (sgn (fld k 8 6) (fld a (fld k 0 5) (fld k 8 6)))
/-- `a` with the field replaced by the low bits of `b` (R296). -/
def insField (a b k : Word) : Word :=
  let p := fld k 0 5
  let m : Word := BitVec.ofNat 32 ((2 ^ fld k 8 6 - 1) <<< p)
  (a &&& ~~~ m) ||| ((b <<< p) &&& m)

/-- Shift counts are the low 8 bits of the count operand (R307). -/
def count8 (b : Word) : Nat := b.toNat % 256
/-- SHL (R307). -/
def shl (a b : Word) : Word := a <<< count8 b
/-- SHR (R307). -/
def shr (a b : Word) : Word := a >>> count8 b
/-- SAR (R307). -/
def sar (a b : Word) : Word := a.sshiftRight (count8 b)
/-- ROL (R307). -/
def rol (a b : Word) : Word := a.rotateLeft (count8 b % 32)
/-- ROR (R307). -/
def ror (a b : Word) : Word := a.rotateRight (count8 b % 32)

/-- Leading zeros, 32 for 0. -/
def clz (a : Word) : Nat := ((List.range 32).find? fun i => a.getLsbD (31 - i)).getD 32
/-- Trailing zeros, 32 for 0. -/
def ctz (a : Word) : Nat := ((List.range 32).find? fun i => a.getLsbD i).getD 32
/-- The bytes of a word in reverse order. -/
def bswap (a : Word) : Word := BitVec.ofNat 32 (leNat (leBytes 4 a.toNat).reverse)
/-- HASH (R294). -/
def hash (a b : Word) : Word := ((a ^^^ b) * 0x9E3779B1).rotateLeft 15
/-- FOLD (R294). -/
def fold16 (a : Word) : Word := BitVec.ofNat 32 (fld a 16 16 ^^^ fld a 0 16)

/-! CRC (R297). -/

/-- Width, normal and reflected form of a polynomial. -/
def crcPoly (n : Nat) : Nat × Nat × Nat :=
  match n with
  | 0 => (32, 0x04C11DB7, 0xEDB88320)
  | 1 => (32, 0x1EDC6F41, 0x82F63B78)
  | 2 => (16, 0x1021, 0x8408)
  | _ => (8, 0x07, 0xE0)

/-- One reflected bit step, `n` times. -/
def crcBitsR (form : Nat) : Nat → Nat → Nat
  | 0, x => x
  | n + 1, x => crcBitsR form n (if x % 2 = 1 then (x / 2) ^^^ form else x / 2)

/-- One MSB-first bit step, `n` times. -/
def crcBitsM (w form : Nat) : Nat → Nat → Nat
  | 0, x => x
  | n + 1, x => crcBitsM w form n
      (if (x >>> (w - 1)) % 2 = 1 then ((x * 2) ^^^ form) % 2 ^ w else (x * 2) % 2 ^ w)

/-- The CRC state advanced by `n` bytes of the data under `fn` (R297). -/
def crc (fn n : Nat) (state data : Word) : Word :=
  let p := crcPoly (fn % 4)
  let bytes := (leBytes n data.toNat).map (·.toNat)
  let s0 := state.toNat % 2 ^ p.1
  BitVec.ofNat 32 <|
    if fn / 4 % 2 = 0 then bytes.foldl (fun s b => crcBitsR p.2.2 8 (s ^^^ b)) s0
    else bytes.reverse.foldl (fun s b => crcBitsM p.1 p.2.1 8 (s ^^^ (b <<< (p.1 - 8)))) s0

/-- The CRC-32 of IEEE 802.3 over bytes, with its initial value and final inversion (R135, R344). -/
def crc32 (bs : List Byte) : Nat := bs.foldl (fun s b => crcBitsR 0xEDB88320 8 (s ^^^ b.toNat)) 0xFFFFFFFF ^^^ 0xFFFFFFFF

end Sys2Proof.Machine
end

