-- ==== Sys2Proof/Machine/Flags.lean ====
section
/-! DEFINITION. The operation set's results with their predicate and flags (R294, R304 to R307). -/

namespace Sys2Proof.Machine

/-- The result of an operation: R, R2, predicate P, flags V and DZ. -/
structure Alu where
  r : Word
  p : Bool
  v : Bool := false
  dz : Bool := false
  r2 : Word := 0
  deriving DecidableEq, Repr

/-- A result whose predicate is R ≠ 0. -/
def plain (r : Word) (v : Bool := false) : Alu := { r := r, p := r != 0, v := v }

/-- A signed result clamped to 32 bits; V when it clamps. -/
def clampS (x : Int) : Alu :=
  if x < -2147483648 then plain 0x80000000 true
  else if 2147483647 < x then plain 0x7FFFFFFF true
  else plain (BitVec.ofInt 32 x)

/-- V of a wrapping signed operation: the exact result lies outside 32 bits. -/
def overflows (x : Int) : Bool := decide (x < -2147483648) || decide (2147483647 < x)

/-- ADD and SUB (R304). -/
def aluAdd (a b : Word) : Alu := plain (a + b) (overflows (a.toInt + b.toInt))
/-- SUB (R304). -/
def aluSub (a b : Word) : Alu := plain (a - b) (overflows (a.toInt - b.toInt))
/-- ADDUS (R304). -/
def aluAddUS (a b : Word) : Alu :=
  if 2 ^ 32 ≤ a.toNat + b.toNat then plain 0xFFFFFFFF true else plain (a + b)
/-- SUBUS (R304). -/
def aluSubUS (a b : Word) : Alu := if a.toNat < b.toNat then plain 0 true else plain (a - b)
/-- NEG and ABS (R305). -/
def aluNeg (a : Word) : Alu := plain (-a) (a == 0x80000000)
/-- ABS (R305). -/
def aluAbs (a : Word) : Alu := plain (if a.msb then -a else a) (a == 0x80000000)
/-- A choice between A and B: P says that A was taken (R294). -/
def aluPick (fromA : Bool) (a b : Word) : Alu := { r := if fromA then a else b, p := fromA }
/-- CLAMP (R294). -/
def aluClamp (a b c : Word) : Alu :=
  let m := if a.slt b then b else a
  { r := if c.slt m then c else m, p := !(a.slt b) && !(c.slt a) }

/-- Signed division (R306). -/
def aluDivS (a b : Word) : Alu :=
  if b = 0 then { r := if a.msb then 0x80000000 else 0x7FFFFFFF, p := false, dz := true, r2 := a }
  else if a = 0x80000000 ∧ b = 0xFFFFFFFF then { r := 0x80000000, p := true, v := true, r2 := 0 }
  else { r := BitVec.ofInt 32 (a.toInt.tdiv b.toInt), p := true, r2 := BitVec.ofInt 32 (a.toInt.tmod b.toInt) }

/-- Unsigned division (R306). -/
def aluDivU (a b : Word) : Alu :=
  if b = 0 then { r := 0xFFFFFFFF, p := false, dz := true, r2 := a }
  else { r := a / b, p := true, r2 := a % b }

/-- The remainder as the result. -/
def Alu.rem (x : Alu) : Alu := { x with r := x.r2 }

/-- The high word of the signed and of the unsigned product (R305). -/
def mulHS (a b : Word) : Word := BitVec.ofInt 32 ((a.toInt * b.toInt) / 2 ^ 32)
/-- The high word of the unsigned product (R305). -/
def mulHU (a b : Word) : Word := BitVec.ofNat 32 (a.toNat * b.toNat / 2 ^ 32)

/-- The operations of R294 that compute on operand values alone: opcode, `FN`, A, B, C, and the `K` parameter. -/
def aluOp (op fn : Nat) (a b c k : Word) : Alu :=
  match op with
  | 0x10 => aluAdd a b
  | 0x11 => clampS (a.toInt + b.toInt)
  | 0x12 => aluAddUS a b
  | 0x13 => aluSub a b
  | 0x14 => clampS (a.toInt - b.toInt)
  | 0x15 => aluSubUS a b
  | 0x16 => aluNeg a
  | 0x17 => aluAbs a
  | 0x18 => aluPick (!(b.slt a)) a b
  | 0x19 => aluPick (!(a.slt b)) a b
  | 0x1A => aluPick (!(b.ult a)) a b
  | 0x1B => aluPick (!(a.ult b)) a b
  | 0x1C => aluClamp a b c
  | 0x20 => plain (a * b)
  | 0x21 => plain (mulHS a b)
  | 0x22 => plain (mulHU a b)
  | 0x23 => plain (a * b + c)
  | 0x28 => aluDivS a b
  | 0x29 => aluDivU a b
  | 0x2A => (aluDivS a b).rem
  | 0x2B => (aluDivU a b).rem
  | 0x2C => aluDivS a b
  | 0x2D => aluDivU a b
  | 0x30 => plain (a &&& b)
  | 0x31 => plain (a ||| b)
  | 0x32 => plain (a ^^^ b)
  | 0x33 => plain (a &&& ~~~ b)
  | 0x34 => plain (~~~ a)
  | 0x38 => plain (shl a b)
  | 0x39 => plain (shr a b)
  | 0x3A => plain (sar a b)
  | 0x3B => plain (rol a b)
  | 0x3C => plain (ror a b)
  | 0x40 => let x := condition fn a b
            { r := if x then 1 else 0, p := x }
  | 0x41 => { r := if c != 0 then a else b, p := c != 0 }
  | 0x50 => plain (extU a k)
  | 0x51 => plain (extS a k)
  | 0x52 => plain (insField a b k)
  | 0x53 => plain (BitVec.ofNat 32 (clz a))
  | 0x54 => plain (BitVec.ofNat 32 (ctz a))
  | 0x55 => plain (BitVec.ofNat 32 (popc 32 a.toNat))
  | 0x56 => plain (bswap a)
  | 0x60 => plain (crc fn 1 a b)
  | 0x61 => plain (crc fn 2 a b)
  | 0x62 => plain (crc fn 4 a b)
  | 0x63 => plain (hash a b)
  | 0x64 => plain (fold16 a)
  | 0x81 => { r := a, p := b != 0 }
  | 0x82 => { r := a, p := true }
  | _ => plain a

end Sys2Proof.Machine
end

