-- ==== Sys2Proof/Config.lean ====
section
/-! DEFINITION. What one implementation fixes and the spec does not state: open values, as constants without a value. -/

namespace Sys2Proof

/-! The programmable logic of the Heath (R113 to R117, R122) as a configuration sets it. -/

/-- Where a Heath wire takes its level: constant 0, one of the 64 outputs of a cluster (output `o` of cell `o / 4`: two tables,
then two flip-flops), a cluster's selector column, its carry out of a cell, a routing wire, a global tree, a bit of a
memory's read data, its error outputs, or a hard block. -/
inductive HeathNet where
  | zero
  | cell (cluster out : Nat)
  | column (cluster : Nat)
  | carry (cluster cell : Nat)
  | wire (n : Nat)
  | tree (n : Nat)
  | memory (m port bit : Nat)
  | memoryError (m : Nat) (uncorrectable : Bool)
  | hard (n : Nat)
  deriving DecidableEq, Repr, Inhabited

/-- A flip-flop of a cell: whether D is a cell input (and which) or a table output, the cluster clock selection, the routing wires
of its clock enable and its set or reset, and its initial value. -/
structure HeathFf where
  direct : Bool := false
  d : Nat := 0
  clock : Nat := 0
  enable : Option Nat := none
  force : Option Nat := none
  async : Bool := false
  set : Bool := false
  init : Bool := false
  deriving DecidableEq, Repr, Inhabited

/-- A cell: its six-input table, split into two five-input ones or not, the selects of inputs A to F among the local sources (0
for constant 0), and its flip-flops. -/
structure HeathCell where
  table : BitVec 64 := 0
  split : Bool := false
  sel : List Nat := []
  ff0 : HeathFf := {}
  ff1 : HeathFf := {}
  deriving DecidableEq, Repr, Inhabited

/-- A cluster: its two clock selections, the local sources of the five select bits of its selector column and of the sixth that
joins it to the next cluster's, where it does, and whether its carry chain goes on from the cluster before it. -/
structure HeathCluster where
  clock0 : Nat := 0
  clock1 : Nat := 0
  column : List Nat := []
  sixth : Option Nat := none
  chained : Bool := false
  deriving DecidableEq, Repr, Inhabited

/-- The form of an embedded memory (R122). -/
inductive HeathForm where
  | x4 | x8 | x16 | x32 | x64 | x64ecc
  deriving DecidableEq, Repr, Inhabited

/-- A port of an embedded memory: its tree, and the routing wires of its address, data, write enable and read enable. -/
structure HeathPort where
  tree : Nat := 0
  addr : List Nat := []
  data : List Nat := []
  write : Nat := 0
  read : Nat := 0
  deriving DecidableEq, Repr, Inhabited

/-- An embedded memory: two read-write ports, or in the 64-bit forms a read port and a write port. -/
structure HeathMemory where
  form : HeathForm := .x32
  port0 : HeathPort := {}
  port1 : HeathPort := {}
  deriving DecidableEq, Repr, Inhabited

/-- The `n`-th value that the spec leaves open and an effect needs: nothing constrains it. -/
opaque Config.freeWord : Nat → DWord

/-! The factory calibration (R559) and the placement of monitors (R556), whose values the spec does not give. -/

/-- The baseline period of a sentinel, in 0.1 ps, in either copy (R559). -/
opaque Config.baseline : Nat → Bool → Nat
/-- `k_T`, in millionths per °C (R559). -/
opaque Config.kT : Nat
/-- `k_V`, in millionths per 10 mV (R559). -/
opaque Config.kV : Nat
/-- The fused SRAM limit, in 0.1 ps (R561). -/
opaque Config.sramLimit : Nat
/-- The temperature sensor that lies `r`-th nearest to a sentinel (R560). -/
opaque Config.nearTemp : Nat → Nat → Fin 32
/-- The `VDD_CORE` monitor that lies `r`-th nearest to a sentinel (R560). -/
opaque Config.nearVolt : Nat → Nat → Fin 4

/-- The wear of a sentinel whose calibration leaves no reference to compare its period with, in 0.01 % (log 32). -/
opaque Config.wear : Nat → Nat → Int

/-- What process monitor `p` reads, in 0.1 % of nominal (R575). -/
opaque Config.process : Nat → BitVec 16

/-! The identity certificate (R553 and the text around it), whose contents the spec does not give. -/

/-- The length of the certificate. -/
opaque Config.certLength : Nat
/-- Byte `i` of the certificate. -/
opaque Config.certByte : Nat → Byte

/-- A word of a measurement log entry that is not there (log 21). -/
opaque Config.logWord : Nat → Nat → Word

/-! What the logic frames of a Heath configuration set: R135 gives the frames and not the meaning of their bits (log 116). Each
takes the live frame records by index. -/

/-- The configuration of a cell. -/
opaque Config.heathCell : List (Nat × List Byte) → Nat → HeathCell
/-- The configuration of a cluster. -/
opaque Config.heathCluster : List (Nat × List Byte) → Nat → HeathCluster
/-- The select of a routing wire's multiplexer (R116). The cluster input wires are numbered first, 48 to a cluster. -/
opaque Config.heathSelect : List (Nat × List Byte) → Nat → Nat
/-- The configuration of an embedded memory. -/
opaque Config.heathMemory : List (Nat × List Byte) → Nat → HeathMemory
/-- The source that a select value other than 0 names for a routing wire. -/
opaque Config.heathSource : Nat → Nat → HeathNet
/-- A carry step: carry out from the cell's two table outputs and the carry in. -/
opaque Config.heathCarry : Bool → Bool → Bool → Bool
/-- What hard block output `n` presents to the design at the `k`-th edge. -/
opaque Config.heathHard : Nat → Nat → Bool
/-- The level of global tree `i` where logic takes it as data, at the `k`-th edge (log 116). -/
opaque Config.heathTree : Nat → Nat → Bool
/-- The edges that source `n` of the trees gives in the tick that ends at time `t` (log 128). -/
opaque Config.sourceEdges : Nat → Nat → Nat
/-- The design asks pattern port `p` for its next word at the `k`-th edge (R177). -/
opaque Config.heathAsksPattern : Nat → Nat → Bool
/-- The level of a loop of logic that has none of its own. -/
opaque Config.heathLoop : HeathNet → Bool
/-- Where two sources may drive a pad, the Heath's claim wins over the pin's function (R610). -/
opaque Config.heathWinsPad : Nat → Bool
/-- The check bits of the embedded memories' code (R122). -/
opaque Config.heathCheck : BitVec 56 → BitVec 8

/-- What stands for the temperature near sentinel `i` where every sensor has failed, and for the voltage (R558, R560). -/
opaque Config.lostTemp : Nat → Int
/-- The voltage of such a sentinel. -/
opaque Config.lostVolt : Nat → Int
/-- The Heath's design claims pin `n`, as the logic frames say (R134, R610). -/
opaque Config.heathClaims : List (Nat × List Byte) → Nat → Bool
/-- What the design gives pin `n` at the `k`-th edge: a level, or nothing while its enable is 0 (R134). -/
opaque Config.heathPad : Nat → Nat → Option Bool

/-- Raold Link's four receive lanes all have block lock at a moment of ALIGN or RETRAIN (R511). -/
opaque Config.blockLock : Nat → Bool

/-! The test access port, whose codes, lengths and order the spec does not give (log 143). -/

/-- The bits of the instruction register. -/
opaque Config.tapWidth : Nat
/-- The instruction code that a shifted value is; the mandatory codes but BYPASS are the device's own. -/
opaque Config.tapCode : List Bool → Nat
/-- The threshold of a lane's test receiver above its least value, in mV (R629). -/
opaque Config.tapThreshold : Nat → Fin 101

end Sys2Proof
end

