-- ==== Sys2Proof/Machine/Table.lean ====
section
/-! DEFINITION. Sparse tables in one canonical form: keys rise in a numeric order, and no entry holds the value that an
unlisted key reads as. Registers, memory and every replicated unit are held so, and equal contents are equal data. -/

namespace Sys2Proof.Machine

/-- A sparse map held as pairs. -/
abbrev Tbl (κ β : Type) := List (κ × β)

/-- The value at key `k`, `d` where nothing is listed. -/
def tget {κ β : Type} [DecidableEq κ] (d : β) : Tbl κ β → κ → β
  | [], _ => d
  | (k', v) :: r, k => if k' = k then v else tget d r k

/-- The table without key `k`. -/
def tdel {κ β : Type} [DecidableEq κ] : Tbl κ β → κ → Tbl κ β
  | [], _ => []
  | (k', v) :: r, k => if k' = k then tdel r k else (k', v) :: tdel r k

/-- A pair put before the first key of higher order. -/
def tins {κ β : Type} (ord : κ → Nat) : Tbl κ β → κ → β → Tbl κ β
  | [], k, v => [(k, v)]
  | (k', v') :: r, k, v => if ord k < ord k' then (k, v) :: (k', v') :: r else (k', v') :: tins ord r k v

/-- The table with `v` at `k`; the value an unlisted key reads as removes the entry. -/
def tset {κ β : Type} [DecidableEq κ] [DecidableEq β] (ord : κ → Nat) (d : β) (t : Tbl κ β) (k : κ) (v : β) : Tbl κ β :=
  if v = d then tdel t k else tins ord (tdel t k) k v

/-- Every order of a key in the table lies above `n`. -/
def tabove {κ β : Type} (ord : κ → Nat) (n : Nat) : Tbl κ β → Bool
  | [] => true
  | (k, _) :: r => decide (n < ord k) && tabove ord n r

/-- The canonical form: keys strictly rise, and no entry holds its key's unlisted value. -/
def twf {κ β : Type} [DecidableEq β] (ord : κ → Nat) (d : κ → β) : Tbl κ β → Bool
  | [] => true
  | (k, v) :: r => decide (v ≠ d k) && tabove ord (ord k) r && twf ord d r

end Sys2Proof.Machine
end

