-- ==== Sys2Proof/Machine/RegMap.lean ====
section
/-! DEFINITION. The register map: every register the spec's tables name, its place, access code, Survives letters,
implemented bits, power-on value and reserved values (R40, R43 and the table of each chapter). -/

namespace Sys2Proof.Machine

/-- Page groups of R40; `hdr` is the common header (R43), `ldr` the context loader's registers (R356). -/
inductive Grp where
  | hdr | dev | evc | tile | lane | quad | mc | gal | gq | sch | flw | core | rtr | spb | gpio | hth | str | epo | hlt | sec | rlk | ctxw | ldr
  deriving DecidableEq, Repr

/-- Access codes of R10; `rw1` stands for RO/W. -/
inductive Acc where
  | ro | rw | wo | w1c | rc | row
  deriving DecidableEq, Repr

/-- The registers, by the manual's names. -/
inductive Reg where
  | BLK_ID
  | BLK_VER
  | BLK_STATUS
  | BLK_CTRL
  | EVT_STATUS
  | EVT_ENABLE
  | EVT_FORCE
  | FAULT_REC0
  | FAULT_REC1
  | FAULT_COUNT
  | LOOP_CTRL
  | PERF_SEL
  | PERF_CNT
  | DEV_PART
  | DEV_GRADE
  | DEV_MAP
  | PWR_CMD
  | PWR_STATUS
  | PWR_ON
  | PWR_DOM_STATUS
  | PWR_DRAIN_TIMEOUT
  | PWR_VWARN
  | PWR_WAKE_EN
  | PWR_RESET_CAUSE
  | PWR_WDT_CTRL
  | PWR_WDT_KICK
  | PWR_WDT_LEFT
  | PWR_CTRL
  | PWR_TB
  | PWR_FLOG_CNT
  | PWR_FLOG
  | EVC_PEND
  | EVC_NEXT
  | EVC_ROUTE
  | LANE_CFG
  | LANE_PCS
  | LANE_BOND
  | LANE_STATUS
  | LANE_ADAPT
  | LANE_EQ_IDX
  | LANE_EQ_DATA
  | LANE_TX_FIR
  | LANE_TX_CTRL
  | LANE_PRBS
  | LANE_PRBS_BITS
  | LANE_PRBS_ERR
  | LANE_CAL_STAMP
  | LANE_EYE_CTRL
  | LANE_EYE_RESULT
  | LANE_TS_OFFSET
  | LANE_ERR_THR
  | LANE_MARGIN_THR
  | LANE_CNT_CLR
  | LANE_CV_CNT
  | LANE_OVERRUN_CNT
  | LANE_TX_UNDERRUN
  | LANE_FEC_HIST
  | LANE_FEC_HSNAP
  | QUAD_PLL_CTRL
  | QUAD_PLL_RATE
  | QUAD_STATUS
  | QUAD_LOCK_LOSS
  | HTH_STATE
  | HTH_LOAD_CTRL
  | HTH_CMD
  | HTH_LOAD_ADDR
  | HTH_LOAD_LEN
  | HTH_GOLD_ADDR
  | HTH_GOLD_LEN
  | HTH_LOAD_PROG
  | HTH_RELEASE
  | HTH_SCRUB_INT
  | HTH_SCRUB_STATUS
  | HTH_SCRUB_FIXED
  | HTH_SCRUB_DIFF
  | HTH_SCRUB_LAST
  | HTH_DERATE
  | HTH_RUN_STATUS
  | HTH_RUN_CLR
  | HTH_CLK_CTRL
  | HTH_CAP_DELAY
  | HTH_DEC_ERR_CNT
  | HTH_PORT_CLK
  | HTH_HCAP_CLK
  | HTH_LANE_CLK
  | HTH_EVL
  | STR_CTRL
  | STR_CMD
  | STR_STATUS
  | STR_BUS_CTRL
  | STR_TRIG_IN
  | STR_STAMP_LOST
  | STR_STAMP_POP
  | STR_STAMP
  | STR_TRIG_STAMP
  | STR_QSET
  | STR_ES_CTRL
  | STR_CNT_CTRL
  | STR_CNT_CMP
  | STR_CNT_VAL
  | STR_STEP_C01
  | STR_STEP_C23
  | STR_STEP_LUT
  | STR_STEP_NEXT
  | STR_STEP_ACT
  | STR_STEP_DRIVE
  | STR_STEP_FAST
  | GQ_CTRL
  | GQ_BIND
  | GQ_BASE
  | GQ_GEOM
  | GQ_LEVEL
  | GQ_LOST
  | GQ_STATUS
  | GQ_RELPEND
  | GQ_WRITE
  | GQ_READ
  | GQ_MARK
  | GQ_FREE
  | GAL_TRUNC_CNT
  | GAL_MISMATCH_CNT
  | GAL_MISMATCH_A
  | GAL_MISMATCH_B
  | GAL_GRP_PEND
  | GAL_OP
  | GAL_OP_RES
  | GAL_OP_POS
  | GAL_OP_DATA
  | MC_CFG
  | MC_DIMM0
  | MC_DIMM1
  | MC_TIMING0
  | MC_TIMING1
  | MC_SHARE
  | MC_STATUS
  | MC_CMD
  | MC_TRACK_INT
  | MC_SCRUB_CTRL
  | MC_SCRUB_STATUS
  | MC_CE_CNT
  | MC_UE_CNT
  | MC_CAPAR_CNT
  | MC_CE_ADDR
  | MC_UE_ADDR
  | MC_ERR_INFO
  | MC_LOOP_PAT
  | MC_LOOP_STATUS
  | MC_TRAIN
  | TILE_CTRL
  | TILE_STATUS
  | TILE_REMAP_CTRL
  | TILE_REMAP_NEXT
  | TILE_REMAP_ACT
  | TILE_FIRE_CNT
  | TILE_INFLIGHT_HWM
  | TILE_MEM_CFG
  | TILE_CTX_CE_CNT
  | TILE_STRAY_CNT
  | TILE_EP_CFG
  | TILE_XP_CFG
  | TILE_XP_HELD
  | TILE_EP_ADMIT
  | TILE_CG_LIMIT
  | TILE_CG_COUNT
  | HALL_CTRL
  | HALL_HASH
  | HALL_SPILL_BASE
  | HALL_SPILL_SIZE
  | HALL_SPILL_THR
  | HALL_STALL_INT
  | HALL_STALL_EVICT
  | HALL_STATUS
  | HALL_CAUSE
  | HALL_SPILL_USED
  | HALL_ORPHAN_CNT
  | HALL_ORPHAN_DROP
  | HALL_DUP_CNT
  | HALL_SPILL_OUT
  | HALL_SPILL_HIT
  | HALL_SPILL_MISS
  | HALL_MATCH_CNT
  | HALL_STALL_CNT
  | HALL_ONCHIP_HWM
  | HALL_STALL_INFO
  | HALL_HELD_GRP
  | TILE_LDR_ADDR
  | TILE_LDR_LEN
  | TILE_LDR_CMD
  | TILE_LDR_STATUS
  | TILE_LDR_ERR0
  | TILE_LDR_ERR1
  | TILE_LDR_LIVE
  | CTX_WORD
  | SC_CTRL
  | SC_STATE
  | SC_IRQ_CTRL
  | SC_IRQ_PEND
  | SC_DBELL_SET
  | SC_OUT_DROP
  | SC_ECC_CE_CNT
  | SC_BK_DS_BASE
  | SC_BK_DS_LIMIT
  | SC_BK_DSP
  | SC_BK_RSP
  | SC_BK_DEPTH
  | SC_T_DEPTH
  | FLW_CTRL
  | FLW_CORES
  | FLW_LIMIT
  | FLW_STATUS
  | SCH_CORE_EN
  | SCH_TRACE_CTRL
  | SCH_STARVE_INT
  | SCH_STATUS
  | SCH_DISPATCH_CNT
  | SCH_STRAY_CNT
  | SCH_ABANDON_CNT
  | SCH_CANCEL_CNT
  | SCH_TRACE_DROP
  | SCH_STRAY_INFO
  | SCH_STARVE_FLOW
  | SCH_CLASS
  | SCH_LAND
  | SPB_OWNER
  | SPB_PWR
  | SPB_STATUS
  | SPB_TEST
  | SPB_TEST_STATUS
  | SPB_REPAIR
  | SPB_CE_CNT
  | SPB_UE_CNT
  | SPB_UE_ADDR
  | SPB_DMA_OFS
  | SPB_DMA_ADDR
  | SPB_DMA_LEN
  | SPB_DMA_CMD
  | SPB_DMA_STATUS
  | SPB_DMA_FAIL
  | EPO_CTRL
  | EPO_PERIOD
  | EPO_SLIP_LIMIT
  | EPO_RETRY_MAX
  | EPO_NUMBER
  | EPO_STATUS
  | EPO_SYNC_OFS
  | EPO_SLIP_CNT
  | EPO_SNAP_LATE_CNT
  | EPO_RECOVER_CNT
  | EPO_UNRECOV_CNT
  | EPO_RETRY_CNT
  | EPO_CROSS_CNT
  | EPO_COMMITTED
  | EPO_DOM_CTRL
  | EPO_DOM_CORES
  | EPO_DOM_INFO
  | EPO_TILE_DOM
  | EPO_UNDO_BASE
  | EPO_UNDO_SIZE
  | CRT_PORT_EN
  | CRT_NEXT_PORT_EN
  | CRT_VN_PART
  | CRT_NEXT_VN_PART
  | CRT_DETOUR
  | CRT_NEXT_DETOUR
  | CRT_CMD
  | CRT_STATUS
  | CRT_QUIESCE_TIMEOUT
  | CRT_RSP_TIMEOUT
  | CRT_DROP_POSTED
  | CRT_DROP_RSP
  | CRT_REFUSED_CNT
  | CRT_DOMOFF_CNT
  | CRT_HDR_ERR_CNT
  | CRT_ECC_CE_CNT
  | CRT_CAUSE
  | CRT_CAUSE_EN
  | RLK_CTRL
  | RLK_STATUS
  | RLK_TRAIN
  | RLK_CMD
  | RLK_CRC_ERR_CNT
  | RLK_REPLAY_CNT
  | RLK_HRESET_CNT
  | RLK_DROP_CNT
  | RLK_OUTSTANDING
  | RLK_LOOP_STATUS
  | RLK_CAUSE
  | RLK_CAUSE_EN
  | RLK_BS_CTRL
  | RLK_BS_STATUS
  | RLK_BS_GRANT
  | SEC_BOOT_STATUS
  | SEC_CMD
  | SEC_BOOT_ADDR
  | SEC_BOOT_LEN
  | SEC_FUSE_STATUS
  | SEC_DBG_STATUS
  | SEC_CMD_STATUS
  | SEC_DBG_CHAL
  | SEC_CMD_ADDR
  | SEC_CMD_LEN
  | SEC_LOG_COUNT
  | SEC_LOG_IDX
  | SEC_SERIAL
  | SEC_NONCE
  | SEC_QUOTE_DIGEST
  | SEC_QUOTE_SIG
  | SEC_ID_PUB
  | SEC_QUOTE_COUNT
  | SEC_LOG_ENTRY
  | SEC_CERT
  | HLT_CTRL
  | HLT_LEDGER_INT
  | HLT_AVS_ADDR
  | HLT_AVS_TARGET
  | HLT_AVS_MAX
  | HLT_AVS_SET
  | HLT_AVS_REQ
  | HLT_AVS_STATUS
  | HLT_WEAR_MAX
  | HLT_MARGIN
  | HLT_LEDGER_STATUS
  | HLT_TEMP_HIGH
  | HLT_TEMP_CRIT
  | HLT_TEMP_MAX
  | HLT_EXCURSIONS
  | HLT_EXC_LAST
  | HLT_TILE_BAD
  | HLT_HEATH_DLIM
  | HLT_TEMP
  | HLT_VMON
  | HLT_PMON
  | HLT_SENT
  | HLT_ROT_CTRL
  | HLT_ROT_SPARE
  | HLT_ROT_STATUS
  | HLT_BIST_DUTY
  | HLT_TILE_PHYS
  | HLT_GAP_STATUS
  | GPIO_OUT
  | GPIO_OUT_SET
  | GPIO_OUT_CLR
  | GPIO_OE
  | GPIO_IN
  | GPIO_EVT
  | GPIO_BANK
  | GPIO_PPS_STAMP
  | GPIO_PPS_CNT
  | GPIO_SMB_CTRL
  | GPIO_CFG
  deriving DecidableEq, Repr

/-- One register of the map. `off` is the offset from its group instance's base; element `j` of an array lies at
`off + j * stride`. `keep` holds the Survives letters in the order B E H W K C Q T, bit 0 first. Each entry of `resv`
is a field (bit, width) whose other values are reserved. -/
structure Desc where
  grp : Grp
  off : Nat
  cnt : Nat
  stride : Nat
  wide : Bool
  acc : Acc
  keep : Nat
  mask : DWord
  por : DWord
  resv : List (Nat × Nat × (Nat → Bool))

/-- The register tables of the chapters. `BLK_CTRL[31:8]`, which R44 calls block-specific and no chapter describes, is reserved
(DESIGN CHOICE, log 2). -/
def regDesc : Reg → Desc
  | .BLK_ID => ⟨.hdr, 0x000, 1, 0, false, .ro, 0xff, 0xFFFFFFFF, 0, []⟩
  | .BLK_VER => ⟨.hdr, 0x004, 1, 0, false, .ro, 0xff, 0xFFFFFFFF, 0, []⟩
  | .BLK_STATUS => ⟨.hdr, 0x008, 1, 0, false, .ro, 0x40, 0xFFFFFFFF, 0, []⟩
  | .BLK_CTRL => ⟨.hdr, 0x00C, 1, 0, false, .rw, 0xd0, 0xD, 0, [(2, 2, fun x => decide (x=0))]⟩
  | .EVT_STATUS => ⟨.hdr, 0x010, 1, 0, false, .w1c, 0x40, 0xFFFF, 0, []⟩
  | .EVT_ENABLE => ⟨.hdr, 0x014, 1, 0, false, .rw, 0xd0, 0xFFFF, 0, []⟩
  | .EVT_FORCE => ⟨.hdr, 0x018, 1, 0, false, .wo, 0x00, 0xFFFF, 0, []⟩
  | .FAULT_REC0 => ⟨.hdr, 0x020, 1, 0, false, .ro, 0xd0, 0xFFFFFFFF, 0, []⟩
  | .FAULT_REC1 => ⟨.hdr, 0x024, 1, 0, false, .ro, 0xd0, 0xFFFFFFFF, 0, []⟩
  | .FAULT_COUNT => ⟨.hdr, 0x028, 1, 0, false, .row, 0xd0, 0xFFFF, 0, []⟩
  | .LOOP_CTRL => ⟨.hdr, 0x02C, 1, 0, false, .rw, 0x40, 0x7, 0, []⟩
  | .PERF_SEL => ⟨.hdr, 0x030, 2, 8, false, .rw, 0x40, 0xFF, 0, [(0, 8, fun x => decide (x<5))]⟩
  | .PERF_CNT => ⟨.hdr, 0x034, 2, 8, false, .ro, 0x40, 0xFFFFFFFF, 0, []⟩
  | .DEV_PART => ⟨.dev, 0x040, 1, 0, false, .ro, 0xff, 0xFFFFFFFF, 0x3072, []⟩
  | .DEV_GRADE => ⟨.dev, 0x044, 1, 0, false, .ro, 0xff, 0xFF, 0x12, []⟩
  | .DEV_MAP => ⟨.dev, 0x048, 1, 0, false, .rw, 0xff, 0x1, 0, []⟩
  | .PWR_CMD => ⟨.dev, 0x080, 1, 0, false, .wo, 0x00, 0x7, 0, [(0, 3, fun x => decide (x<5))]⟩
  | .PWR_STATUS => ⟨.dev, 0x084, 1, 0, false, .ro, 0xf4, 0x17, 0, []⟩
  | .PWR_ON => ⟨.dev, 0x088, 1, 0, false, .wo, 0x00, 0xFFFFFF, 0, []⟩
  | .PWR_DOM_STATUS => ⟨.dev, 0x08C, 1, 0, false, .ro, 0xf4, 0xFFFFFF, 0xFFFFFF, []⟩
  | .PWR_DRAIN_TIMEOUT => ⟨.dev, 0x090, 1, 0, false, .rw, 0xf4, 0xFFFF, 20, [(0, 16, fun x => decide (x≠0))]⟩
  | .PWR_VWARN => ⟨.dev, 0x094, 1, 0, false, .rw, 0xff, 0x3FF, 640, [(0, 10, fun x => decide (600≤x∧x≤720∧x%5=0))]⟩
  | .PWR_WAKE_EN => ⟨.dev, 0x098, 1, 0, false, .rw, 0xff, 0x3, 1, []⟩
  | .PWR_RESET_CAUSE => ⟨.dev, 0x09C, 1, 0, false, .w1c, 0xff, 0x3F, 1, []⟩
  | .PWR_WDT_CTRL => ⟨.dev, 0x0A0, 1, 0, false, .rw, 0xf4, 0xFFFF0001, 0x03E80000, [(16, 16, fun x => decide (x≠0))]⟩
  | .PWR_WDT_KICK => ⟨.dev, 0x0A4, 1, 0, false, .wo, 0x00, 0xFFFFFFFF, 0, [(0, 32, fun x => decide (x=0x4B1C))]⟩
  | .PWR_WDT_LEFT => ⟨.dev, 0x0A8, 1, 0, false, .ro, 0xf4, 0xFFFF, 0, []⟩
  | .PWR_CTRL => ⟨.dev, 0x0AC, 1, 0, false, .rw, 0xff, 0x1, 1, []⟩
  | .PWR_TB => ⟨.dev, 0x0B0, 1, 0, true, .ro, 0xff, 0xFFFFFFFFFFFFFFFF, 0, []⟩
  | .PWR_FLOG_CNT => ⟨.dev, 0x0B8, 1, 0, false, .row, 0xff, 0xFF, 0, []⟩
  | .PWR_FLOG => ⟨.dev, 0x100, 16, 8, true, .ro, 0xff, 0xFFFFFFFFFFFFFFFF, 0, []⟩
  | .EVC_PEND => ⟨.evc, 0x0040, 12, 4, false, .ro, 0xe4, 0xFFFFFFFF, 0, []⟩
  | .EVC_NEXT => ⟨.evc, 0x0100, 128, 4, false, .ro, 0xe4, 0xFFFFFFFF, 0, []⟩
  | .EVC_ROUTE => ⟨.evc, 0x1040, 384, 4, false, .rw, 0xf4, 0x7FFF, 0x40, [(6, 2, fun x => decide (x≠0))]⟩
  | .LANE_CFG => ⟨.lane, 0x040, 1, 0, false, .rw, 0xe4, 0x77, 0x40, []⟩
  | .LANE_PCS => ⟨.lane, 0x044, 1, 0, false, .rw, 0xe4, 0xFF, 0, [(0, 4, fun x => decide (x<7)), (4, 4, fun x => decide (x<7))]⟩
  | .LANE_BOND => ⟨.lane, 0x048, 1, 0, false, .rw, 0xe4, 0x37, 0, [(4, 2, fun x => decide (x≠3))]⟩
  | .LANE_STATUS => ⟨.lane, 0x04C, 1, 0, false, .ro, 0x64, 0xFFFF00FF, 0, []⟩
  | .LANE_ADAPT => ⟨.lane, 0x050, 1, 0, false, .rw, 0xe4, 0x3, 0, [(0, 2, fun x => decide (x≠3))]⟩
  | .LANE_EQ_IDX => ⟨.lane, 0x054, 1, 0, false, .rw, 0x64, 0xFF, 0, [(0, 8, fun x => decide (x<26))]⟩
  | .LANE_EQ_DATA => ⟨.lane, 0x058, 1, 0, false, .rw, 0x64, 0xFF, 0, []⟩
  | .LANE_TX_FIR => ⟨.lane, 0x05C, 1, 0, false, .rw, 0xe4, 0x3FFFFFFF, 0x3F000, []⟩
  | .LANE_TX_CTRL => ⟨.lane, 0x060, 1, 0, false, .rw, 0xe4, 0xFFFF00F7, 0xF0, [(0, 3, fun x => decide (x<4)), (16, 16, fun x => decide (x≤10000∨55536≤x))]⟩
  | .LANE_PRBS => ⟨.lane, 0x064, 1, 0, false, .rw, 0xe4, 0x377, 0, [(0, 3, fun x => decide (x<6)), (4, 3, fun x => decide (x<6))]⟩
  | .LANE_PRBS_BITS => ⟨.lane, 0x068, 1, 0, true, .ro, 0x64, 0xFFFFFFFFFFFFFFFF, 0, []⟩
  | .LANE_PRBS_ERR => ⟨.lane, 0x070, 1, 0, true, .ro, 0x64, 0xFFFFFFFFFFFFFFFF, 0, []⟩
  | .LANE_CAL_STAMP => ⟨.lane, 0x078, 1, 0, true, .ro, 0x64, 0xFFFFFFFFFFFFFFFF, 0, []⟩
  | .LANE_EYE_CTRL => ⟨.lane, 0x080, 1, 0, false, .rw, 0x64, 0x3FFF7F, 0, [(0, 7, fun x => decide (x≤31∨96≤x)), (8, 8, fun x => decide (x≠128)), (20, 2, fun x => decide (x≠3))]⟩
  | .LANE_EYE_RESULT => ⟨.lane, 0x084, 1, 0, false, .ro, 0x64, 0xC0FFFFFF, 0, []⟩
  | .LANE_TS_OFFSET => ⟨.lane, 0x088, 1, 0, false, .rw, 0xe4, 0xFFFFFFFF, 0, []⟩
  | .LANE_ERR_THR => ⟨.lane, 0x08C, 1, 0, false, .rw, 0xe4, 0xFFFF, 1, []⟩
  | .LANE_MARGIN_THR => ⟨.lane, 0x090, 1, 0, false, .rw, 0xe4, 0xFF, 0, []⟩
  | .LANE_CNT_CLR => ⟨.lane, 0x094, 1, 0, false, .wo, 0x00, 0x1, 0, []⟩
  | .LANE_CV_CNT => ⟨.lane, 0x098, 1, 0, true, .ro, 0x64, 0xFFFFFFFFFFFFFFFF, 0, []⟩
  | .LANE_OVERRUN_CNT => ⟨.lane, 0x0A0, 1, 0, true, .ro, 0x64, 0xFFFFFFFFFFFFFFFF, 0, []⟩
  | .LANE_TX_UNDERRUN => ⟨.lane, 0x0A8, 1, 0, true, .ro, 0x64, 0xFFFFFFFFFFFFFFFF, 0, []⟩
  | .LANE_FEC_HIST => ⟨.lane, 0x100, 17, 8, true, .ro, 0x64, 0xFFFFFFFFFFFFFFFF, 0, []⟩
  | .LANE_FEC_HSNAP => ⟨.lane, 0x200, 17, 8, true, .ro, 0x64, 0xFFFFFFFFFFFFFFFF, 0, []⟩
  | .QUAD_PLL_CTRL => ⟨.quad, 0x040, 1, 0, false, .rw, 0xf4, 0x1F, 4, [(2, 2, fun x => decide (x≠3))]⟩
  | .QUAD_PLL_RATE => ⟨.quad, 0x044, 1, 0, false, .rw, 0xf4, 0x3FFFFFF, 0x00A50000, []⟩
  | .QUAD_STATUS => ⟨.quad, 0x048, 1, 0, false, .ro, 0x64, 0xFFFFFF01, 0, []⟩
  | .QUAD_LOCK_LOSS => ⟨.quad, 0x04C, 1, 0, false, .ro, 0x64, 0xFFFFFFFF, 0, []⟩
  | .HTH_STATE => ⟨.hth, 0x040, 1, 0, false, .ro, 0x74, 0xF, 0, []⟩
  | .HTH_LOAD_CTRL => ⟨.hth, 0x044, 1, 0, false, .rw, 0xf4, 0xFF07, 0x1007, []⟩
  | .HTH_CMD => ⟨.hth, 0x048, 1, 0, false, .wo, 0x00, 0x7, 0, []⟩
  | .HTH_LOAD_ADDR => ⟨.hth, 0x050, 1, 0, true, .rw, 0xf4, 0xFFFFFFFFFF00, 0, []⟩
  | .HTH_LOAD_LEN => ⟨.hth, 0x058, 1, 0, false, .rw, 0xf4, 0xFFFFFFFF, 0, []⟩
  | .HTH_GOLD_ADDR => ⟨.hth, 0x060, 1, 0, true, .ro, 0xf4, 0xFFFFFFFFFFFFFFFF, 0, []⟩
  | .HTH_GOLD_LEN => ⟨.hth, 0x068, 1, 0, false, .ro, 0xf4, 0xFFFFFFFF, 0, []⟩
  | .HTH_LOAD_PROG => ⟨.hth, 0x06C, 1, 0, false, .ro, 0x64, 0xFFFF, 0, []⟩
  | .HTH_RELEASE => ⟨.hth, 0x070, 1, 0, false, .ro, 0x64, 0x7, 0, []⟩
  | .HTH_SCRUB_INT => ⟨.hth, 0x074, 1, 0, false, .rw, 0xf4, 0xFFFF, 20, [(0, 16, fun x => decide (x≠0))]⟩
  | .HTH_SCRUB_STATUS => ⟨.hth, 0x078, 1, 0, false, .ro, 0x64, 0xFFFFFFFF, 0, []⟩
  | .HTH_SCRUB_FIXED => ⟨.hth, 0x07C, 1, 0, false, .ro, 0x64, 0xFFFFFFFF, 0, []⟩
  | .HTH_SCRUB_DIFF => ⟨.hth, 0x080, 1, 0, false, .ro, 0x64, 0xFFFFFFFF, 0, []⟩
  | .HTH_SCRUB_LAST => ⟨.hth, 0x084, 1, 0, false, .ro, 0x64, 0xE000FFFF, 0, []⟩
  | .HTH_DERATE => ⟨.hth, 0x088, 1, 0, false, .ro, 0x64, 0xFF, 0, []⟩
  | .HTH_RUN_STATUS => ⟨.hth, 0x08C, 1, 0, false, .ro, 0x64, 0x1FF, 0, []⟩
  | .HTH_RUN_CLR => ⟨.hth, 0x090, 1, 0, false, .wo, 0x00, 0x1, 0, []⟩
  | .HTH_CLK_CTRL => ⟨.hth, 0x100, 8, 4, false, .rw, 0xf4, 0xFF, 0, []⟩
  | .HTH_CAP_DELAY => ⟨.hth, 0x140, 24, 4, false, .rw, 0xf4, 0x7F, 16, []⟩
  | .HTH_DEC_ERR_CNT => ⟨.hth, 0x1A0, 24, 4, false, .ro, 0x64, 0xFFFFFFFF, 0, []⟩
  | .HTH_PORT_CLK => ⟨.hth, 0x1040, 64, 4, false, .rw, 0xf4, 0x77, 0, []⟩
  | .HTH_HCAP_CLK => ⟨.hth, 0x1140, 8, 4, false, .rw, 0xf4, 0x7, 0, []⟩
  | .HTH_LANE_CLK => ⟨.hth, 0x1180, 24, 4, false, .rw, 0xf4, 0x7, 0, []⟩
  | .HTH_EVL => ⟨.hth, 0x2040, 8, 4, false, .ro, 0x64, 0xFFFFFFFF, 0, []⟩
  | .STR_CTRL => ⟨.str, 0x040, 1, 0, false, .rw, 0xe4, 0x3F, 0, []⟩
  | .STR_CMD => ⟨.str, 0x044, 1, 0, false, .wo, 0x00, 0x3, 0, [(0, 2, fun x => decide (x≠3))]⟩
  | .STR_STATUS => ⟨.str, 0x048, 1, 0, false, .ro, 0x64, 0x13F01, 0, []⟩
  | .STR_BUS_CTRL => ⟨.str, 0x04C, 1, 0, false, .rw, 0xe4, 0xFFFF, 0, []⟩
  | .STR_TRIG_IN => ⟨.str, 0x050, 1, 0, false, .ro, 0x64, 0xFFFFFFFF, 0, []⟩
  | .STR_STAMP_LOST => ⟨.str, 0x054, 1, 0, false, .ro, 0x64, 0xFFFFFFFF, 0, []⟩
  | .STR_STAMP_POP => ⟨.str, 0x058, 1, 0, false, .wo, 0x00, 0, 0, []⟩
  | .STR_STAMP => ⟨.str, 0x060, 4, 4, false, .ro, 0x64, 0xFFFFFFFF, 0, []⟩
  | .STR_TRIG_STAMP => ⟨.str, 0x070, 1, 0, true, .ro, 0x64, 0xFFFFFFFFFFFFFFFF, 0, []⟩
  | .STR_QSET => ⟨.str, 0x080, 16, 4, false, .rw, 0xe4, 0x03FF03FF, 0, []⟩
  | .STR_ES_CTRL => ⟨.str, 0x0C0, 8, 4, false, .rw, 0xe4, 0xFF, 0, [(1, 2, fun x => decide (x≠3))]⟩
  | .STR_CNT_CTRL => ⟨.str, 0x100, 16, 16, false, .rw, 0xe4, 0x17FF, 0, []⟩
  | .STR_CNT_CMP => ⟨.str, 0x104, 16, 16, false, .rw, 0xe4, 0xFFFFFFFF, 0xFFFFFFFF, []⟩
  | .STR_CNT_VAL => ⟨.str, 0x108, 16, 16, false, .ro, 0x64, 0xFFFFFFFF, 0, []⟩
  | .STR_STEP_C01 => ⟨.str, 0x1040, 64, 32, false, .rw, 0xe4, 0x0FFF0FFF, 0, []⟩
  | .STR_STEP_C23 => ⟨.str, 0x1044, 64, 32, false, .rw, 0xe4, 0x0FFF0FFF, 0, []⟩
  | .STR_STEP_LUT => ⟨.str, 0x1048, 64, 32, false, .rw, 0xe4, 0xFFFFFFFF, 0, []⟩
  | .STR_STEP_NEXT => ⟨.str, 0x104C, 64, 32, false, .rw, 0xe4, 0x13F3F, 0, []⟩
  | .STR_STEP_ACT => ⟨.str, 0x1050, 64, 32, false, .rw, 0xe4, 0xFFFFFFFF, 0, []⟩
  | .STR_STEP_DRIVE => ⟨.str, 0x1054, 64, 32, false, .rw, 0xe4, 0xFFFFFFFF, 0, []⟩
  | .STR_STEP_FAST => ⟨.str, 0x1058, 64, 32, false, .rw, 0xe4, 0xFFFF, 0, []⟩
  | .GQ_CTRL => ⟨.gq, 0x00, 1, 0, false, .rw, 0xf4, 0x77FF, 0x6000, []⟩
  | .GQ_BIND => ⟨.gq, 0x04, 1, 0, false, .rw, 0xf4, 0x0FFFFFFF, 0, []⟩
  | .GQ_BASE => ⟨.gq, 0x08, 1, 0, false, .rw, 0xf4, 0xFFFFFFFF, 0, []⟩
  | .GQ_GEOM => ⟨.gq, 0x0C, 1, 0, false, .rw, 0xf4, 0x1F3F3F, 0, []⟩
  | .GQ_LEVEL => ⟨.gq, 0x10, 1, 0, false, .rw, 0xf4, 0xFFFFFFFF, 0, []⟩
  | .GQ_LOST => ⟨.gq, 0x14, 1, 0, false, .rc, 0xe4, 0xFFFFFFFF, 0, []⟩
  | .GQ_STATUS => ⟨.gq, 0x18, 1, 0, false, .w1c, 0x64, 0xFF, 0, []⟩
  | .GQ_RELPEND => ⟨.gq, 0x1C, 1, 0, false, .ro, 0xe4, 0xFFFFFFFF, 0, []⟩
  | .GQ_WRITE => ⟨.gq, 0x20, 1, 0, true, .ro, 0xe4, 0xFFFFFFFFFFFFFFFF, 0, []⟩
  | .GQ_READ => ⟨.gq, 0x28, 1, 0, true, .ro, 0xe4, 0xFFFFFFFFFFFFFFFF, 0, []⟩
  | .GQ_MARK => ⟨.gq, 0x30, 1, 0, true, .ro, 0xe4, 0xFFFFFFFFFFFFFFFF, 0, []⟩
  | .GQ_FREE => ⟨.gq, 0x38, 1, 0, true, .ro, 0xe4, 0xFFFFFFFFFFFFFFFF, 0, []⟩
  | .GAL_TRUNC_CNT => ⟨.gal, 0x040, 1, 0, false, .ro, 0x64, 0xFFFFFFFF, 0, []⟩
  | .GAL_MISMATCH_CNT => ⟨.gal, 0x044, 1, 0, false, .ro, 0x64, 0xFFFFFFFF, 0, []⟩
  | .GAL_MISMATCH_A => ⟨.gal, 0x048, 1, 0, true, .ro, 0x64, 0xFFFFFFFFFFFFFFFF, 0, []⟩
  | .GAL_MISMATCH_B => ⟨.gal, 0x050, 1, 0, true, .ro, 0x64, 0xFFFFFFFFFFFFFFFF, 0, []⟩
  | .GAL_GRP_PEND => ⟨.gal, 0x100, 16, 8, true, .ro, 0x64, 0xFFFFFFFFFFFFFFFF, 0, []⟩
  | .GAL_OP => ⟨.gal, 0x1040, 8, 64, true, .wo, 0x00, 0x03FF0F3FFFFFFFFF, 0, []⟩
  | .GAL_OP_RES => ⟨.gal, 0x1048, 8, 64, false, .ro, 0x64, 0xF, 0, []⟩
  | .GAL_OP_POS => ⟨.gal, 0x1050, 8, 64, true, .ro, 0x64, 0xFFFFFFFFFFFFFFFF, 0, []⟩
  | .GAL_OP_DATA => ⟨.gal, 0x1060, 120, 4, false, .ro, 0x64, 0xFFFFFFFF, 0, []⟩
  | .MC_CFG => ⟨.mc, 0x040, 1, 0, false, .rw, 0xff, 0x1FF, 0x1C0, [(0, 3, fun x => decide (x≠7)), (4, 2, fun x => decide (x≠3))]⟩
  | .MC_DIMM0 => ⟨.mc, 0x044, 1, 0, false, .rw, 0xff, 0x3FF, 0, []⟩
  | .MC_DIMM1 => ⟨.mc, 0x048, 1, 0, false, .rw, 0xff, 0x3FF, 0, []⟩
  | .MC_TIMING0 => ⟨.mc, 0x04C, 1, 0, false, .rw, 0xff, 0xFFFFFF, 0, []⟩
  | .MC_TIMING1 => ⟨.mc, 0x050, 1, 0, false, .rw, 0xff, 0x3FFFFFFF, 0, []⟩
  | .MC_SHARE => ⟨.mc, 0x054, 1, 0, false, .rw, 0xff, 0xFFFF, 0x10E1, []⟩
  | .MC_STATUS => ⟨.mc, 0x058, 1, 0, false, .ro, 0xff, 0x1FF3F, 0, []⟩
  | .MC_CMD => ⟨.mc, 0x05C, 1, 0, false, .wo, 0x00, 0xF, 0, []⟩
  | .MC_TRACK_INT => ⟨.mc, 0x060, 1, 0, false, .ro, 0xff, 0xFFFF, 1000, []⟩
  | .MC_SCRUB_CTRL => ⟨.mc, 0x064, 1, 0, false, .rw, 0xff, 0xFF01, 0x1801, [(8, 8, fun x => decide (x≠0))]⟩
  | .MC_SCRUB_STATUS => ⟨.mc, 0x068, 1, 0, false, .ro, 0x74, 0xFFFFFFFF, 0, []⟩
  | .MC_CE_CNT => ⟨.mc, 0x06C, 1, 0, false, .rc, 0x74, 0xFFFFFFFF, 0, []⟩
  | .MC_UE_CNT => ⟨.mc, 0x070, 1, 0, false, .rc, 0x74, 0xFFFFFFFF, 0, []⟩
  | .MC_CAPAR_CNT => ⟨.mc, 0x074, 1, 0, false, .rc, 0x74, 0xFFFFFFFF, 0, []⟩
  | .MC_CE_ADDR => ⟨.mc, 0x078, 1, 0, true, .ro, 0x74, 0xFFFFFFFFFFFFFFFF, 0, []⟩
  | .MC_UE_ADDR => ⟨.mc, 0x080, 1, 0, true, .ro, 0x74, 0xFFFFFFFFFFFFFFFF, 0, []⟩
  | .MC_ERR_INFO => ⟨.mc, 0x088, 1, 0, false, .ro, 0x74, 0x10F1F, 0, []⟩
  | .MC_LOOP_PAT => ⟨.mc, 0x08C, 1, 0, false, .rw, 0xf4, 0x3, 0, [(0, 2, fun x => decide (x≠3))]⟩
  | .MC_LOOP_STATUS => ⟨.mc, 0x090, 1, 0, false, .ro, 0x74, 0xFFFFFF03, 0, []⟩
  | .MC_TRAIN => ⟨.mc, 0x100, 72, 4, false, .ro, 0xff, 0x1FFFFFF, 0, []⟩
  | .TILE_CTRL => ⟨.tile, 0x040, 1, 0, false, .rw, 0xf4, 0x1, 0, []⟩
  | .TILE_STATUS => ⟨.tile, 0x044, 1, 0, false, .ro, 0x64, 0x3FF0003, 0, []⟩
  | .TILE_REMAP_CTRL => ⟨.tile, 0x048, 1, 0, false, .rw, 0x74, 0x1, 0, []⟩
  | .TILE_REMAP_NEXT => ⟨.tile, 0x050, 1, 0, true, .rw, 0xf4, 0xFFFFFFFFFFFFFFFF, 0xFEDCBA9876543210, []⟩
  | .TILE_REMAP_ACT => ⟨.tile, 0x058, 1, 0, true, .ro, 0xf4, 0xFFFFFFFFFFFFFFFF, 0xFEDCBA9876543210, []⟩
  | .TILE_FIRE_CNT => ⟨.tile, 0x060, 1, 0, true, .ro, 0x64, 0xFFFFFFFFFFFFFFFF, 0, []⟩
  | .TILE_INFLIGHT_HWM => ⟨.tile, 0x068, 1, 0, false, .rc, 0x64, 0x3FF, 0, []⟩
  | .TILE_MEM_CFG => ⟨.tile, 0x06C, 1, 0, false, .rw, 0xf4, 0x7F, 64, [(0, 7, fun x => decide (1≤x∧x≤64))]⟩
  | .TILE_CTX_CE_CNT => ⟨.tile, 0x070, 1, 0, false, .ro, 0x64, 0xFFFFFFFF, 0, []⟩
  | .TILE_STRAY_CNT => ⟨.tile, 0x074, 1, 0, false, .ro, 0x64, 0xFFFFFFFF, 0, []⟩
  | .TILE_EP_CFG => ⟨.tile, 0x100, 4, 16, false, .rw, 0xf4, 0x3FFF07, 0, [(8, 6, fun x => decide (x<48)), (20, 2, fun x => decide (x≠3))]⟩
  | .TILE_XP_CFG => ⟨.tile, 0x104, 4, 16, false, .rw, 0xf4, 0x3, 0, []⟩
  | .TILE_XP_HELD => ⟨.tile, 0x108, 4, 16, false, .ro, 0x64, 0x3FF, 0, []⟩
  | .TILE_EP_ADMIT => ⟨.tile, 0x10C, 4, 16, false, .ro, 0x64, 0xFFFFFFFF, 0, []⟩
  | .TILE_CG_LIMIT => ⟨.tile, 0x140, 4, 8, false, .rw, 0xf4, 0xFFFFFF, 2048, []⟩
  | .TILE_CG_COUNT => ⟨.tile, 0x144, 4, 8, false, .ro, 0x64, 0xFFFFFFFF, 0, []⟩
  | .HALL_CTRL => ⟨.tile, 0x200, 1, 0, false, .rw, 0xf4, 0xFFFF, 0x7202, [(0, 8, fun x => decide (x≠0)), (10, 2, fun x => decide (x<2))]⟩
  | .HALL_HASH => ⟨.tile, 0x204, 1, 0, false, .rw, 0xf4, 0x1FF, 0, []⟩
  | .HALL_SPILL_BASE => ⟨.tile, 0x208, 1, 0, false, .rw, 0xf4, 0xFFFFFFFF, 0, []⟩
  | .HALL_SPILL_SIZE => ⟨.tile, 0x20C, 1, 0, false, .rw, 0xf4, 0x1F, 22, [(0, 5, fun x => decide (22≤x∧x≤28))]⟩
  | .HALL_SPILL_THR => ⟨.tile, 0x210, 1, 0, false, .rw, 0xf4, 0x1FFFFFF, 0, []⟩
  | .HALL_STALL_INT => ⟨.tile, 0x214, 1, 0, false, .rw, 0xf4, 0xFFFF, 100, []⟩
  | .HALL_STALL_EVICT => ⟨.tile, 0x218, 1, 0, false, .rw, 0xf4, 0xFFF, 64, [(0, 12, fun x => decide (1≤x∧x≤2048))]⟩
  | .HALL_STATUS => ⟨.tile, 0x21C, 1, 0, false, .ro, 0x64, 0xF70FFF, 0, []⟩
  | .HALL_CAUSE => ⟨.tile, 0x220, 1, 0, false, .w1c, 0x64, 0xF, 0, []⟩
  | .HALL_SPILL_USED => ⟨.tile, 0x224, 1, 0, false, .ro, 0x64, 0x1FFFFFF, 0, []⟩
  | .HALL_ORPHAN_CNT => ⟨.tile, 0x228, 1, 0, false, .ro, 0x64, 0xFFFFFFFF, 0, []⟩
  | .HALL_ORPHAN_DROP => ⟨.tile, 0x22C, 1, 0, false, .ro, 0x64, 0xFFFFFFFF, 0, []⟩
  | .HALL_DUP_CNT => ⟨.tile, 0x230, 1, 0, false, .ro, 0x64, 0xFFFFFFFF, 0, []⟩
  | .HALL_SPILL_OUT => ⟨.tile, 0x234, 1, 0, false, .ro, 0x64, 0xFFFFFFFF, 0, []⟩
  | .HALL_SPILL_HIT => ⟨.tile, 0x238, 1, 0, false, .ro, 0x64, 0xFFFFFFFF, 0, []⟩
  | .HALL_SPILL_MISS => ⟨.tile, 0x23C, 1, 0, false, .ro, 0x64, 0xFFFFFFFF, 0, []⟩
  | .HALL_MATCH_CNT => ⟨.tile, 0x240, 1, 0, true, .ro, 0x64, 0xFFFFFFFFFFFFFFFF, 0, []⟩
  | .HALL_STALL_CNT => ⟨.tile, 0x248, 1, 0, false, .ro, 0x64, 0xFFFFFFFF, 0, []⟩
  | .HALL_ONCHIP_HWM => ⟨.tile, 0x24C, 1, 0, false, .rc, 0x64, 0xFFF, 0, []⟩
  | .HALL_STALL_INFO => ⟨.tile, 0x250, 1, 0, false, .ro, 0x64, 0x3F03, 0, []⟩
  | .HALL_HELD_GRP => ⟨.tile, 0x258, 1, 0, true, .ro, 0x64, 0xFFFFFFFFFFFFFFFF, 0, []⟩
  | .TILE_LDR_ADDR => ⟨.ldr, 0x040, 1, 0, true, .rw, 0xf4, 0xFFFFFFFFFF00, 0, []⟩
  | .TILE_LDR_LEN => ⟨.ldr, 0x048, 1, 0, false, .rw, 0xf4, 0xFFFFFFFF, 0, []⟩
  | .TILE_LDR_CMD => ⟨.ldr, 0x04C, 1, 0, false, .wo, 0x00, 0x3, 0, []⟩
  | .TILE_LDR_STATUS => ⟨.ldr, 0x050, 1, 0, false, .ro, 0x74, 0xFFFFFF07, 0, []⟩
  | .TILE_LDR_ERR0 => ⟨.ldr, 0x054, 1, 0, false, .ro, 0x74, 0xFFFFFFFF, 0, []⟩
  | .TILE_LDR_ERR1 => ⟨.ldr, 0x058, 1, 0, false, .ro, 0x74, 0xFFFFFFFF, 0, []⟩
  | .TILE_LDR_LIVE => ⟨.ldr, 0x05C, 1, 0, false, .ro, 0x74, 0xFFFF, 0, []⟩
  | .CTX_WORD => ⟨.ctxw, 0x0, 4096, 4, false, .ro, 0x74, 0xFFFFFFFF, 0, []⟩
  | .SC_CTRL => ⟨.core, 0x040, 1, 0, false, .rw, 0x64, 0x1, 0, []⟩
  | .SC_STATE => ⟨.core, 0x044, 1, 0, false, .ro, 0x44, 0xFFFF0073, 0, []⟩
  | .SC_IRQ_CTRL => ⟨.core, 0x048, 1, 0, false, .rw, 0xe4, 0xE, 0, []⟩
  | .SC_IRQ_PEND => ⟨.core, 0x04C, 1, 0, false, .ro, 0x64, 0xE, 0, []⟩
  | .SC_DBELL_SET => ⟨.core, 0x050, 1, 0, false, .wo, 0x00, 0x1, 0, []⟩
  | .SC_OUT_DROP => ⟨.core, 0x054, 1, 0, false, .ro, 0x64, 0xFFFFFFFF, 0, []⟩
  | .SC_ECC_CE_CNT => ⟨.core, 0x058, 1, 0, false, .ro, 0x64, 0xFFFFFFFF, 0, []⟩
  | .SC_BK_DS_BASE => ⟨.core, 0x100, 4, 32, false, .rw, 0x44, 0xFFFFFFFF, 0, []⟩
  | .SC_BK_DS_LIMIT => ⟨.core, 0x104, 4, 32, false, .rw, 0x44, 0xFFFFFFFF, 0, []⟩
  | .SC_BK_DSP => ⟨.core, 0x108, 4, 32, false, .rw, 0x44, 0xFFFFFFFC, 0, []⟩
  | .SC_BK_RSP => ⟨.core, 0x10C, 4, 32, false, .rw, 0x44, 0xFFFFFFFC, 0, []⟩
  | .SC_BK_DEPTH => ⟨.core, 0x110, 4, 32, false, .ro, 0x44, 0xF1F, 0, []⟩
  | .SC_T_DEPTH => ⟨.core, 0x180, 1, 0, false, .ro, 0x44, 0xF0F, 0, []⟩
  | .FLW_CTRL => ⟨.flw, 0x0, 1, 0, false, .rw, 0xf4, 0x1FFFFFFF, 0x10000000, [(10, 8, fun x => decide (x≤200))]⟩
  | .FLW_CORES => ⟨.flw, 0x4, 1, 0, false, .rw, 0xf4, 0xFFFFFFFF, 0, []⟩
  | .FLW_LIMIT => ⟨.flw, 0x8, 1, 0, false, .rw, 0xf4, 0x7F, 64, [(0, 7, fun x => decide (1≤x∧x≤64))]⟩
  | .FLW_STATUS => ⟨.flw, 0xC, 1, 0, false, .ro, 0x64, 0xFFFF7F7F, 0, []⟩
  | .SCH_CORE_EN => ⟨.sch, 0x040, 1, 0, false, .rw, 0xf4, 0xFFFFFFFF, 0, []⟩
  | .SCH_TRACE_CTRL => ⟨.sch, 0x044, 1, 0, false, .rw, 0xf4, 0x101FF, 0, []⟩
  | .SCH_STARVE_INT => ⟨.sch, 0x048, 1, 0, false, .rw, 0xf4, 0xFFFF, 100, []⟩
  | .SCH_STATUS => ⟨.sch, 0x04C, 1, 0, false, .ro, 0x64, 0xFFFF, 0, []⟩
  | .SCH_DISPATCH_CNT => ⟨.sch, 0x050, 1, 0, true, .ro, 0x64, 0xFFFFFFFFFFFFFFFF, 0, []⟩
  | .SCH_STRAY_CNT => ⟨.sch, 0x058, 1, 0, false, .ro, 0x64, 0xFFFFFFFF, 0, []⟩
  | .SCH_ABANDON_CNT => ⟨.sch, 0x05C, 1, 0, false, .ro, 0x64, 0xFFFFFFFF, 0, []⟩
  | .SCH_CANCEL_CNT => ⟨.sch, 0x060, 1, 0, false, .ro, 0x64, 0xFFFFFFFF, 0, []⟩
  | .SCH_TRACE_DROP => ⟨.sch, 0x064, 1, 0, false, .ro, 0x64, 0xFFFFFFFF, 0, []⟩
  | .SCH_STRAY_INFO => ⟨.sch, 0x068, 1, 0, false, .ro, 0x64, 0x803FFFFF, 0, []⟩
  | .SCH_STARVE_FLOW => ⟨.sch, 0x06C, 1, 0, false, .rc, 0x64, 0x80000FFF, 0, []⟩
  | .SCH_CLASS => ⟨.sch, 0x100, 64, 4, false, .rw, 0xf4, 0xF, 0, []⟩
  | .SCH_LAND => ⟨.sch, 0x200, 32, 4, false, .ro, 0x64, 0x0FFFFFFF, 0, []⟩
  | .SPB_OWNER => ⟨.spb, 0x00, 1, 0, false, .rw, 0xf4, 0x13F07, 4, []⟩
  | .SPB_PWR => ⟨.spb, 0x04, 1, 0, false, .rw, 0xf4, 0x33, 0x20, []⟩
  | .SPB_STATUS => ⟨.spb, 0x08, 1, 0, false, .ro, 0x74, 0xF1F, 0, []⟩
  | .SPB_TEST => ⟨.spb, 0x0C, 1, 0, false, .rw, 0xf4, 0xFF01, 0xA01, [(8, 8, fun x => decide (x≠0))]⟩
  | .SPB_TEST_STATUS => ⟨.spb, 0x10, 1, 0, false, .ro, 0x74, 0xFFFF00FF, 0, []⟩
  | .SPB_REPAIR => ⟨.spb, 0x14, 1, 0, false, .ro, 0xff, 0xFFFFFFFF, 0, []⟩
  | .SPB_CE_CNT => ⟨.spb, 0x18, 1, 0, false, .ro, 0x64, 0xFFFFFFFF, 0, []⟩
  | .SPB_UE_CNT => ⟨.spb, 0x1C, 1, 0, false, .ro, 0x64, 0xFFFFFFFF, 0, []⟩
  | .SPB_UE_ADDR => ⟨.spb, 0x20, 1, 0, false, .ro, 0x64, 0x3FFFF, 0, []⟩
  | .SPB_DMA_OFS => ⟨.spb, 0x24, 1, 0, false, .rw, 0xf4, 0x3FFF0, 0, []⟩
  | .SPB_DMA_ADDR => ⟨.spb, 0x28, 1, 0, true, .rw, 0xf4, 0xFFFFFFFFFFF0, 0, []⟩
  | .SPB_DMA_LEN => ⟨.spb, 0x30, 1, 0, false, .rw, 0xf4, 0x7FFFF, 0, []⟩
  | .SPB_DMA_CMD => ⟨.spb, 0x34, 1, 0, false, .wo, 0x00, 0x7, 0, []⟩
  | .SPB_DMA_STATUS => ⟨.spb, 0x38, 1, 0, false, .ro, 0x64, 0xF3, 0, []⟩
  | .SPB_DMA_FAIL => ⟨.spb, 0x40, 1, 0, true, .ro, 0x64, 0xFFFFFFFFFFFFFFFF, 0, []⟩
  | .EPO_CTRL => ⟨.epo, 0x040, 1, 0, false, .rw, 0xf4, 0x7, 0, []⟩
  | .EPO_PERIOD => ⟨.epo, 0x044, 1, 0, false, .rw, 0xf4, 0xFFFFFF, 100000, [(0, 24, fun x => decide (1000≤x∧x≤10000000))]⟩
  | .EPO_SLIP_LIMIT => ⟨.epo, 0x048, 1, 0, false, .rw, 0xf4, 0xFF, 3, [(0, 8, fun x => decide (x≠0))]⟩
  | .EPO_RETRY_MAX => ⟨.epo, 0x04C, 1, 0, false, .rw, 0xf4, 0xF, 3, []⟩
  | .EPO_NUMBER => ⟨.epo, 0x050, 1, 0, true, .ro, 0xe4, 0xFFFFFFFFFFFFFFFF, 0, []⟩
  | .EPO_STATUS => ⟨.epo, 0x058, 1, 0, false, .ro, 0xe4, 0xFF3FFF, 0, []⟩
  | .EPO_SYNC_OFS => ⟨.epo, 0x05C, 1, 0, false, .ro, 0xe4, 0xFFFFFFFF, 0, []⟩
  | .EPO_SLIP_CNT => ⟨.epo, 0x060, 1, 0, false, .ro, 0xe4, 0xFFFFFFFF, 0, []⟩
  | .EPO_SNAP_LATE_CNT => ⟨.epo, 0x064, 1, 0, false, .ro, 0xe4, 0xFFFFFFFF, 0, []⟩
  | .EPO_RECOVER_CNT => ⟨.epo, 0x068, 1, 0, false, .ro, 0xe4, 0xFFFFFFFF, 0, []⟩
  | .EPO_UNRECOV_CNT => ⟨.epo, 0x06C, 1, 0, false, .ro, 0xe4, 0xFFFFFFFF, 0, []⟩
  | .EPO_RETRY_CNT => ⟨.epo, 0x070, 1, 0, false, .ro, 0xe4, 0xFFFFFFFF, 0, []⟩
  | .EPO_CROSS_CNT => ⟨.epo, 0x074, 1, 0, false, .ro, 0xe4, 0xFFFFFFFF, 0, []⟩
  | .EPO_COMMITTED => ⟨.epo, 0x080, 4, 8, true, .ro, 0x64, 0xFFFFFFFFFFFFFFFF, 0xFFFFFFFFFFFFFFFF, []⟩
  | .EPO_DOM_CTRL => ⟨.epo, 0x0A0, 4, 4, false, .rw, 0xf4, 0x1, 1, []⟩
  | .EPO_DOM_CORES => ⟨.epo, 0x0B0, 4, 4, false, .rw, 0xf4, 0xFFFFFFFF, 0, []⟩
  | .EPO_DOM_INFO => ⟨.epo, 0x0C0, 4, 4, false, .ro, 0xe4, 0xFFFFFF3F, 0, []⟩
  | .EPO_TILE_DOM => ⟨.epo, 0x0D0, 3, 4, false, .rw, 0xf4, 0xFFFFFFFF, 0, []⟩
  | .EPO_UNDO_BASE => ⟨.epo, 0x0E0, 1, 0, false, .rw, 0xf4, 0xFFFFFFFF, 0, []⟩
  | .EPO_UNDO_SIZE => ⟨.epo, 0x0E4, 1, 0, false, .rw, 0xf4, 0x1F, 20, [(0, 5, fun x => decide (16≤x∧x≤24))]⟩
  | .CRT_PORT_EN => ⟨.rtr, 0x040, 1, 0, false, .ro, 0xf4, 0xFF0F, 0, []⟩
  | .CRT_NEXT_PORT_EN => ⟨.rtr, 0x044, 1, 0, false, .rw, 0xf4, 0xFF0F, 0, []⟩
  | .CRT_VN_PART => ⟨.rtr, 0x048, 1, 0, false, .ro, 0xf4, 0xFFFF, 0x6486, []⟩
  | .CRT_NEXT_VN_PART => ⟨.rtr, 0x04C, 1, 0, false, .rw, 0xf4, 0xFFFF, 0x6486, [(0, 4, fun x => decide (2≤x)), (4, 4, fun x => decide (2≤x)), (8, 4, fun x => decide (2≤x)), (12, 4, fun x => decide (2≤x))]⟩
  | .CRT_DETOUR => ⟨.rtr, 0x050, 1, 0, true, .ro, 0xf4, 0xFFFFFFFFFFFFFFFF, 0, []⟩
  | .CRT_NEXT_DETOUR => ⟨.rtr, 0x058, 1, 0, true, .rw, 0xf4, 0xFFFFFFFFFFFFFFFF, 0, []⟩
  | .CRT_CMD => ⟨.rtr, 0x060, 1, 0, false, .wo, 0x00, 0x1, 0, []⟩
  | .CRT_STATUS => ⟨.rtr, 0x064, 1, 0, false, .ro, 0x64, 0xFFFF0003, 0, []⟩
  | .CRT_QUIESCE_TIMEOUT => ⟨.rtr, 0x068, 1, 0, false, .rw, 0xf4, 0xFFFF, 50, [(0, 16, fun x => decide (x≠0))]⟩
  | .CRT_RSP_TIMEOUT => ⟨.rtr, 0x06C, 1, 0, false, .rw, 0xf4, 0xFFFF, 100, []⟩
  | .CRT_DROP_POSTED => ⟨.rtr, 0x070, 1, 0, false, .ro, 0x64, 0xFFFFFFFF, 0, []⟩
  | .CRT_DROP_RSP => ⟨.rtr, 0x074, 1, 0, false, .ro, 0x64, 0xFFFFFFFF, 0, []⟩
  | .CRT_REFUSED_CNT => ⟨.rtr, 0x078, 1, 0, false, .ro, 0x64, 0xFFFFFFFF, 0, []⟩
  | .CRT_DOMOFF_CNT => ⟨.rtr, 0x07C, 1, 0, false, .ro, 0x64, 0xFFFFFFFF, 0, []⟩
  | .CRT_HDR_ERR_CNT => ⟨.rtr, 0x080, 1, 0, false, .ro, 0x64, 0xFFFFFFFF, 0, []⟩
  | .CRT_ECC_CE_CNT => ⟨.rtr, 0x084, 1, 0, false, .ro, 0x64, 0xFFFFFFFF, 0, []⟩
  | .CRT_CAUSE => ⟨.rtr, 0x088, 1, 0, false, .w1c, 0x64, 0x7F, 0, []⟩
  | .CRT_CAUSE_EN => ⟨.rtr, 0x08C, 1, 0, false, .rw, 0xf4, 0x7F, 0x7D, []⟩
  | .RLK_CTRL => ⟨.rlk, 0x040, 1, 0, false, .rw, 0xf0, 0xF01, 0x401, [(8, 4, fun x => decide (x≠0))]⟩
  | .RLK_STATUS => ⟨.rlk, 0x044, 1, 0, false, .ro, 0xe0, 0x7, 1, []⟩
  | .RLK_TRAIN => ⟨.rlk, 0x048, 1, 0, false, .ro, 0xf4, 0xFF1F, 0, []⟩
  | .RLK_CMD => ⟨.rlk, 0x04C, 1, 0, false, .wo, 0x00, 0x3, 0, []⟩
  | .RLK_CRC_ERR_CNT => ⟨.rlk, 0x050, 1, 0, false, .ro, 0xe0, 0xFFFFFFFF, 0, []⟩
  | .RLK_REPLAY_CNT => ⟨.rlk, 0x054, 1, 0, false, .ro, 0xe0, 0xFFFFFFFF, 0, []⟩
  | .RLK_HRESET_CNT => ⟨.rlk, 0x058, 1, 0, false, .ro, 0xf4, 0xFFFFFFFF, 0, []⟩
  | .RLK_DROP_CNT => ⟨.rlk, 0x05C, 1, 0, false, .ro, 0xe0, 0xFFFFFFFF, 0, []⟩
  | .RLK_OUTSTANDING => ⟨.rlk, 0x060, 1, 0, false, .ro, 0xe0, 0x1FF, 0, []⟩
  | .RLK_LOOP_STATUS => ⟨.rlk, 0x064, 1, 0, false, .ro, 0xe0, 0xFFFF0003, 0, []⟩
  | .RLK_CAUSE => ⟨.rlk, 0x068, 1, 0, false, .w1c, 0xe0, 0x1F, 0, []⟩
  | .RLK_CAUSE_EN => ⟨.rlk, 0x06C, 1, 0, false, .rw, 0xf0, 0x1F, 0x1F, []⟩
  | .RLK_BS_CTRL => ⟨.rlk, 0x100, 16, 16, false, .rw, 0xf4, 0x1, 0, []⟩
  | .RLK_BS_STATUS => ⟨.rlk, 0x104, 16, 16, false, .ro, 0xe0, 0x3, 0, []⟩
  | .RLK_BS_GRANT => ⟨.rlk, 0x108, 16, 16, true, .ro, 0xe0, 0xFFFFFFFFFFFF, 0, []⟩
  | .SEC_BOOT_STATUS => ⟨.sec, 0x040, 1, 0, false, .ro, 0xf4, 0x7F7F7F1F, 0, []⟩
  | .SEC_CMD => ⟨.sec, 0x044, 1, 0, false, .wo, 0x00, 0x7F0F, 0, []⟩
  | .SEC_BOOT_ADDR => ⟨.sec, 0x048, 1, 0, true, .rw, 0xf4, 0xFFFFFFFFFF00, 0, []⟩
  | .SEC_BOOT_LEN => ⟨.sec, 0x050, 1, 0, false, .rw, 0xf4, 0xFFFFFFFF, 0, []⟩
  | .SEC_FUSE_STATUS => ⟨.sec, 0x054, 1, 0, false, .ro, 0xff, 0xFFFF07FF, 0, []⟩
  | .SEC_DBG_STATUS => ⟨.sec, 0x058, 1, 0, false, .ro, 0xf4, 0x73, 0, []⟩
  | .SEC_CMD_STATUS => ⟨.sec, 0x05C, 1, 0, false, .ro, 0xf4, 0xFFFFFFFF, 0, []⟩
  | .SEC_DBG_CHAL => ⟨.sec, 0x060, 8, 4, false, .ro, 0xf4, 0xFFFFFFFF, 0, []⟩
  | .SEC_CMD_ADDR => ⟨.sec, 0x080, 1, 0, true, .rw, 0xf4, 0xFFFFFFFFFF00, 0, []⟩
  | .SEC_CMD_LEN => ⟨.sec, 0x088, 1, 0, false, .rw, 0xf4, 0xFFFFFFFF, 0, []⟩
  | .SEC_LOG_COUNT => ⟨.sec, 0x08C, 1, 0, false, .ro, 0xf4, 0x1FF, 0, []⟩
  | .SEC_LOG_IDX => ⟨.sec, 0x090, 1, 0, false, .rw, 0xf4, 0xFF, 0, []⟩
  | .SEC_SERIAL => ⟨.sec, 0x098, 1, 0, true, .ro, 0xff, 0xFFFFFFFFFFFFFFFF, 0, []⟩
  | .SEC_NONCE => ⟨.sec, 0x0A0, 8, 4, false, .rw, 0xf4, 0xFFFFFFFF, 0, []⟩
  | .SEC_QUOTE_DIGEST => ⟨.sec, 0x0C0, 16, 4, false, .ro, 0xf4, 0xFFFFFFFF, 0, []⟩
  | .SEC_QUOTE_SIG => ⟨.sec, 0x100, 16, 4, false, .ro, 0xf4, 0xFFFFFFFF, 0, []⟩
  | .SEC_ID_PUB => ⟨.sec, 0x140, 8, 4, false, .ro, 0xff, 0xFFFFFFFF, 0, []⟩
  | .SEC_QUOTE_COUNT => ⟨.sec, 0x160, 1, 0, false, .ro, 0xf4, 0x1FF, 0, []⟩
  | .SEC_LOG_ENTRY => ⟨.sec, 0x1040, 24, 4, false, .ro, 0xf4, 0xFFFFFFFF, 0, []⟩
  | .SEC_CERT => ⟨.sec, 0x1200, 128, 4, false, .ro, 0xf4, 0xFFFFFFFF, 0, []⟩
  | .HLT_CTRL => ⟨.hlt, 0x040, 1, 0, false, .rw, 0xf4, 0xF, 0xB, []⟩
  | .HLT_LEDGER_INT => ⟨.hlt, 0x044, 1, 0, false, .rw, 0xf4, 0xFFF, 60, [(0, 12, fun x => decide (1≤x∧x≤3600))]⟩
  | .HLT_AVS_ADDR => ⟨.hlt, 0x048, 1, 0, false, .rw, 0xf4, 0x3FF7F, 0x3FF40, []⟩
  | .HLT_AVS_TARGET => ⟨.hlt, 0x04C, 1, 0, false, .rw, 0xf4, 0xFFF, 1700, [(0, 12, fun x => decide (800≤x∧x≤1700))]⟩
  | .HLT_AVS_MAX => ⟨.hlt, 0x050, 1, 0, false, .rw, 0xf4, 0x3FF, 850, [(0, 10, fun x => decide (650≤x∧x≤850∧x%5=0))]⟩
  | .HLT_AVS_SET => ⟨.hlt, 0x054, 1, 0, false, .ro, 0xff, 0x3FF, 0, []⟩
  | .HLT_AVS_REQ => ⟨.hlt, 0x058, 1, 0, false, .ro, 0xff, 0x7FF, 0, []⟩
  | .HLT_AVS_STATUS => ⟨.hlt, 0x05C, 1, 0, false, .ro, 0xf4, 0x3FF0003, 0, []⟩
  | .HLT_WEAR_MAX => ⟨.hlt, 0x060, 1, 0, false, .ro, 0xff, 0x7FFFFF, 0, []⟩
  | .HLT_MARGIN => ⟨.hlt, 0x064, 5, 4, false, .ro, 0xff, 0xFFFF, 0, []⟩
  | .HLT_LEDGER_STATUS => ⟨.hlt, 0x078, 1, 0, false, .ro, 0xff, 0x1FFFF, 0, []⟩
  | .HLT_TEMP_HIGH => ⟨.hlt, 0x07C, 1, 0, false, .rw, 0xf4, 0xFF, 100, []⟩
  | .HLT_TEMP_CRIT => ⟨.hlt, 0x080, 1, 0, false, .rw, 0xf4, 0xFF, 110, []⟩
  | .HLT_TEMP_MAX => ⟨.hlt, 0x084, 1, 0, false, .ro, 0xff, 0x1FFF, 0, []⟩
  | .HLT_EXCURSIONS => ⟨.hlt, 0x088, 1, 0, false, .ro, 0xff, 0xFFFFFFFF, 0, []⟩
  | .HLT_EXC_LAST => ⟨.hlt, 0x08C, 1, 0, false, .ro, 0xff, 0xFFFFF3FF, 0, []⟩
  | .HLT_TILE_BAD => ⟨.hlt, 0x090, 1, 0, true, .ro, 0xff, 0xFFFFFFFFFFFFFFFF, 0, []⟩
  | .HLT_HEATH_DLIM => ⟨.hlt, 0x098, 1, 0, false, .rw, 0xf4, 0xFF, 40, []⟩
  | .HLT_TEMP => ⟨.hlt, 0x1040, 32, 4, false, .ro, 0xf4, 0x8FFF, 0, []⟩
  | .HLT_VMON => ⟨.hlt, 0x10C0, 24, 4, false, .ro, 0xf4, 0xBFFF, 0, []⟩
  | .HLT_PMON => ⟨.hlt, 0x2040, 16, 4, false, .ro, 0xf4, 0xFFFF, 0, []⟩
  | .HLT_SENT => ⟨.hlt, 0x2080, 96, 4, false, .ro, 0xff, 0xFFFFFFFF, 0, []⟩
  | .HLT_ROT_CTRL => ⟨.hlt, 0x3040, 1, 0, false, .rw, 0xf4, 0xFFFF01, 0x3E800, [(8, 16, fun x => decide (x≠0))]⟩
  | .HLT_ROT_SPARE => ⟨.hlt, 0x3044, 1, 0, false, .rw, 0xf4, 0xFFFFFFFF, 0, []⟩
  | .HLT_ROT_STATUS => ⟨.hlt, 0x3048, 1, 0, false, .ro, 0xf4, 0xFFFF3F07, 0, []⟩
  | .HLT_BIST_DUTY => ⟨.hlt, 0x304C, 1, 0, false, .rw, 0xf4, 0x7F, 25, [(0, 7, fun x => decide (1≤x∧x≤100))]⟩
  | .HLT_TILE_PHYS => ⟨.hlt, 0x3050, 12, 4, false, .ro, 0x74, 0x3F3F3F3F, 0, []⟩
  | .HLT_GAP_STATUS => ⟨.hlt, 0x3080, 1, 0, false, .ro, 0xf4, 0xFFFFFFFF, 0, []⟩
  | .GPIO_OUT => ⟨.gpio, 0x040, 3, 4, false, .rw, 0xf4, 0xFFFFFFFF, 0, []⟩
  | .GPIO_OUT_SET => ⟨.gpio, 0x050, 3, 4, false, .wo, 0x00, 0xFFFFFFFF, 0, []⟩
  | .GPIO_OUT_CLR => ⟨.gpio, 0x060, 3, 4, false, .wo, 0x00, 0xFFFFFFFF, 0, []⟩
  | .GPIO_OE => ⟨.gpio, 0x070, 3, 4, false, .rw, 0xf4, 0xFFFFFFFF, 0, []⟩
  | .GPIO_IN => ⟨.gpio, 0x080, 3, 4, false, .ro, 0xff, 0xFFFFFFFF, 0, []⟩
  | .GPIO_EVT => ⟨.gpio, 0x090, 3, 4, false, .w1c, 0xe4, 0xFFFFFFFF, 0, []⟩
  | .GPIO_BANK => ⟨.gpio, 0x0A0, 4, 4, false, .rw, 0xff, 0x1, 0, []⟩
  | .GPIO_PPS_STAMP => ⟨.gpio, 0x0B0, 1, 0, true, .ro, 0xe4, 0xFFFFFFFFFFFFFFFF, 0, []⟩
  | .GPIO_PPS_CNT => ⟨.gpio, 0x0B8, 1, 0, false, .ro, 0xe4, 0xFFFFFFFF, 0, []⟩
  | .GPIO_SMB_CTRL => ⟨.gpio, 0x0BC, 1, 0, false, .rw, 0xff, 0x7F, 0x4C, [(0, 7, fun x => decide (8≤x∧x<0x78))]⟩
  | .GPIO_CFG => ⟨.gpio, 0x1040, 96, 4, false, .rw, 0xf4, 0x1F73F7F, 0x600, [(10, 2, fun x => decide (x≠3))]⟩

/-- The registers of each group, in address order. -/
def regsOf : Grp → List Reg
  | .hdr => [.BLK_ID, .BLK_VER, .BLK_STATUS, .BLK_CTRL, .EVT_STATUS, .EVT_ENABLE, .EVT_FORCE, .FAULT_REC0, .FAULT_REC1, .FAULT_COUNT, .LOOP_CTRL, .PERF_SEL, .PERF_CNT]
  | .dev => [.DEV_PART, .DEV_GRADE, .DEV_MAP, .PWR_CMD, .PWR_STATUS, .PWR_ON, .PWR_DOM_STATUS, .PWR_DRAIN_TIMEOUT, .PWR_VWARN, .PWR_WAKE_EN, .PWR_RESET_CAUSE, .PWR_WDT_CTRL, .PWR_WDT_KICK, .PWR_WDT_LEFT, .PWR_CTRL, .PWR_TB, .PWR_FLOG_CNT, .PWR_FLOG]
  | .evc => [.EVC_PEND, .EVC_NEXT, .EVC_ROUTE]
  | .tile => [.TILE_CTRL, .TILE_STATUS, .TILE_REMAP_CTRL, .TILE_REMAP_NEXT, .TILE_REMAP_ACT, .TILE_FIRE_CNT, .TILE_INFLIGHT_HWM, .TILE_MEM_CFG, .TILE_CTX_CE_CNT, .TILE_STRAY_CNT, .TILE_EP_CFG, .TILE_XP_CFG, .TILE_XP_HELD, .TILE_EP_ADMIT, .TILE_CG_LIMIT, .TILE_CG_COUNT, .HALL_CTRL, .HALL_HASH, .HALL_SPILL_BASE, .HALL_SPILL_SIZE, .HALL_SPILL_THR, .HALL_STALL_INT, .HALL_STALL_EVICT, .HALL_STATUS] ++
    [.HALL_CAUSE, .HALL_SPILL_USED, .HALL_ORPHAN_CNT, .HALL_ORPHAN_DROP, .HALL_DUP_CNT, .HALL_SPILL_OUT, .HALL_SPILL_HIT, .HALL_SPILL_MISS, .HALL_MATCH_CNT, .HALL_STALL_CNT, .HALL_ONCHIP_HWM, .HALL_STALL_INFO, .HALL_HELD_GRP]
  | .lane => [.LANE_CFG, .LANE_PCS, .LANE_BOND, .LANE_STATUS, .LANE_ADAPT, .LANE_EQ_IDX, .LANE_EQ_DATA, .LANE_TX_FIR, .LANE_TX_CTRL, .LANE_PRBS, .LANE_PRBS_BITS, .LANE_PRBS_ERR, .LANE_CAL_STAMP, .LANE_EYE_CTRL, .LANE_EYE_RESULT, .LANE_TS_OFFSET, .LANE_ERR_THR, .LANE_MARGIN_THR, .LANE_CNT_CLR, .LANE_CV_CNT, .LANE_OVERRUN_CNT, .LANE_TX_UNDERRUN, .LANE_FEC_HIST, .LANE_FEC_HSNAP]
  | .quad => [.QUAD_PLL_CTRL, .QUAD_PLL_RATE, .QUAD_STATUS, .QUAD_LOCK_LOSS]
  | .mc => [.MC_CFG, .MC_DIMM0, .MC_DIMM1, .MC_TIMING0, .MC_TIMING1, .MC_SHARE, .MC_STATUS, .MC_CMD, .MC_TRACK_INT, .MC_SCRUB_CTRL, .MC_SCRUB_STATUS, .MC_CE_CNT, .MC_UE_CNT, .MC_CAPAR_CNT, .MC_CE_ADDR, .MC_UE_ADDR, .MC_ERR_INFO, .MC_LOOP_PAT, .MC_LOOP_STATUS, .MC_TRAIN]
  | .gal => [.GAL_TRUNC_CNT, .GAL_MISMATCH_CNT, .GAL_MISMATCH_A, .GAL_MISMATCH_B, .GAL_GRP_PEND, .GAL_OP, .GAL_OP_RES, .GAL_OP_POS, .GAL_OP_DATA]
  | .gq => [.GQ_CTRL, .GQ_BIND, .GQ_BASE, .GQ_GEOM, .GQ_LEVEL, .GQ_LOST, .GQ_STATUS, .GQ_RELPEND, .GQ_WRITE, .GQ_READ, .GQ_MARK, .GQ_FREE]
  | .sch => [.SCH_CORE_EN, .SCH_TRACE_CTRL, .SCH_STARVE_INT, .SCH_STATUS, .SCH_DISPATCH_CNT, .SCH_STRAY_CNT, .SCH_ABANDON_CNT, .SCH_CANCEL_CNT, .SCH_TRACE_DROP, .SCH_STRAY_INFO, .SCH_STARVE_FLOW, .SCH_CLASS, .SCH_LAND]
  | .flw => [.FLW_CTRL, .FLW_CORES, .FLW_LIMIT, .FLW_STATUS]
  | .core => [.SC_CTRL, .SC_STATE, .SC_IRQ_CTRL, .SC_IRQ_PEND, .SC_DBELL_SET, .SC_OUT_DROP, .SC_ECC_CE_CNT, .SC_BK_DS_BASE, .SC_BK_DS_LIMIT, .SC_BK_DSP, .SC_BK_RSP, .SC_BK_DEPTH, .SC_T_DEPTH]
  | .rtr => [.CRT_PORT_EN, .CRT_NEXT_PORT_EN, .CRT_VN_PART, .CRT_NEXT_VN_PART, .CRT_DETOUR, .CRT_NEXT_DETOUR, .CRT_CMD, .CRT_STATUS, .CRT_QUIESCE_TIMEOUT, .CRT_RSP_TIMEOUT, .CRT_DROP_POSTED, .CRT_DROP_RSP, .CRT_REFUSED_CNT, .CRT_DOMOFF_CNT, .CRT_HDR_ERR_CNT, .CRT_ECC_CE_CNT, .CRT_CAUSE, .CRT_CAUSE_EN]
  | .spb => [.SPB_OWNER, .SPB_PWR, .SPB_STATUS, .SPB_TEST, .SPB_TEST_STATUS, .SPB_REPAIR, .SPB_CE_CNT, .SPB_UE_CNT, .SPB_UE_ADDR, .SPB_DMA_OFS, .SPB_DMA_ADDR, .SPB_DMA_LEN, .SPB_DMA_CMD, .SPB_DMA_STATUS, .SPB_DMA_FAIL]
  | .gpio => [.GPIO_OUT, .GPIO_OUT_SET, .GPIO_OUT_CLR, .GPIO_OE, .GPIO_IN, .GPIO_EVT, .GPIO_BANK, .GPIO_PPS_STAMP, .GPIO_PPS_CNT, .GPIO_SMB_CTRL, .GPIO_CFG]
  | .hth => [.HTH_STATE, .HTH_LOAD_CTRL, .HTH_CMD, .HTH_LOAD_ADDR, .HTH_LOAD_LEN, .HTH_GOLD_ADDR, .HTH_GOLD_LEN, .HTH_LOAD_PROG, .HTH_RELEASE, .HTH_SCRUB_INT, .HTH_SCRUB_STATUS, .HTH_SCRUB_FIXED, .HTH_SCRUB_DIFF, .HTH_SCRUB_LAST, .HTH_DERATE, .HTH_RUN_STATUS, .HTH_RUN_CLR, .HTH_CLK_CTRL, .HTH_CAP_DELAY, .HTH_DEC_ERR_CNT, .HTH_PORT_CLK, .HTH_HCAP_CLK, .HTH_LANE_CLK, .HTH_EVL]
  | .str => [.STR_CTRL, .STR_CMD, .STR_STATUS, .STR_BUS_CTRL, .STR_TRIG_IN, .STR_STAMP_LOST, .STR_STAMP_POP, .STR_STAMP, .STR_TRIG_STAMP, .STR_QSET, .STR_ES_CTRL, .STR_CNT_CTRL, .STR_CNT_CMP, .STR_CNT_VAL, .STR_STEP_C01, .STR_STEP_C23, .STR_STEP_LUT, .STR_STEP_NEXT, .STR_STEP_ACT, .STR_STEP_DRIVE, .STR_STEP_FAST]
  | .epo => [.EPO_CTRL, .EPO_PERIOD, .EPO_SLIP_LIMIT, .EPO_RETRY_MAX, .EPO_NUMBER, .EPO_STATUS, .EPO_SYNC_OFS, .EPO_SLIP_CNT, .EPO_SNAP_LATE_CNT, .EPO_RECOVER_CNT, .EPO_UNRECOV_CNT, .EPO_RETRY_CNT, .EPO_CROSS_CNT, .EPO_COMMITTED, .EPO_DOM_CTRL, .EPO_DOM_CORES, .EPO_DOM_INFO, .EPO_TILE_DOM, .EPO_UNDO_BASE, .EPO_UNDO_SIZE]
  | .hlt => [.HLT_CTRL, .HLT_LEDGER_INT, .HLT_AVS_ADDR, .HLT_AVS_TARGET, .HLT_AVS_MAX, .HLT_AVS_SET, .HLT_AVS_REQ, .HLT_AVS_STATUS, .HLT_WEAR_MAX, .HLT_MARGIN, .HLT_LEDGER_STATUS, .HLT_TEMP_HIGH, .HLT_TEMP_CRIT, .HLT_TEMP_MAX, .HLT_EXCURSIONS, .HLT_EXC_LAST, .HLT_TILE_BAD, .HLT_HEATH_DLIM, .HLT_TEMP, .HLT_VMON, .HLT_PMON, .HLT_SENT, .HLT_ROT_CTRL, .HLT_ROT_SPARE] ++
    [.HLT_ROT_STATUS, .HLT_BIST_DUTY, .HLT_TILE_PHYS, .HLT_GAP_STATUS]
  | .sec => [.SEC_BOOT_STATUS, .SEC_CMD, .SEC_BOOT_ADDR, .SEC_BOOT_LEN, .SEC_FUSE_STATUS, .SEC_DBG_STATUS, .SEC_CMD_STATUS, .SEC_DBG_CHAL, .SEC_CMD_ADDR, .SEC_CMD_LEN, .SEC_LOG_COUNT, .SEC_LOG_IDX, .SEC_SERIAL, .SEC_NONCE, .SEC_QUOTE_DIGEST, .SEC_QUOTE_SIG, .SEC_ID_PUB, .SEC_QUOTE_COUNT, .SEC_LOG_ENTRY, .SEC_CERT]
  | .rlk => [.RLK_CTRL, .RLK_STATUS, .RLK_TRAIN, .RLK_CMD, .RLK_CRC_ERR_CNT, .RLK_REPLAY_CNT, .RLK_HRESET_CNT, .RLK_DROP_CNT, .RLK_OUTSTANDING, .RLK_LOOP_STATUS, .RLK_CAUSE, .RLK_CAUSE_EN, .RLK_BS_CTRL, .RLK_BS_STATUS, .RLK_BS_GRANT]
  | .ctxw => [.CTX_WORD]
  | .ldr => [.TILE_LDR_ADDR, .TILE_LDR_LEN, .TILE_LDR_CMD, .TILE_LDR_STATUS, .TILE_LDR_ERR0, .TILE_LDR_ERR1, .TILE_LDR_LIVE]

/-- A group's base offset in register space, the stride of its instances and their number (R40). -/
def grpPlace : Grp → Nat × Nat × Nat
  | .hdr => (0x0, 0x0, 0)
  | .dev => (0x0, 0x4000, 1)
  | .evc => (0x10000, 0x2000, 1)
  | .tile => (0x100000, 0x1000, 48)
  | .lane => (0x200000, 0x1000, 24)
  | .quad => (0x280000, 0x1000, 6)
  | .mc => (0x300000, 0x1000, 8)
  | .gal => (0x400000, 0x4000, 1)
  | .gq => (0x410000, 0x40, 1024)
  | .sch => (0x500000, 0x2000, 1)
  | .flw => (0x510000, 0x10, 4096)
  | .core => (0x600000, 0x1000, 32)
  | .rtr => (0x700000, 0x1000, 64)
  | .spb => (0x800000, 0x100, 64)
  | .gpio => (0x900000, 0x2000, 1)
  | .hth => (0xa00000, 0x4000, 1)
  | .str => (0xb00000, 0x2000, 1)
  | .epo => (0xc00000, 0x1000, 1)
  | .hlt => (0xd00000, 0x4000, 1)
  | .sec => (0xe00000, 0x2000, 1)
  | .rlk => (0xf00000, 0x1000, 1)
  | .ctxw => (0x1000000, 0x10000, 48)
  | .ldr => (0x1000, 0x0, 1)

end Sys2Proof.Machine
end

