-- ==== Sys2Proof/Machine/Units.lean ====
section
/-! DEFINITION. What each unit of the block holds beside its registers: FIFOs, buffers, engines and modes, chapter by
chapter. Plain data; every default is the value after reset P. -/

namespace Sys2Proof.Machine

/-- How an access was answered (R496). -/
inductive Status where
  | ok | addressError | domainOff | poison | routeRefused | denied | timeout
  /-- no response came, and none will: the requester has no time-out (R498); no packet carries it -/
  | noAnswer
  deriving DecidableEq, Repr

/-- The code of a status in a packet's STATUS field (R496). -/
def Status.code : Status → Nat
  | .ok => 0 | .addressError => 1 | .domainOff => 2 | .poison => 3 | .routeRefused => 4 | .denied => 5 | .timeout | .noAnswer => 6

/-- The answer to the last access: its status and, for a read, the bytes. -/
structure Rsp where
  status : Status := .ok
  data : List Byte := []
  deriving DecidableEq, Repr

/-- A place in the register map: register, instance, array element. -/
structure RegKey where
  reg : Reg
  inst : Nat
  idx : Nat
  deriving DecidableEq, Repr

/-- The order in which the register table is kept. -/
def RegKey.ord (k : RegKey) : Nat := pairNat (pairNat k.reg.ctorIdx k.inst) k.idx

/-- The state of a power domain and of its boundary ports (R504, R579, R580). -/
inductive DomState where
  | on | draining | off | powering
  deriving DecidableEq, Repr

/-- A host event message held because the link is down: stamp and epoch of the latest rise or re-arm (R68). -/
structure HeldEvent where
  stamp : DWord := 0
  epoch : DWord := 0
  deriving DecidableEq, Repr

/-- An EVENT transaction queued for the host (R528). -/
structure EventMsg where
  source : Nat
  stamp : DWord
  epoch : DWord
  deriving DecidableEq, Repr

/-! Lanes and quads (chapter 03). -/

/-- The quad PLL (R75): off, locking within its 1 ms, trying without a further time-out, locked. -/
inductive Pll where
  | off | locking | retrying | locked
  deriving DecidableEq, Repr

/-- The state machine of a bonding group (R96). -/
inductive BondState where
  | idle | search | aligned | mismatch
  deriving DecidableEq, Repr

/-- Line bits of one word's time as they came in, before FEC (R98). -/
structure RxPart where
  line : Nat
  stamp : DWord
  eidle : Bool
  deriving DecidableEq, Repr

/-- A lane word as the receive PCS makes it: payload and sideband word B (R98, R100), violations (R92), and the symbol errors
of each codeword that ends in it, `none` for an uncorrectable one. -/
structure RxWord where
  data : BitVec 512
  sbB : Word
  stamp : DWord
  eidle : Bool
  cv : Nat := 0
  codewords : List (Option Nat) := []
  deriving DecidableEq, Repr

/-- The receive PCS of a lane (R90): running disparity, the last 58 line bits of its blocks, the state of the per-lane
descrambler, line bits of a codeword under way, words decoded and not yet delivered, and whether words were lost since the
last one. -/
structure PcsRx where
  rd : Bool := false
  hist : BitVec 58 := 0
  lfsr : BitVec 23 := 0
  parts : List RxPart := []
  out : List RxWord := []
  missed : Bool := false
  deriving DecidableEq, Repr

/-- The PRBS checker of a lane (R89): the last bits received or, in synchronisation, of the sequence expected; the bits in a
row that agreed; the ones in a row, and the stamp of the first of them. -/
structure Checker where
  hist : BitVec 31 := 0
  good : Nat := 0
  ones : Nat := 0
  since : DWord := 0
  deriving DecidableEq, Repr

/-- `n` bits of a line, the first lowest. -/
structure LineBits where
  n : Nat := 0
  x : Nat := 0
  deriving DecidableEq, Repr

/-- The transmit PCS and PRBS generator of a lane (R87, R88, R90): running disparity, scrambler states, the generator's last
bits once it has started, words of a codeword under way, and line bits that wait for their slot. -/
structure PcsTx where
  rd : Bool := false
  hist : BitVec 58 := 0
  lfsr : BitVec 23 := 0
  gen : Option (BitVec 31) := none
  words : List TxWord := []
  out : List LineBits := []
  deriving DecidableEq, Repr

/-- A bonding group: its state, whether BOND_SKEW stands recorded since SEARCH was entered, its word count, the words decoded
and not yet dealt to the members, the words dealt (R97), and which place carries which FEC or PCS lane (R94). -/
structure Group where
  state : BondState := .idle
  skewed : Bool := false
  seq : BitVec 8 := 0
  out : List RxWord := []
  turn : Nat := 0
  order : List Nat := []
  deriving DecidableEq, Repr

/-- What stands at a lane's transmit balls: nothing, electrical idle, or line symbols in the form of `LaneWord.line`, so many
bits of them (R86, R87, R106). -/
inductive TxOut where
  | none | squelch | bits (line : BitVec 560) (n : Nat)
  deriving DecidableEq, Repr

/-- A lane word with its sideband and stamp, as the capture port holds it (R99, R102). -/
structure HeldWord where
  data : BitVec 512
  sbA : Word
  sbB : Word
  stamp : DWord
  deriving DecidableEq, Repr

/-- What a lane holds beside its registers. -/
structure Lane where
  cdr : Bool := false
  lock : Bool := false
  eidle : Bool := false
  ppm : BitVec 16 := 0
  adapting : Bool := false
  adaptDone : Bool := false
  /-- the eye height estimate of the last convergence (R83) -/
  eye : BitVec 8 := 0
  prbsSync : Bool := false
  /-- equaliser elements 0 to 25 (R82) -/
  eq : Tbl Nat (BitVec 8) := []
  seq : BitVec 8 := 0
  /-- violations and uncorrectable codewords of this epoch, and whether bit 1 has set for it (R92) -/
  errs : Nat := 0
  errsSet : Bool := false
  prbsErrs : Nat := 0
  prbsErrsSet : Bool := false
  marginSet : Bool := false
  /-- histogram counts at the last boundary, from which the next snapshot is taken (R110) -/
  fecBase : Tbl Nat DWord := []
  /-- words the capture port holds for its delay (R126), oldest first -/
  held : List HeldWord := []
  tx : TxOut := .none
  rx : PcsRx := {}
  chk : Checker := {}
  txp : PcsTx := {}
  /-- line bits that a near-end loop brings to the receiver; received line bits and words that a far-end loop sends (R106) -/
  loop : LineBits := {}
  echo : List LineBits := []
  echoWords : List TxWord := []
  /-- the stamp of the last word delivered (R95) -/
  last : DWord := 0
  deriving DecidableEq, Repr

/-! The Heath (chapter 04). -/

/-- What the programmable logic holds (R113, R122): flip-flops `k` of cells `c`, at 2c + k, that stand at the opposite of their
configured initial value; the memories' contents as rows of 1,024 bits, row `r` of memory `m` at 36m + r; the data last read
at port `p` of memory `m`, at 2m + p; the memories that report a corrected or an uncorrectable word; the edges so far. -/
structure Fabric where
  moved : List Nat := []
  rows : Tbl Nat (BitVec 1024) := []
  outs : Tbl Nat (BitVec 64) := []
  corrected : List Nat := []
  wrong : List Nat := []
  edges : Nat := 0
  deriving DecidableEq, Repr

/-- What the Heath holds beside its registers. -/
structure Heath where
  /-- `HTH_RUN_STATUS.ALIVE` -/
  alive : BitVec 8 := 0
  /-- trees that give edges -/
  edging : BitVec 8 := 0
  /-- trees that have not restarted since their last change (R119) -/
  switching : List Nat := []
  /-- a RELEASE command waits for HOLD to end (R142) -/
  release : Bool := false
  /-- the release under way follows a load, not a reset K (R143) -/
  loaded : Bool := false
  /-- the load under way is the wake reload (R144) -/
  reload : Bool := false
  addr : Nat := 0
  len : Nat := 0
  manifest : List Byte := []
  /-- parts of the body as read, newest first -/
  body : List (List Byte) := []
  /-- frame records of the body under way, and the index of the last one -/
  total : Nat := 0
  last : Nat := 0
  /-- the live frames as 136-byte records with their stored CRC, by index -/
  frames : Tbl Nat (List Byte) := []
  fab : Fabric := {}
  /-- edges of its source that each tree's divider has counted (R118) -/
  divs : Tbl Nat Nat := []
  /-- what each pattern port presents to the design: a word of its queue, or none (R177) -/
  pattern : Tbl Nat (Option TxWord) := []
  deriving DecidableEq, Repr

/-! The Trigger Stair (chapter 05). -/

/-- A stamp entry (R171): source, rising edge, epoch. -/
structure StampEntry where
  stamp : DWord
  source : Nat
  rising : Bool
  epoch : DWord
  /-- the timebase edge at which it was written, as `Stair.edges` counts them -/
  edge : Nat := 0
  deriving DecidableEq, Repr

/-- What the Stair holds beside its registers. -/
structure Stair where
  /-- entries of the stamp FIFO, oldest first -/
  fifo : List StampEntry := []
  /-- an ARM, a DISARM, a reset K that wait for the next timebase edge -/
  armReq : Bool := false
  disarmReq : Bool := false
  clear : Bool := false
  /-- the sources as sampled at the last edge and at the one before -/
  now : BitVec 512 := 0
  prev : BitVec 512 := 0
  /-- the last edge changed the step: sampled edge conditions are false for the fast drive (R165) -/
  moved : Bool := false
  /-- running counters, and terminal conditions as last seen -/
  run : BitVec 16 := 0
  term : BitVec 16 := 0
  /-- `TRIG` lines asserted at the balls, as sampled on `TRIG_CLK`, and in the two synchroniser stages -/
  balls : BitVec 16 := 0
  trig : BitVec 16 := 0
  trig1 : BitVec 16 := 0
  trig2 : BitVec 16 := 0
  /-- accepted levels of the event-stamp inputs and their synchroniser -/
  es : BitVec 8 := 0
  es1 : BitVec 8 := 0
  es2 : BitVec 8 := 0
  /-- synchroniser of the array export lines -/
  exp1 : BitVec 32 := 0
  exp2 : BitVec 32 := 0
  /-- synchroniser of the Heath lines (R133) -/
  lines1 : BitVec 256 := 0
  lines2 : BitVec 256 := 0
  /-- timebase edges so far -/
  edges : Nat := 0
  /-- registered drives after one and two `TRIG_CLK` edges -/
  drive1 : BitVec 16 := 0
  drive2 : BitVec 16 := 0
  deriving DecidableEq, Repr

/-! Gallery queues and capture ports (chapter 06). -/

/-- A record that a capture port builds (R189, R194). -/
structure Rec where
  stamp : DWord
  typ : BitVec 8
  slot : Nat
  user : Word
  sbA : Word := 0
  sbB : Word := 0
  payload : List Byte := []
  /-- closed at 16,384 bytes (R191) -/
  truncated : Bool := false
  /-- a part was written while HOLD was active -/
  excursion : Bool := false
  deriving DecidableEq, Repr

/-- A capture port: its open record and the records it has closed, oldest first. -/
structure CapPort where
  cur : Option Rec := none
  closed : List Rec := []
  deriving DecidableEq, Repr

/-- An extent appended beyond the write position (R183, R188, R190). -/
structure Ext where
  len : Nat
  /-- entries in it; 0 for the skipped end of a half -/
  entries : Nat := 1
  /-- the epoch whose commit it waits for (R33) -/
  hold : Option Nat := none
  /-- a record's visibility time has come -/
  ready : Bool := true
  /-- a trigger mark lies before it (R157) -/
  mark : Bool := false
  deriving DecidableEq, Repr

/-- What the Gallery engine holds of a queue beside its registers. -/
structure Queue where
  /-- entries between the free and write positions, as last known (R209) -/
  entries : Nat := 0
  beyond : List Ext := []
  /-- skipped ends of halves between free and write: position and length (R188) -/
  skips : List (Nat × Nat) := []
  /-- padding records between free and write: position and length (R188) -/
  pads : List (Nat × Nat) := []
  /-- end of the completed halves (R188) -/
  full : Nat := 0
  /-- entries in the tail cache that their channel has not accepted (R636) -/
  tail : List (Nat × List Byte) := []
  /-- entries that the head cache has prefetched for a hardware consumer, from the read position on (R185, R636) -/
  head : List (Nat × List Byte) := []
  /-- the second copies of the write, read, mark and free positions, by number (R209) -/
  twin : Tbl Nat DWord := []
  stalled : Bool := false
  lostBefore : Bool := false
  discont : Bool := false
  /-- discontinuity tokens that have found no room yet: first failed epoch and count (R484) -/
  gaps : List (Nat × Nat) := []
  /-- the last epoch in which the queue accepted a record (R31) -/
  epoch : Option Nat := none
  /-- trigger stamp of a trigger mark that awaits its record (R157) -/
  trig : Option DWord := none
  /-- the capture gate at enabling, and its changes since, latest first (R157, R193) -/
  gate0 : Bool := false
  gates : List (DWord × Bool) := []
  /-- the level is at or above the threshold (R207) -/
  above : Bool := false
  /-- write positions at boundaries: boundary number and position (R32, R201) -/
  pend : List (Nat × Nat) := []
  /-- playback has begun (R211) -/
  started : Bool := false
  deriving DecidableEq, Repr

/-- An epoch boundary: the epoch it opened, its moment, whether it was a realign (R461, R465). -/
structure Boundary where
  epoch : Nat
  stamp : DWord
  realign : Bool := false
  deriving DecidableEq, Repr

/-! Memory channels (chapter 07). -/

/-- What a channel holds beside its registers. -/
structure Mc where
  /-- the training under way is a short one (R227) -/
  short : Bool := false
  /-- CA parity retries that failed in a row -/
  caparFails : Nat := 0
  /-- the next burst of patrol scrub (R235) -/
  scrubAt : Nat := 0
  /-- shares in force in the current window (R231) -/
  winCap : Nat := 225
  winSpill : Nat := 16
  /-- bursts that wait, bursts that the last window served, and whose turn it is in the round-robin class: 0 Corridor port 0,
  1 Corridor port 1, 2 the Gallery read path (R230) -/
  waiting : Bursts := {}
  served : Bursts := {}
  turn : Nat := 0
  /-- the largest movement of a read delay since the last ledger pass, and the ledger passes in a row without one (R565) -/
  moved : Nat := 0
  calm : Nat := 0
  deriving DecidableEq, Repr

/-! The Meadow and its halls (chapters 08 to 10). -/

/-- A token (R281); inside the array `IDLE` is 0 (R282). Its epoch is R470's. -/
structure Token where
  data : Word := 0
  tag : BitVec 28 := 0
  ctx : BitVec 4 := 0
  last : Bool := false
  err : Bool := false
  poison : Bool := false
  epoch : Nat := 0
  deriving DecidableEq, Repr

/-- A token on its way: its destination by kind (R251), the tile that sent it, and the in-flight entry of that tile that it
belongs to (R264). -/
structure Sent where
  tok : Token
  kind : Nat
  tile : Nat
  fu : Nat
  port : Nat
  frm : Nat := 0
  op : Option Nat := none
  deriving DecidableEq, Repr

/-- An entry of the in-flight table (R264): its epoch and its undelivered results. -/
structure Flight where
  epoch : Nat
  left : Nat
  deriving DecidableEq, Repr

/-- What a divider or the memory port holds of a firing (R259, R260, R348). -/
structure Firing where
  fu : Nat
  pctx : Nat
  word : BitVec 128
  a : Word
  b : Word
  c : Word
  tag : BitVec 28
  ctx : BitVec 4
  last : Bool
  err : Bool
  poison : Bool
  epoch : Nat
  op : Nat
  /-- a memory operation whose response will not come (R498) -/
  lost : Bool := false
  /-- a memory operation whose result a recovery discards (R478) -/
  gone : Bool := false
  deriving DecidableEq, Repr

/-- A waiting operand or pair of a hall (R310 to R313); its key is the tag and context of `one`. -/
structure HEntry where
  fu : Nat
  kind : Nat
  one : Token
  two : Option Token := none
  deriving DecidableEq, Repr

/-- The head of a port: not yet served, its operands complete for physical context `pctx`, waiting for a spill operation
(R317, R324), or its store held (R327): its own single, or the pair that it forms. -/
inductive Head where
  | fresh
  | ready (pctx : Nat) (a b c : Option Token)
  | spill
  | held (pair : Option HEntry)
  deriving DecidableEq, Repr

/-- An FU port: its channel buffer, and the requests that wait for room, by source number (R243, R253). -/
structure Port where
  buf : List Token := []
  head : Head := .fresh
  waiting : List Nat := []
  deriving DecidableEq, Repr

/-- A way of a hall: free, an entry, or the second way of the pair in way `w` (R313). -/
inductive Way where
  | free | entry (e : HEntry) | second (w : Nat)
  deriving DecidableEq, Repr

/-- A tile's snapshot of an epoch (R471, R639). -/
structure Snap where
  epoch : Nat
  image : List HEntry
  flags : Tbl Nat (BitVec 4)
  map : DWord
  deriving DecidableEq, Repr

/-- What a tile and its hall hold beside their registers. -/
structure Tile where
  /-- port `p` of FU `f` at 3f + p -/
  ports : Tbl Nat Port := []
  /-- tokens that wait at each source of R253: FU output registers hold one, express inputs four (R247) -/
  sent : Tbl Nat (List Sent) := []
  ops : Tbl Nat (Option Flight) := []
  divs : Tbl Nat (Option Firing) := []
  divWait : List Firing := []
  /-- memory operations, oldest first; the first `MAXOUT` are issued -/
  mems : List Firing := []
  /-- exit port stores: each token with the epoch it is held for (R271) -/
  store : Tbl Nat (List (Token × Option Nat)) := []
  /-- requests that wait for an exit port, by source number -/
  exitWait : Tbl Nat (List Nat) := []
  /-- ports whose heads wait to be served, in order of arrival (R315) -/
  waits : List Nat := []
  ways : Tbl Nat Way := []
  /-- ports whose arrival holds a pending spill slot, oldest first (R324) -/
  spills : List Nat := []
  filter : Tbl Nat Nat := []
  /-- spilled entries per epoch stamp (R330) -/
  stamps : Tbl Nat Nat := []
  gen : Nat := 0
  spillReady : Bool := false
  scanning : Bool := false
  scanAt : Nat := 0
  /-- the age limit in force since the last boundary (R338) -/
  limit : Nat := 2
  stalled : Bool := false
  /-- the last epoch in which ORPHAN set the tile's event (R331) -/
  orphanIn : Option Nat := none
  /-- tokens destroyed without retiring, by credit group (R328) -/
  lost : Tbl Nat Nat := []
  /-- restored entries that wait for room (R639) -/
  returning : List HEntry := []
  /-- markers passed (R329), and the most passed before a recovery (R479) -/
  epoch : Nat := 0
  hi : Nat := 0
  snaps : List Snap := []
  kept : Option Snap := none
  /-- the epoch in which `ARM` was written last (R273) -/
  armAt : Nat := 0
  /-- remap tables swapped in since the kept snapshot, by boundary (R479) -/
  swaps : List (Nat × DWord) := []
  /-- live undo log entries, oldest first: place in the log and epoch (R475) -/
  undo : List (Nat × Nat) := []
  undoOver : Bool := false
  snapOver : Bool := false
  deriving DecidableEq, Repr

/-! Epochs (chapter 16). -/

/-- A recovery domain. -/
structure Domain where
  /-- the epoch whose commit comes next -/
  next : Nat := 0
  /-- a kept snapshot exists (R473, R482) -/
  kept : Bool := false
  norec : Bool := false
  tries : Nat := 0
  /-- a recovery has reached replay and its success is not yet counted (R480) -/
  replay : Bool := false
  /-- entry ports hold until the next boundary (R483) -/
  waits : Bool := false
  /-- the first epoch whose tokens the domain takes after failed ones (R483) -/
  floor : Nat := 0
  site : Nat := 0
  deriving DecidableEq, Repr

/-- What a command has found, to take its effect at the command's end: a fault of a recovery domain and where (R477), or the two
copies of a queue's position that differ (R209). -/
inductive Finding where
  | fault (dom site : Nat)
  | clash (queue pos : Nat) (a b : DWord)
  deriving DecidableEq, Repr

/-- What the epoch machinery holds beside its registers. -/
structure Epo where
  doms : Tbl Nat Domain := []
  /-- couplings by epoch (R469) -/
  pairs : List (Nat × Nat × Nat) := []
  /-- what the command under way has found (R209, R477) -/
  detected : List Finding := []
  /-- an edge has placed the coming boundary; it is a realign (R464, R465) -/
  placed : Option Bool := none
  /-- the period in force (R462) -/
  period : Nat := 100000
  /-- boundaries since the last device reset that `EPO_NUMBER` has not counted, a reset K having cleared it -/
  base : Nat := 0
  deriving DecidableEq, Repr


/-! The context loader (chapter 11). -/

/-- The image of a load as the loader read it (R352): status of the first failing read, manifest and body. -/
structure Ldr where
  status : Status := .ok
  manifest : List Byte := []
  body : List Byte := []
  /-- every check has passed, and HOLD keeps the load from WRITING (R354) -/
  verified : Bool := false
  deriving DecidableEq, Repr

/-! Stream cores (chapters 12 and 13). -/

/-- A register bank (R360, R397): its stacks are held top first. -/
structure Bank where
  ds : List Word := []
  rs : List Word := []
  locals : Tbl Nat Word := []
  acc0 : BitVec 72 := 0
  acc1 : BitVec 72 := 0
  /-- the banked special registers of R368, by number -/
  spec : Tbl Nat Word := []
  dsp : Word := 0
  rsp : Word := 0
  deriving DecidableEq, Repr

/-- What a core does (R412): it runs, waits in WAIT, waits in LAND, OUT or OUTD, waits inside an instruction for the Corridor
(R401), or is halted. -/
inductive Run where
  | running | inWait | waiting | blocked | halted
  deriving DecidableEq, Repr

/-- A stream core. -/
structure Core where
  run : Run := .running
  stopped : Bool := true
  /-- `RUN` has been written 0, and the core stops at its next interruptible boundary (R410) -/
  stopping : Bool := false
  bank : Nat := 0
  pc : Word := 0
  /-- a repetition is under way: the syllable at `pc` repeats (R380) -/
  rep : Bool := false
  vbase : Word := 0
  banks : Tbl Nat Bank := []
  /-- instruction memory as fetch sees it (R376) -/
  code : List Host.Cell := []
  /-- the first failing store that the next FENCE reports: address and status (R375) -/
  storeErr : Option (Word × Status) := none
  /-- global stores since the oldest without a response, by tag, and whether each has its response (R374) -/
  window : List (BitVec 12 × Bool) := []
  /-- its access has no answer and will have none: it waits until it is reset (R374, R498) -/
  hung : Bool := false
  /-- page writes to bounds and pointers that wait for the next instruction boundary: bank, which, value (R407) -/
  mirrors : List (Nat × Nat × Word) := []
  /-- reset C is under way (R410) -/
  inReset : Bool := false
  /-- not started since its last reset -/
  fresh : Bool := true
  deriving DecidableEq, Repr

/-! The flow scheduler and its landing slots (chapter 14). -/

/-- Where an item stands (R418, R419, R430); `left` once entry to Standby has abandoned it, until wake releases it (R432). -/
inductive ItemState where
  | inSlot | again | reached | left | released | stray
  deriving DecidableEq, Repr

/-- An item that the scheduler has read and whose space it has not freed. -/
structure Item where
  queue : Nat
  pos : Nat
  flow : Nat
  dseq : Nat := 0
  epoch : Nat := 0
  state : ItemState
  desc : List Byte := []
  core : Nat := 0
  slot : Nat := 0
  deriving DecidableEq, Repr

/-- The state of a landing slot (R427); `filling` while its copy is being made. -/
inductive SlotState where
  | empty | filling | filled | taken
  deriving DecidableEq, Repr

/-- A landing slot. -/
structure Landing where
  state : SlotState := .empty
  bytes : List Byte := []
  flow : Nat := 0
  /-- its item, by queue and position; none once it is cancelled -/
  item : Option (Nat × Nat) := none
  /-- the cancelled item that a TAKEN slot still stands for, until its DONE (R429, R431) -/
  cancelled : Option Item := none
  /-- a reset or cancellation came while the copy was being made -/
  drop : Bool := false
  /-- order of dispatch -/
  order : Nat := 0
  deriving DecidableEq, Repr

/-- What the scheduler holds beside its registers and the slots. -/
structure Sched where
  items : List Item := []
  /-- flows and queue positions of the candidates that wait, or have waited to the end, for their affinity core (R423) -/
  waits : List (Nat × Nat) := []
  expired : List (Nat × Nat) := []
  /-- class served last at each priority, flow served last in each class (R422) -/
  lastClass : Tbl Nat (Option Nat) := []
  lastFlow : Tbl Nat (Option Nat) := []
  dispatches : Nat := 0
  deriving DecidableEq, Repr

/-! Scratchpad banks (chapter 15). -/

/-- What a bank holds beside its registers. -/
structure Spb where
  /-- the copy under way, as its START found the settings: from the bank to the global address or the other way, bank offset,
  global address, bytes (R449, R450) -/
  out : Bool := false
  ofs : Nat := 0
  addr : Nat := 0
  len : Nat := 0
  /-- the copy waits for an answer that will not come (R498) -/
  stuck : Bool := false
  /-- the spares that the repair map uses (R457) -/
  used : BitVec 4 := 0
  /-- the change under way moves the bank out of ON: its port drains (R451, R504) -/
  drains : Bool := false
  deriving DecidableEq, Repr


/-! The Corridor (chapter 17). -/

/-- A request outstanding at a requester's interface (R498): the answer on its way from a router, from one of its local ports
where the target gave it, unless it is `lost`; `late` once it has completed with TIMEOUT. A core's global store carries its core
address (R374). -/
structure Req where
  who : Requester
  tag : BitVec 12
  reads : Bool
  status : Status
  data : List Byte := []
  addr : Nat := 0
  router : Nat := 0
  port : Option Nat := none
  lost : Bool := false
  late : Bool := false
  store : Option Word := none
  deriving DecidableEq, Repr

/-! Raold Link (chapter 18). -/

/-- A DATA flit of the device: channel, payload bytes, sequence number once sent, whether a host request's completion ends
with it, for BULK_DATA the stream, its count of restarts and the entry boundary that it completes, and whether its transaction
ends with it. -/
structure TxFlit where
  ch : Nat
  payload : List Byte
  seq : BitVec 12 := 0
  cpl : Bool := false
  bulk : Option (Nat × Nat × Nat) := none
  ends : Bool := true
  deriving DecidableEq, Repr

/-- A bulk stream (R529): the next position to send, the read position as the stream knows it, the end of a record that
spans transactions, how often it has restarted, and that its queue has been disabled since it last sent. -/
structure Stream where
  next : Nat := 0
  read : Nat := 0
  span : Option Nat := none
  gen : Nat := 0
  cut : Bool := false
  deriving DecidableEq, Repr

/-- What Raold Link holds beside its registers. -/
structure Link where
  /-- reset H is due on the next entry to ACTIVE (R514) -/
  hpend : Bool := false
  /-- the ALIGN conditions have been met since RETRAIN began (R514) -/
  aligned : Bool := false
  /-- consecutive units that each receive lane has brought after lock, until the link is ACTIVE (R511, R514) -/
  rx : List (List (BitVec 66)) := []
  /-- sequence number of the next flit to accept, and whether a NAK stands for it (R518) -/
  rxSeq : BitVec 12 := 0
  nakked : Bool := false
  /-- a NAK flit is to be sent (R518) -/
  nakDue : Bool := false
  /-- payloads in the REQ receive buffer, oldest first, and flits freed from it since reset H (R521, R522) -/
  rxq : List (List Byte) := []
  freed : Nat := 0
  txSeq : BitVec 12 := 0
  /-- the replay buffer, oldest flit first (R519) -/
  replay : List TxFlit := []
  /-- flits of a replay that are to be sent again, oldest first (R520) -/
  resend : List TxFlit := []
  /-- flits that wait for credit or for the replay buffer, oldest first -/
  waiting : List TxFlit := []
  /-- the bulk stream served last, and whether its transaction goes on (R523) -/
  turn : Nat := 15
  inTran : Bool := false
  /-- `CRED` last received and flits sent, by channel (R522) -/
  cred : Tbl Nat (BitVec 10) := []
  sent : Tbl Nat (BitVec 10) := []
  /-- replays in a row without ACK progress (R520) -/
  replays : Nat := 0
  streams : Tbl Nat Stream := []
  /-- a near-end loop-back run is under way (R530) -/
  looping : Bool := false
  /-- a host request is being performed (R526), and requests whose response will not come (R498) -/
  busy : Bool := false
  dead : Nat := 0
  /-- the histories of the lanes' scramblers and of the flit stream's (R511, R512) -/
  scr : Tbl Nat (BitVec 58) := []
  flow : BitVec 58 := 0
  /-- scrambled bits of the flit stream that are not dealt yet, the first lowest, and how many (R512) -/
  bits : Nat := 0
  bitLen : Nat := 0
  /-- units since the last MARK (R512) -/
  unitNo : Nat := 0
  /-- where the 390.625 MHz clock stands against the tick, in 1/32 of a cycle -/
  phase : Nat := 0
  /-- the units that each transmit lane has sent in the last tick, oldest first -/
  lines : List (List (BitVec 66)) := []
  deriving DecidableEq, Repr


/-! Boot and security (chapter 19). -/

/-- What the boot and security controller holds beside its registers. -/
structure Sec where
  /-- the measurement log, oldest entry first (R551) -/
  log : List (List Byte) := []
  /-- the highest security version of a configuration or context image that passed since the last reset (R543) -/
  cfgHigh : Nat := 0
  /-- the command under way and its value (R548) -/
  cmd : Option (Nat × Nat) := none
  /-- the challenge has not been used (R550) -/
  fresh : Bool := false
  /-- the flash copies between which BOOT_AMBIGUOUS waits (R546) -/
  copies : Option (FlashCopy × FlashCopy) := none
  /-- `BOOT_SEL` as sampled at reset release (R544) -/
  bootSel : BitVec 2 := 0
  deriving DecidableEq, Repr

/-! Health (chapter 20). -/

/-- What the health block holds beside its registers. -/
structure Health where
  /-- a threshold has been reached and not every sensor has fallen 2 °C below it since (R557) -/
  high : Bool := false
  crit : Bool := false
  /-- some temperature has been read since reset P -/
  seen : Bool := false
  /-- the setpoint may fall at the next ledger pass (R562) -/
  mayFall : Bool := true
  /-- the regulator's last commanded output, in mV (R563) -/
  vout : Option Nat := none
  /-- lanes that the ledger re-adapts at the next boundary (R564) -/
  readapt : BitVec 24 := 0
  /-- the rotation under way: candidate and spare (R570) -/
  rot : Option (Nat × Nat) := none
  /-- the epoch in which the last rotation began -/
  rotEpoch : Nat := 0
  /-- the candidate that the last rotation took -/
  last : Nat := 39
  /-- tiles that the next rotations take first: they failed a gap test (R573) -/
  urgent : List Nat := []
  /-- BIST slices run on the vacated physical tile -/
  slices : Nat := 0
  /-- gap vectors since the last signature, FU `f` of tile `t` at 64t + f -/
  gaps : Tbl Nat Nat := []
  deriving DecidableEq, Repr


/-! The test access port (chapters 19 and 23). -/

/-- A state of the TAP controller (IEEE 1149.1). -/
inductive TapState where
  | reset | idle | selectDr | captureDr | shiftDr | exit1Dr | pauseDr | exit2Dr | updateDr
  | selectIr | captureIr | shiftIr | exit1Ir | pauseIr | exit2Ir | updateIr
  deriving DecidableEq, Repr

/-- A TAP instruction: those that IEEE 1149.1 makes mandatory, those of IEEE 1149.6 (R629), and others by their code (R550). -/
inductive TapInstr where
  | bypass | sample | preload | extest | extestPulse | extestTrain | other (code : Nat)
  deriving DecidableEq, Repr

/-- A signal pin as a boundary-scan cell sees it (R612). -/
inductive TapPin where
  | gp (n : Nat) | trig (n : Nat) | laneRx (l : Nat) | laneTx (l : Nat) | memory (c n : Nat) | dedicated (n : Nat)
  | linkLane (n : Nat) | refclk (n : Nat)
  deriving DecidableEq, Repr

/-- What the test access port holds. -/
structure Tap where
  state : TapState := .reset
  instr : TapInstr := .bypass
  /-- the register that is being shifted, the bit next to `TDO` first -/
  shift : List Bool := []
  /-- the update stages of the boundary-scan cells, in chain order -/
  cells : List Bool := []
  /-- lane transmitters drive the opposite of their cells (EXTEST_PULSE, EXTEST_TRAIN) -/
  inverted : Bool := false
  /-- what each lane's test receiver has seen last (R629) -/
  seen : BitVec 24 := 0
  deriving DecidableEq, Repr

/-! GPIO, power and resets (chapters 21 and 22). -/

/-- What the GPIO block holds beside its registers. -/
structure Gpio where
  /-- accepted pin levels (R608) -/
  filt : BitVec 96 := 0
  /-- ticks for which a pin's edge detector and event-stamp input still ignore changes after a switch of its function (R604) -/
  quiet : Tbl Nat Nat := []
  /-- `EPOCH_OUT` is in its pulse (R601) -/
  epochOut : Bool := false
  /-- the word of the last SMBus Read Word; none where it was NACKed (R613) -/
  smbus : Option (BitVec 16) := none
  deriving DecidableEq, Repr

/-- What the power controller holds beside its registers. -/
structure Power where
  /-- a device reset stands until its release (R594); it is reset P -/
  inReset : Bool := true
  full : Bool := true
  /-- causes of the reset, as `PWR_RESET_CAUSE` numbers them -/
  cause : BitVec 6 := 1
  /-- a wake source has come and waits for STANDBY or for HOLD to end (R582, R583) -/
  wake : Bool := false
  /-- Standby entry waits for HOLD to end (R582) -/
  entry : Bool := false
  /-- the domains that were on when Standby entry set them to drain (R585) -/
  entered : BitVec 24 := 0
  /-- in WAKING, the domains have power and their registers again (R587 steps 1 and 2) -/
  woken : Bool := false
  /-- domain power-downs and power-ups that wait for HOLD to end -/
  down : BitVec 24 := 0
  up : BitVec 24 := 0
  /-- ticks since the watchdog's last whole millisecond (R593) -/
  wdt : Nat := 0
  deriving DecidableEq, Repr


end Sys2Proof.Machine
end

