-- ==== Sys2Proof/Machine/State.lean ====
section
/-! DEFINITION. The machine state: every register of the map, memory, what each unit holds, and the queue of waiting
commands; the reasons a step can stop; the state after reset P. -/

namespace Sys2Proof.Machine

/-- Why the block stops with a fault. No row of the table raises one: every effect of the spec is a next state. -/
inductive Fault where
  /-- Raised by no meaning: the spec names no condition in which the block stops. Safe. -/
  | stopped
  deriving DecidableEq, Repr

/-- Why a command has no meaning. -/
inductive Refusal where
  /-- Raised by an arm of Dispatch.lean for a row that has no meaning yet. Safe. -/
  | notModelled (mnemonic : String)
  deriving DecidableEq, Repr

/-- The state of the block. -/
structure State where
  /-- commands waiting, first in, first out -/
  pending : List Instr := []
  /-- registers whose value differs from their power-on value -/
  regs : Tbl RegKey DWord := []
  /-- staged low words (R51) -/
  staged : Tbl RegKey (Option Word) := []
  /-- captured high words (R52) -/
  captured : Tbl RegKey (Option Word) := []
  /-- force flags of summary bits, by block page (R62) -/
  force : Tbl Nat Word := []
  /-- the answer to the last register access -/
  rsp : Rsp := {}
  /-- requests outstanding at the interfaces, oldest first (R498) -/
  reqs : List Req := []
  /-- source levels at the event controller (R61, R64) -/
  levels : BitVec 384 := 0
  /-- summary bits of each block as last seen, for PERF event 2 (R62, R635) -/
  sums : List (Nat × Word) := []
  /-- sources that a W1C write of this command may re-arm (R69) -/
  rearm : BitVec 384 := 0
  /-- host messages that wait for the link (R68) -/
  heldEvents : Tbl Nat (Option HeldEvent) := []
  /-- EVENT transactions queued on the link, oldest first (R528) -/
  hostEvents : List EventMsg := []
  /-- the second copy of each router's active detour table, as the bits in which it differs from the first (R507) -/
  detourDiff : Tbl Nat DWord := []
  /-- blocks with a soft reset in progress, by page (R47) -/
  resetting : Tbl Nat Bool := []
  /-- power domains 0 to 23 (R579) -/
  dom : Tbl Nat DomState := []
  /-- memory: DDR4, scratchpad banks and core local memories by global address (R37) -/
  mem : List Host.Cell := []
  quads : Tbl Nat Pll := []
  lanes : Tbl Nat Lane := []
  groups : Tbl Nat Group := []
  mcs : Tbl Nat Mc := []
  /-- 64-byte bursts of DDR4 and 8-byte words of banks and core memories that stand uncorrectable, by address -/
  bad : Tbl Nat Bool := []
  spbs : Tbl Nat Spb := []
  /-- banks whose handover a posted or tagged write has begun and that no tick has completed yet (R447) -/
  handing : List Nat := []
  /-- posted packets that their target could not perform, by the target block's page (R495): no register shows it -/
  posted : Tbl Nat Nat := []
  queues : Tbl Nat Queue := []
  /-- capture ports: lane l at l, bonding group g at 24 + g, Heath port p at 32 + p -/
  ports : Tbl Nat CapPort := []
  /-- the boundaries since reset, latest first -/
  bounds : List Boundary := []
  sched : Sched := {}
  /-- landing slot i of core k at 2k + i -/
  slots : Tbl Nat Landing := []
  cores : Tbl Nat Core := []
  tiles : Tbl Nat Tile := []
  /-- export event lines (R272) -/
  exports : BitVec 32 := 0
  epo : Epo := {}
  /-- FIFOs of the Heath exit ports, oldest token first (R130) -/
  hthOut : Tbl Nat (List Token) := []
  /-- discontinuity tokens that await Heath entry ports, oldest first: first failed epoch, count, and how many tokens of
  the exit port's store go before it (R484) -/
  discOut : Tbl Nat (List (Nat × Nat × Nat)) := []
  heath : Heath := {}
  stair : Stair := {}
  /-- the context loader's image (chapter 11) -/
  ldr : Ldr := {}
  sec : Sec := {}
  link : Link := {}
  health : Health := {}
  gpio : Gpio := {}
  power : Power := {}
  /-- the test access port (R550, R629) -/
  tap : Tap := {}
  /-- the fuse array: copy A of word `w` at `w`, copy B at `64 + w` (R540) -/
  fuses : Tbl Nat Word := []
  /-- free values drawn so far: the model's own field, not the spec's (log 12) -/
  draws : Nat := 0
  deriving DecidableEq, Repr

/-- The block right after reset P (R592): every register at its power-on value, every store empty, no command waiting. -/
def State.reset : State := {}

end Sys2Proof.Machine
end

