-- ==== Sys2Proof/Machine/Ops.lean ====
section
/-! DEFINITION. The named operations over registers, memory, fault records and events that every meaning is built of. -/

namespace Sys2Proof.Machine

/-! Registers. -/

/-- The power-on value of a register (the After power-on columns; DESIGN CHOICE 0 where the spec states none, log 1). -/
def por (r : Reg) (i j : Nat) : DWord :=
  match r with
  | .EVC_ROUTE => if (230 ≤ j ∧ j < 294 ∧ j % 2 = 0) ∨ (370 ≤ j ∧ j ≤ 381) then 0x4140 else 0x40
  | .MC_CFG => if i = 0 then 0x1C0 else 0x100
  | .EPO_DOM_CORES => if j = 0 then 0xFFFFFFFF else 0
  | .HLT_TILE_PHYS => BitVec.ofNat 64 (4 * j + 256 * (4 * j + 1) + 65536 * (4 * j + 2) + 16777216 * (4 * j + 3))
  | .CRT_PORT_EN | .CRT_NEXT_PORT_EN =>
    let x := i % 8
    let y := i / 8
    let links := (if 0 < y then 1 else 0) + (if x < 7 then 2 else 0) + (if y < 7 then 4 else 0) + (if 0 < x then 8 else 0)
    let ports := if i < 48 then 0x93 else if i < 56 then 0x9F else if i < 63 then 0x97 else 0x93
    BitVec.ofNat 64 (links + 256 * ports)
  | r => (regDesc r).por

/-- The value a register holds. -/
def State.rd (s : State) (r : Reg) (i : Nat := 0) (j : Nat := 0) : DWord := tget (por r i j) s.regs ⟨r, i, j⟩

/-- A register set to a value. -/
def State.wr (s : State) (r : Reg) (v : DWord) (i : Nat := 0) (j : Nat := 0) : State :=
  { s with regs := tset RegKey.ord (por r i j) s.regs ⟨r, i, j⟩ v }

/-- A field of a register. -/
def State.rdf (s : State) (r : Reg) (lo n : Nat) (i : Nat := 0) (j : Nat := 0) : Nat := fld (s.rd r i j) lo n

/-- A field of a register set. -/
def State.wrf (s : State) (r : Reg) (lo n x : Nat) (i : Nat := 0) (j : Nat := 0) : State :=
  s.wr r (setFld (s.rd r i j) lo n x) i j

/-- A register's bits in a mask set. -/
def State.orIn (s : State) (r : Reg) (m : DWord) (i : Nat := 0) (j : Nat := 0) : State := s.wr r (s.rd r i j ||| m) i j

/-- A register's bits in a mask cleared. -/
def State.clearIn (s : State) (r : Reg) (m : DWord) (i : Nat := 0) (j : Nat := 0) : State :=
  s.wr r (s.rd r i j &&& ~~~ m) i j

/-- A counter register advanced, saturating at its width. -/
def State.count (s : State) (r : Reg) (n : Nat := 1) (i : Nat := 0) (j : Nat := 0) : State :=
  s.wr r (satAdd (if (regDesc r).wide then 64 else 32) (s.rd r i j) n) i j

/-- A field counted up, saturating at the field's width. -/
def State.countf (s : State) (r : Reg) (lo n : Nat) (k : Nat := 1) (i : Nat := 0) (j : Nat := 0) : State :=
  s.wrf r lo n (min (s.rdf r lo n i j + k) (2 ^ n - 1)) i j

/-- A high-water mark raised to `x` where `x` is more. -/
def State.raiseTo (s : State) (r : Reg) (x : Nat) (i : Nat := 0) (j : Nat := 0) : State :=
  if (s.rd r i j).toNat < x then s.wr r (BitVec.ofNat 64 x) i j else s

/-! Memory: one address space, little-endian. -/

/-- A byte of memory; a byte that nothing has written reads 0 (log 7). -/
def State.byte (s : State) (a : Nat) : Byte := tget 0 s.mem a

/-- A byte of memory written. -/
def State.putByte (s : State) (a : Nat) (b : Byte) : State := { s with mem := tset id 0 s.mem a b }

/-- `n` bytes from address `a`. -/
def State.bytes (s : State) : Nat → Nat → List Byte
  | _, 0 => []
  | a, n + 1 => s.byte a :: s.bytes (a + 1) n

/-- Bytes written from address `a` on. -/
def State.putBytes (s : State) : Nat → List Byte → State
  | _, [] => s
  | a, b :: r => (s.putByte a b).putBytes (a + 1) r

/-- The little-endian number in `n` bytes at `a`. -/
def State.leAt (s : State) (a n : Nat) : Nat := leNat (s.bytes a n)

/-- A number written as `n` little-endian bytes at `a`. -/
def State.putLe (s : State) (a n x : Nat) : State := s.putBytes a (leBytes n x)

/-- Memory is in its canonical form: addresses strictly rise and no entry reads as an unlisted byte does. -/
def Memory.wf (m : List Host.Cell) : Bool := twf id (fun _ => (0 : Byte)) m

/-! Free values. -/

/-- A value that the spec leaves open: `Config.freeWord` applied to a count of such values (log 12). -/
def State.draw (s : State) : State × DWord := ({ s with draws := s.draws + 1 }, Config.freeWord s.draws)

/-! Blocks. -/


/-- The page of a block's common header. -/
def pageOf : Block → Nat
  | .devctl => 0x000 | .evc => 0x010 | .banks => 0x002 | .gallery => 0x400 | .sched => 0x500 | .gpio => 0x900
  | .heath => 0xA00 | .stair => 0xB00 | .epochs => 0xC00 | .health => 0xD00 | .security => 0xE00 | .link => 0xF00
  | .tile t => 0x100 + t | .lane l => 0x200 + l | .quad q => 0x280 + q | .mc c => 0x300 + c
  | .core k => 0x600 + k | .router r => 0x700 + r

/-- The block type and instance that `BLK_ID` reports in a block's first page (R40, R44). -/
def blkId : Block → Nat × Nat
  | .devctl => (0x0001, 0) | .evc => (0x0002, 0) | .banks => (0x0001, 0x8002) | .gallery => (0x0040, 0)
  | .sched => (0x0050, 0) | .gpio => (0x0090, 0) | .heath => (0x00A0, 0) | .stair => (0x00B0, 0)
  | .epochs => (0x00C0, 0) | .health => (0x00D0, 0) | .security => (0x00E0, 0) | .link => (0x00F0, 0)
  | .tile t => (0x0010, t) | .lane l => (0x0020, l) | .quad q => (0x0028, q) | .mc c => (0x0030, c)
  | .core k => (0x0060, k) | .router r => (0x0070, r)

/-- `BLK_ID` of a block's first page. -/
def blkIdWord (b : Block) : Nat := (blkId b).1 * 65536 + (blkId b).2

/-- Where a block is powered (R579): in a switched domain, in MAIN, or always on. -/
inductive Place where
  | dom (d : Nat) | main | aon
  deriving DecidableEq, Repr

/-- The power domain of a block's first page (R579); the banks' is a page of device control, which is always on (R41;
DESIGN CHOICE, log 147). -/
def placeOf : Block → Place
  | .tile t => .dom (t.val % 8 / 2)
  | .core k => .dom (4 + k.val / 8)
  | .sched => .dom 4
  | .heath => .dom 8
  | .quad q => .dom (9 + q.val)
  | .lane l => .dom (9 + l.val / 4)
  | .mc c => .dom (15 + c.val)
  | .link => .dom 23
  | .gallery | .router _ => .main
  | .devctl | .banks | .evc | .gpio | .stair | .epochs | .health | .security => .aon

/-- The state of a power domain. -/
def State.domSt (s : State) (d : Nat) : DomState := tget .on s.dom d

/-- The device state (R583). -/
def State.pwrState (s : State) : Nat := s.rdf .PWR_STATUS 0 3

/-- HOLD is active (R590). -/
def State.hold (s : State) : Bool := bit (s.rd .PWR_STATUS) 4

/-- Standby has gated the domains: STANDBY, and WAKING until they have power again (R583, R585, R587). -/
def State.gated (s : State) : Bool := s.pwrState == 3 || (s.pwrState == 4 && !s.power.woken)

/-- Reset B, E or W holds the gated domains in reset until its release (R594). -/
def State.held (s : State) : Bool := s.power.inReset && !s.power.full

/-- The gated domains do not work. -/
def State.asleep (s : State) : Bool := s.gated || s.held

/-- A place is powered and accepts accesses (R57, R504, R588). -/
def State.powered (s : State) : Place → Bool
  | .aon => true
  | .main => !s.asleep
  | .dom d => (d == 23 || !s.asleep) && s.domSt d == .on

/-- A block is powered. -/
def State.up (s : State) (b : Block) : Bool := s.powered (placeOf b)

/-- `BLK_CTRL.EN` of a block (R44). -/
def State.en (s : State) (b : Block) : Bool := bit (s.rd .BLK_CTRL (pageOf b)) 0

/-- A block is powered and not in a soft reset. -/
def State.ready (s : State) (b : Block) : Bool := s.up b && !(tget false s.resetting (pageOf b))

/-- A block whose chapter ties its work to `BLK_CTRL.EN` runs: ready and enabled. -/
def State.live (s : State) (b : Block) : Bool := s.ready b && s.en b

/-! Cores that wait (R403). -/

/-- A stream core. -/
def State.core (s : State) (k : Nat) : Core := tget {} s.cores k
/-- A stream core set. -/
def State.setCore (s : State) (k : Nat) (c : Core) : State := { s with cores := tset id {} s.cores k c }

/-- A core that waits in WAIT goes on behind it. -/
def State.wake (s : State) (k : Nat) : State :=
  let c := s.core k
  if c.run = .inWait then s.setCore k { c with run := .running, pc := c.pc + 2 } else s

/-! Performance counts, faults and events of a block (R44 to R46, R62, R635). -/

/-- `n` more of performance event `e` in a block's pages (R635). -/
def State.perf (s : State) (b : Block) (e n : Nat) : State :=
  let one (s : State) (k : Nat) : State :=
    if s.rdf .PERF_SEL 0 8 (pageOf b) k = e ∧ e ≠ 0 then s.count .PERF_CNT n (pageOf b) k else s
  one (one s 0) 1

/-- A first fault entered in the log (R600). -/
def State.logFirst (s : State) (b : Block) (rec0 : Nat) : State :=
  let n := s.rdf .PWR_FLOG_CNT 0 8
  let s := if n < 16 then s.wr .PWR_FLOG (BitVec.ofNat 64 (blkIdWord b + rec0 * 2 ^ 32)) 0 n else s
  s.countf .PWR_FLOG_CNT 0 8

/-- A fault of a block (R46): the record takes the first one since the last clear, and every one counts. -/
def State.fault (s : State) (b : Block) (code : Nat) (detail : Nat := 0) (rec1 : Nat := 0) : State :=
  let p := pageOf b
  let rec0 := code % 65536 * 65536 + detail % 65536
  let s :=
    if s.rd .FAULT_COUNT p = 0 then
      ((s.wr .FAULT_REC0 (BitVec.ofNat 64 rec0) p).wr .FAULT_REC1 (BitVec.ofNat 64 (rec1 % 2 ^ 32)) p).logFirst b rec0
    else s
  (s.countf .FAULT_COUNT 0 16 1 p).perf b 3 1

/-- Fault RESERVED_VALUE (R45). -/
def codeReserved : Nat := 0x0001
/-- Fault STATE_REFUSED (R45). -/
def codeRefused : Nat := 0x0002

/-- A write refused with STATE_REFUSED at an offset whose bits [15:12] are the page index (R45). -/
def State.refuse (s : State) (b : Block) (off : Nat) (v : Word) : State := s.fault b codeRefused off v.toNat

/-- A core's doorbell bit that sets ends its WAIT (R403). -/
def State.doorbell (s : State) (b : Block) (i : Nat) : State :=
  match b with
  | .core k => if i = 1 then s.wake k else s
  | _ => s

/-- An `EVT_STATUS` bit set by its cause (R62); one that goes from 0 to 1 is performance event 2. -/
def State.evt (s : State) (b : Block) (i : Nat) : State :=
  let p := pageOf b
  if bit (s.rd .EVT_STATUS p) i then s
  else ((s.wr .EVT_STATUS (setBit (s.rd .EVT_STATUS p) i true) p).perf b 2 1).doorbell b i

/-- The bits of a block's `EVT_STATUS` that a cause can set; the rest are reserved (R61 and each chapter). -/
def evtMask : Block → Nat
  | .lane _ | .mc _ | .security | .banks => 0xF
  | .quad _ | .router _ => 1
  | .tile _ | .core _ | .link => 3
  | .gallery => 0xFFFF
  | .gpio => 0xFFF
  | .sched | .stair => 0x3F
  | .heath | .epochs | .health => 0xFF
  | .devctl | .evc => 0

/-- The source number of a block's event bit (R61). -/
def srcOf (b : Block) (i : Nat) : Option Nat :=
  match b with
  | .lane l => if i < 4 then some (4 * l + i) else none
  | .quad q => if i = 0 then some (96 + q) else none
  | .mc c => if i < 4 then some (102 + 4 * c + i) else none
  | .tile t => if i < 2 then some (134 + 2 * t + i) else none
  | .core k => if i < 2 then some (230 + 2 * k + i) else none
  | .gallery => if i < 16 then some (294 + i) else none
  | .sched => if i < 8 then some (310 + i) else none
  | .router r => if i = 0 then some (318 + r / 4) else none
  | .stair => if i < 8 then some (334 + i) else none
  | .gpio => if i < 12 then some (342 + i) else none
  | .heath => if i < 8 then some (354 + i) else none
  | .epochs => if i < 8 then some (362 + i) else none
  | .health => if i < 8 then some (370 + i) else none
  | .security => if i < 4 then some (378 + i) else none
  | .link => if i < 2 then some (382 + i) else none
  | .devctl | .evc | .banks => none

/-! Epochs (R461, R462). -/

/-- The current epoch, counted from the last device reset (R461). -/
def epochNow (s : State) : Nat := (s.rd .EPO_NUMBER).toNat + s.epo.base
/-- The number that software sees of an epoch: `EPO_NUMBER` counts from its own last reset, reset K included (R13, log 76). -/
def epochNum (s : State) (n : Nat) : DWord := BitVec.ofNat 64 n - BitVec.ofNat 64 s.epo.base

end Sys2Proof.Machine
end

