-- ==== Sys2Proof/Machine/Events.lean ====
section
/-! DEFINITION. The event path (R61 to R70): the summary bits, the level of each of the 384 sources, delivery to cores,
Stair lines, the BSC and the host. `settle` closes every command: the event controller follows the levels the command
left, so the response to a write returns with its consequences in place (R54, R70). -/

namespace Sys2Proof.Machine

/-- A queue's contribution to its group's summary bit (R208). -/
def gqPend (s : State) (q : Nat) : Bool :=
  let st := s.rd .GQ_STATUS q
  let c := s.rd .GQ_CTRL q
  (bit st 0 && bit c 12) || (bit st 1 && bit c 13) || (bit st 2 && bit c 14)

/-- The queues of group `g` with a contribution, as the bits of `GAL_GRP_PEND[g]` (R208). -/
def gqGroupPend (s : State) (g : Nat) : DWord :=
  s.regs.foldl (fun a e =>
    if e.1.reg = .GQ_STATUS ∧ e.1.inst / 64 = g ∧ gqPend s e.1.inst = true then setBit a (e.1.inst % 64) true else a) 0

/-- The detail behind a block's summary bits (R62): Gallery groups (R208), GPIO groups (R607), routers (R509) and the
link (R533). -/
def detailBits (s : State) (b : Block) : Nat :=
  match b with
  | .gallery => (List.range 16).foldl (fun a g => if gqGroupPend s g = 0 then a else a + 2 ^ g) 0
  | .gpio => (List.range 12).foldl (fun a g => if s.rdf .GPIO_EVT (8 * (g % 4)) 8 0 (g / 4) = 0 then a else a + 2 ^ g) 0
  | .router r => if s.rd .CRT_CAUSE r &&& s.rd .CRT_CAUSE_EN r = 0 then 0 else 1
  | .link =>
    let c := s.rd .RLK_CAUSE &&& s.rd .RLK_CAUSE_EN
    (if fld c 0 2 = 0 then 0 else 1) + (if fld c 2 3 = 0 then 0 else 2)
  | _ => 0

/-- The bits of a block's `EVT_STATUS` that summarise detail (R62). -/
def summaryMask (b : Block) : Nat :=
  match b with
  | .gallery | .gpio | .router _ | .link => evtMask b
  | _ => 0

/-- `EVT_STATUS` as it reads: stored bits, or for a summary bit its detail or its force flag (R62). -/
def evtStatus (s : State) (b : Block) : Word :=
  if summaryMask b = 0 then lo32 (s.rd .EVT_STATUS (pageOf b))
  else BitVec.ofNat 32 (detailBits s b) ||| tget 0 s.force (pageOf b)

/-- The block whose header page this is. -/
def blockOfPage (p : Nat) : Option Block :=
  if p = 0 then some .devctl else if p = 2 then some .banks else if p = 0x010 then some .evc
  else if p = 0x400 then some .gallery else if p = 0x500 then some .sched else if p = 0x900 then some .gpio
  else if p = 0xA00 then some .heath else if p = 0xB00 then some .stair else if p = 0xC00 then some .epochs
  else if p = 0xD00 then some .health else if p = 0xE00 then some .security else if p = 0xF00 then some .link
  else if h : 0x100 ≤ p ∧ p < 0x130 then some (.tile ⟨p - 0x100, by omega⟩)
  else if h : 0x200 ≤ p ∧ p < 0x218 then some (.lane ⟨p - 0x200, by omega⟩)
  else if h : 0x280 ≤ p ∧ p < 0x286 then some (.quad ⟨p - 0x280, by omega⟩)
  else if h : 0x300 ≤ p ∧ p < 0x308 then some (.mc ⟨p - 0x300, by omega⟩)
  else if h : 0x600 ≤ p ∧ p < 0x620 then some (.core ⟨p - 0x600, by omega⟩)
  else if h : 0x700 ≤ p ∧ p < 0x740 then some (.router ⟨p - 0x700, by omega⟩)
  else none

/-- One source's bit added to a level vector. -/
def addSource (m : BitVec 384) (n : Option Nat) : BitVec 384 :=
  match n with
  | some k => m ||| (1#384 <<< k)
  | none => m

/-- The sources asserted by the bits `w` of a block. -/
def sourcesOf (b : Block) (w : Nat) (m : BitVec 384) : BitVec 384 :=
  (List.range 16).foldl (fun a i => if (w >>> i) % 2 = 1 then addSource a (srcOf b i) else a) m

/-- The level of every source (R61): an enabled bit of `EVT_STATUS` asserts its source. -/
def sourceLevels (s : State) : BitVec 384 :=
  s.regs.foldl (fun m e =>
    if e.1.reg = .EVT_ENABLE then
      match blockOfPage e.1.inst with
      | some b => sourcesOf b (evtStatus s b &&& lo32 e.2).toNat m
      | none => m
    else m) 0

/-- The link carries transactions: `RLK_STATUS.STATE` is ACTIVE (R514). -/
def linkActive (s : State) : Bool := s.rdf .RLK_STATUS 0 3 == 4

/-- One host message falls due for source `n`: queued as an EVENT transaction, or held while the link is down (R67, R68,
R528): in every state but ACTIVE (DESIGN CHOICE, log 150). -/
def hostMessage (s : State) (n : Nat) : State :=
  if bit (s.rd .EVC_ROUTE 0 n) 8 then
    if linkActive s then
      { s with hostEvents := s.hostEvents ++ [⟨n, s.rd .PWR_TB, s.rd .EPO_NUMBER⟩] }
    else
      { s with heldEvents := tset id none s.heldEvents n (some ⟨s.rd .PWR_TB, s.rd .EPO_NUMBER⟩) }
  else s

/-- Host messages for every source in a set, lowest number first. -/
def hostMessages (s : State) (m : BitVec 384) : State :=
  if m = 0 then s else (List.range 384).foldl (fun s n => if m.getLsbD n then hostMessage s n else s) s

/-- The summary bits of the blocks that have any set, in the order of the pages. -/
def summaries (s : State) : List (Nat × Word) :=
  let blocks : List Block := [.gallery, .gpio, .link] ++ (List.finRange 64).map Block.router
  (blocks.map fun b => (pageOf b, evtStatus s b)).filter (fun e => e.2 ≠ 0)

/-- Summary bits that went from 0 to 1 counted as performance event 2 (R635). -/
def countSummaries (s : State) : State :=
  let now := summaries s
  let s' := now.foldl (fun t e =>
    match blockOfPage e.1 with
    | some b => t.perf b 2 (popc 16 (e.2 &&& ~~~ (tget 0 s.sums e.1)).toNat)
    | none => t) s
  { s' with sums := now }

/-- Level `L` is requested of core `k` by a set of sources (R67, R398). -/
def requested (s : State) (m : BitVec 384) (k L : Nat) : Bool :=
  (List.range 384).any fun n =>
    m.getLsbD n && bit (s.rd .EVC_ROUTE 0 n) 0 && s.rdf .EVC_ROUTE 1 5 0 n == k && s.rdf .EVC_ROUTE 6 2 0 n == L

/-- Level `L` can interrupt core `k` (R398): it is enabled and above the core's level, and bank T is not current. -/
def takeable (s : State) (k L : Nat) : Bool := bit (s.rd .SC_IRQ_CTRL k) L && decide ((s.core k).bank < L)

/-- A request that arrives and is not taken ends a core's WAIT (R403). -/
def wakeRequests (s : State) (old now : BitVec 384) : State :=
  s.cores.foldl (fun s e =>
    if e.2.run = .inWait ∧ ([1, 2, 3].any fun L =>
        requested s now e.1 L && !requested s old e.1 L && !takeable s e.1 L) = true then s.wake e.1 else s) s

/-- Some source of a set is routed to a destination (R67). -/
def deliveries (s : State) (m : BitVec 384) : Bool :=
  m != 0 && (List.range 384).any fun n =>
    m.getLsbD n && (let r := s.rd .EVC_ROUTE 0 n; bit r 0 || bit r 8 || bit r 9 || bit r 14)

/-- An event delivery ends Quiet (R583). -/
def endQuiet (s : State) (m : BitVec 384) : State :=
  if s.pwrState = 1 ∧ deliveries s m = true then s.wrf .PWR_STATUS 0 3 0 else s

/-- The event controller follows the levels: each rising source that routes to the host sends one message, and so does
each source that a W1C write left asserted (R67, R69). Each word of a longer access has its own effect (R50). -/
def follow (s : State) : State :=
  let s := countSummaries s
  let now := sourceLevels s
  let due := (now &&& ~~~ s.levels) ||| (now &&& s.rearm)
  let s' := endQuiet (wakeRequests (hostMessages s due) s.levels now) due
  { s' with levels := now, rearm := 0 }

/-- The end of a command: the event controller follows, and what the command held for its own end is dropped. -/
def settle (s : State) : State :=
  let s := follow s
  { s with epo := { s.epo with detected := [] } }

/-- The outcome of a command that leaves state `s`. -/
def done (s : State) : Host.Outcome State Fault Refusal := .next (settle s)

/-- The sources of a block are noted for a re-arm by a W1C write (R69). -/
def noteRearm (s : State) (b : Block) (w : Nat) : State := { s with rearm := sourcesOf b w s.rearm }

/-- A source is asserted at the event controller. -/
def asserted (s : State) (n : Nat) : Bool := s.levels.getLsbD n

/-- The sources asserted and routed to core `k` at level `L`, lowest first (R64, R67). -/
def coreSources (s : State) (k L : Nat) : List Nat :=
  (List.range 384).filter fun n =>
    asserted s n && bit (s.rd .EVC_ROUTE 0 n) 0 && s.rdf .EVC_ROUTE 1 5 0 n == k && s.rdf .EVC_ROUTE 6 2 0 n == L

/-- `EVC_NEXT[k][L]` (R65). -/
def evcNext (s : State) (k L : Nat) : Nat :=
  match coreSources s k L with
  | n :: _ => 2 ^ 31 + n
  | [] => 0

/-- A Stair event line: the OR of the sources routed to it (R67). -/
def stairLine (s : State) (j : Nat) : Bool :=
  (List.range 384).any fun n =>
    asserted s n && bit (s.rd .EVC_ROUTE 0 n) 9 && s.rdf .EVC_ROUTE 10 4 0 n == j

/-- The BSC's request: some asserted source is routed to it (R67). -/
def bscRequest (s : State) : Bool := (List.range 384).any fun n => asserted s n && bit (s.rd .EVC_ROUTE 0 n) 14

end Sys2Proof.Machine
end

