-- ==== Sys2Proof/Machine/Pcs.lean ====
section
/-! DEFINITION. The codes of the hardened PCS (R88 to R92) as functions of line bits: PRBS, Gray mapping, 8b/10b, the 64b/66b
and 128b/130b scramblers, alignment markers, 256b/257b transcoding, RS(528,514) and RS(544,514). The standards that R90 names
supply what the spec does not print: PRESUMED (logs 120, 121). -/

namespace Sys2Proof.Machine

/-! PRBS (R88). -/

/-- The distances of the earlier bits whose exclusive or is the next bit, the degree first (R88). -/
def prbsTaps (poly : Nat) : List Nat :=
  match poly with
  | 0 => [7, 6]
  | 1 => [9, 5]
  | 2 => [13, 12, 2, 1]
  | 3 => [15, 14]
  | 4 => [23, 18]
  | _ => [31, 28]

/-- The degree of a polynomial of R88. -/
def prbsDegree (poly : Nat) : Nat := (prbsTaps poly).headD 31

/-- The next bit of a sequence; bit 0 of the history is the bit just before it. -/
def prbsBit (poly : Nat) (h : BitVec 31) : Bool := (prbsTaps poly).foldl (fun b d => b != bit h (d - 1)) false

/-- A history with one more bit. -/
def pushBit (h : BitVec 31) (b : Bool) : BitVec 31 := (h <<< 1) ||| BitVec.ofNat 31 b.toNat

/-- `n` bits of a sequence, the first lowest, and the history after them. -/
def prbsRun (poly : Nat) : Nat → BitVec 31 → Nat × BitVec 31
  | 0, h => (0, h)
  | n + 1, h =>
    let b := prbsBit poly h
    let r := prbsRun poly n (pushBit h b)
    (b.toNat + 2 * r.1, r.2)

/-! Symbols (R88). -/

/-- `n` PAM4 pairs from bit 0 on, between line bits and levels, the first bit of a pair the more significant: the Gray mapping
00, 01, 11, 10 to levels 0 to 3, which is its own inverse. -/
def gray : Nat → Nat → Nat
  | 0, _ => 0
  | n + 1, x =>
    let a := x % 2
    a + 2 * ((a + x / 2) % 2) + 4 * gray n (x / 4)

/-! 8b/10b, PRESUMED from IEEE 802.3 Clause 36 (log 120). Bit `a` of a code group is bit 0. -/

/-- The six-bit sub-blocks of D0 to D31 and of K28 at negative running disparity. -/
def code6 : List Nat :=
  [57, 46, 45, 35, 43, 37, 38, 7, 39, 41, 42, 11, 44, 13, 14, 58, 54, 49, 50, 19, 52, 21, 22, 23, 51, 25, 26, 27, 28, 29, 30,
    53, 60]

/-- The four-bit sub-blocks of x.0 to x.6, x.P7 and x.A7 at negative running disparity. -/
def code4 : List Nat := [13, 9, 10, 3, 11, 5, 6, 7, 14]

/-- A sub-block of `n` bits at running disparity `rd` (true where positive), and the disparity after it; `flat` is the
balanced sub-block that changes with the disparity. -/
def subBlock (n flat x : Nat) (rd : Bool) : Nat × Bool :=
  let even := 2 * popc n x == n
  (if rd && (!even || x == flat) then 2 ^ n - 1 - x else x, if even then rd else !rd)

/-- The code has a 9-bit symbol: data, or one of the twelve control symbols (K flag in bit 8). -/
def codes9 (v : BitVec 9) : Bool :=
  !bit v 8 || fld v 0 5 == 28 || (fld v 5 3 == 7 && [23, 27, 29, 30].contains (fld v 0 5))

/-- The code group of a 9-bit symbol, and the running disparity after it. -/
def encode10 (v : BitVec 9) (rd : Bool) : Nat × Bool :=
  let x := fld v 0 5
  let y := fld v 5 3
  let k28 := bit v 8 && x == 28
  let a := subBlock 6 7 (code6.getD (if k28 then 32 else x) 0) rd
  let alt := y == 7 && (bit v 8 || (if a.2 then [11, 13, 14] else [17, 18, 20]).contains x)
  let b := if k28 && [1, 2, 5, 6].contains y then (if a.2 then code4.getD y 0 else 15 - code4.getD y 0, a.2)
    else subBlock 4 3 (code4.getD (if alt then 8 else y) 0) a.2
  (a.1 + 64 * b.1, b.2)

/-- The symbols of the code. -/
def symbols9 : List (BitVec 9) := ((List.range 512).map (BitVec.ofNat 9)).filter codes9

/-- The symbol of a code group, whether the group is a violation (R92), and the running disparity after it. -/
def decode10 (g : Nat) (rd : Bool) : Option (BitVec 9) × Bool × Bool :=
  match symbols9.find? fun v => (encode10 v rd).1 == g with
  | some v => (some v, false, (encode10 v rd).2)
  | none =>
    match symbols9.find? fun v => (encode10 v !rd).1 == g with
    | some v => (some v, true, (encode10 v !rd).2)
    | none => (none, true, decide (5 < popc 10 g) || (rd && popc 10 g == 5))

/-! 64b/66b scrambling, x⁵⁸ + x³⁹ + 1 (R90). Bit 57 of a history is the line bit just before the block. -/

/-- A block's payload descrambled, and the history after it. -/
def descramble64 (h : BitVec 58) (x : BitVec 64) : BitVec 64 × BitVec 58 :=
  let c := x.toNat * 2 ^ 58 + h.toNat
  (x ^^^ BitVec.ofNat 64 (c / 2 ^ 19) ^^^ BitVec.ofNat 64 c, BitVec.ofNat 58 (c / 2 ^ 64))

/-- `n` bits scrambled, the first lowest, and the history after them. -/
def scrambleBits : Nat → BitVec 58 → Nat → Nat × BitVec 58
  | 0, h, _ => (0, h)
  | n + 1, h, x =>
    let b := (x + (bit h 19).toNat + (bit h 0).toNat) % 2
    let r := scrambleBits n (BitVec.ofNat 58 (h.toNat / 2 + 2 ^ 57 * b)) (x / 2)
    (b + 2 * r.1, r.2)

/-! Alignment markers of IEEE 802.3 Clause 82, PRESUMED (log 121). -/

/-- The first three bytes of the markers of the 20 lanes of 100GBASE-R and the 4 of 40GBASE-R, the first byte lowest. -/
def markerHeads : List Nat :=
  [0x2168C1, 0x8E719D, 0xE84B59, 0x7B954D, 0x0907F5, 0xC214DD, 0x264A9A, 0x66457B, 0x7624A0, 0xFBC968, 0x996CFD, 0x5591B9] ++
  [0xB2B95C, 0xBDF81A, 0xCAC783, 0xCD3635, 0x4C31C4, 0xB7D6AD, 0x2A665F, 0xE5F0C0, 0x477690, 0xE6C4F0, 0x9B65C5, 0x3D79A2]

/-- A block is an alignment marker: a control block whose bytes 0 to 2 are a marker's and whose bytes 4 to 6 invert them. -/
def isMarker (block : Nat) : Bool :=
  block % 4 == 1 && markerHeads.contains (block / 4 % 2 ^ 24) && block / 2 ^ 34 % 2 ^ 24 == 2 ^ 24 - 1 - block / 4 % 2 ^ 24

/-! 256b/257b transcoding, PRESUMED from IEEE 802.3 Clause 91 (log 121): bit 0 says whether all four blocks are data; else
bits 1 to 4 say which are, and the first control block gives up the second nibble of its type, which the first one tells. -/

/-- The second nibble of a block type, from its first. -/
def typeNibble (x : Nat) : Nat := if popc 4 x % 2 = 0 then x else 15 - x

/-- The 257-bit block that stands for four blocks; one with a sync header that is no header becomes a block in error. -/
def transcode (bs : List Nat) : Nat :=
  let data (j : Nat) : Bool := bs.getD j 0 % 4 == 2
  let pay : Nat := (List.range 4).foldl (fun a j => a + bs.getD j 0 / 4 % 2 ^ 64 * 2 ^ (64 * j)) 0
  if (List.range 4).all data then 1 + 2 * pay
  else
    let c := ((List.range 4).findIdx? fun j => !data j).getD 0
    let bad := (List.range 4).any fun j => bs.getD j 0 % 4 == 0 || bs.getD j 0 % 4 == 3
    let heads := if bad then 15 else (List.range 4).foldl (fun a j => a + (data j).toNat * 2 ^ j) 0
    let k := 64 * c + 4
    2 * heads + 32 * (pay % 2 ^ k + 2 ^ k * (pay / 2 ^ (k + 4)))

/-- A 257-bit block is a transcoding error (R92): no block of it is control though it is not all data, or the first control
block has no type. -/
def transcodeBad (x : Nat) : Bool :=
  x % 2 == 0 && (x / 2 % 16 == 15 ||
    (let c := ((List.range 4).findIdx? fun j => x / 2 ^ (j + 1) % 2 == 0).getD 0
     x / 2 ^ (5 + 64 * c) % 16 == 0))

/-- Block `j` of the four that a 257-bit block stands for; those of a block in error have no valid sync header. -/
def untranscode (x j : Nat) : Nat :=
  if x % 2 = 1 then 2 + 4 * (x / 2 ^ (1 + 64 * j) % 2 ^ 64)
  else
    let c := ((List.range 4).findIdx? fun j => x / 2 ^ (j + 1) % 2 == 0).getD 0
    let y := x / 32
    let k := 64 * c + 4
    let pay := y % 2 ^ k + 2 ^ k * (typeNibble (y / 2 ^ (64 * c) % 16) + 16 * (y / 2 ^ k))
    (if transcodeBad x then 3 else if x / 2 ^ (j + 1) % 2 = 1 then 2 else 1) + 4 * (pay / 2 ^ (64 * j) % 2 ^ 64)

/-! 128b/130b scrambling, PRESUMED from the PCI Express Base Specification at 8 GT/s (log 121): x²³ + x²¹ + x¹⁶ + x⁸ + x⁵ + x² + 1
with a seed for each position modulo 8; a state of 0 stands for the seed. -/

/-- The seed of a lane. -/
def seed130 (k : Nat) : BitVec 23 :=
  [0x1DBFBC, 0x0607BB, 0x1EC760, 0x18C0DB, 0x010F12, 0x19CFC9, 0x0277CE, 0x1BB807].getD (k % 8) 0

/-- `n` bits added to the scrambler's sequence, the first lowest, and the state after them; `on` is whether they are scrambled. -/
def lfsrBits (on : Bool) : Nat → BitVec 23 → Nat → Nat × BitVec 23
  | 0, h, _ => (0, h)
  | n + 1, h, x =>
    let top := bit h 22
    let r := lfsrBits on n ((h <<< 1) ^^^ (if top then 0x210125 else 0)) (x / 2)
    ((x % 2 + (on && top).toNat) % 2 + 2 * r.1, r.2)

/-- One block scrambled or descrambled: data blocks whole; of ordered sets SKP leaves the sequence where it is, EIEOS starts it
anew, TS1 and TS2 but their first symbol are scrambled, and the others pass it by. -/
def scramble130 (k : Nat) (h : BitVec 23) (x : Nat) : Nat × BitVec 23 :=
  let h := if h = 0 then seed130 k else h
  let first := x / 4 % 256
  let all (on : Bool) : Nat × BitVec 23 :=
    let r := lfsrBits on 128 h (x / 4)
    (x % 4 + 4 * r.1, r.2)
  if x % 4 ≠ 1 then all true
  else if first = 0xAA then (x, h)
  else if first = 0x00 then (x, seed130 k)
  else if first = 0x1E ∨ first = 0x2D then
    let a := lfsrBits false 8 h first
    let r := lfsrBits true 120 a.2 (x / 2 ^ 10)
    (x % 2 ^ 10 + 2 ^ 10 * r.1, r.2)
  else all false

/-! Clause 119 distribution, PRESUMED (log 121). -/

/-- The PCS lane that carries symbol `i` of codeword `c` of a pair: rows of 16 symbols in which the codewords alternate, every
other row beginning with the second. -/
def pcsLane (c i : Nat) : Nat := 2 * (i % 8) + (c + i / 8) % 2

/-! Reed-Solomon codes over GF(2¹⁰), PRESUMED from IEEE 802.3 Clause 91: the field of x¹⁰ + x³ + 1, and a generator with the
roots α⁰ to α²ᵗ⁻¹ (log 120). -/

/-- `a` times the low `n` bits of `b` in the field. -/
def gfMulN : Nat → Nat → Nat → Nat
  | 0, _, _ => 0
  | n + 1, a, b => (if b % 2 = 1 then a else 0) ^^^ gfMulN n (if a < 512 then 2 * a else (2 * a) ^^^ 1033) (b / 2)

/-- Multiplication in the field. -/
def gfMul (a b : Nat) : Nat := gfMulN 10 a b

/-- `a` to the power of the low `n` bits of `e`. -/
def gfPowN : Nat → Nat → Nat → Nat
  | 0, _, _ => 1
  | n + 1, a, e => gfMul (if e % 2 = 1 then a else 1) (gfPowN n (gfMul a a) (e / 2))

/-- The inverse in the field. -/
def gfInv (a : Nat) : Nat := gfPowN 10 a 1022

/-- A power of α. -/
def gfAlpha (e : Nat) : Nat := gfPowN 10 2 (e % 1023)

/-- The value of a polynomial, highest coefficient first. -/
def gfEval (p : List Nat) (x : Nat) : Nat := p.foldl (fun v c => gfMul v x ^^^ c) 0

/-- The sum of two polynomials of one length. -/
def polyAdd (p q : List Nat) : List Nat := List.zipWith (· ^^^ ·) p q

/-- Parity symbols of RS(528,514), and of RS(544,514) where `kp`: twice the symbols it corrects. -/
def rsParity (kp : Bool) : Nat := if kp then 30 else 14

/-- The generator polynomial, highest coefficient first, without its leading 1. -/
def rsGenerator (kp : Bool) : List Nat :=
  ((List.range (rsParity kp)).foldl (fun p j => polyAdd (p ++ [0]) (0 :: p.map (gfMul (gfAlpha j)))) [1]).drop 1

/-- The codeword of 514 message symbols, which it begins with. -/
def rsEncode (kp : Bool) (m : List Nat) : List Nat :=
  let g := rsGenerator kp
  m ++ m.foldl (fun r c => polyAdd (r.drop 1 ++ [0]) (g.map (gfMul (c ^^^ r.headD 0)))) (List.replicate (rsParity kp) 0)

/-- The syndromes of a received codeword. -/
def rsSyndromes (kp : Bool) (r : List Nat) : List Nat := (List.range (rsParity kp)).map fun j => gfEval r (gfAlpha j)

/-- What the search for the error locator keeps: the locator and the one before its last change of length, lowest coefficient
first, with its length, the steps since that change, and the discrepancy then. -/
structure RsStep where
  conn : List Nat := [1]
  prev : List Nat := [1]
  len : Nat := 0
  gap : Nat := 1
  disc : Nat := 1
  deriving DecidableEq, Repr

/-- `p` plus `c` times `q` moved up by `k` places, lowest coefficient first. -/
def polyShiftAdd (p q : List Nat) (c k : Nat) : List Nat :=
  let q := List.replicate k 0 ++ q.map (gfMul c)
  polyAdd (p ++ List.replicate (q.length - p.length) 0) (q ++ List.replicate (p.length - q.length) 0)

/-- The sum of products `p j * q (i - j)` over `j` below `n`. -/
def gfConv (p q : List Nat) (i n : Nat) : Nat :=
  (List.range n).foldl (fun a j => a ^^^ gfMul (p.getD j 0) (q.getD (i - j) 0)) 0

/-- One syndrome taken into the locator (Berlekamp and Massey). -/
def rsNext (ss : List Nat) (v : RsStep) (i : Nat) : RsStep :=
  let d := gfConv v.conn ss i (v.len + 1)
  if d = 0 then { v with gap := v.gap + 1 }
  else
    let c := polyShiftAdd v.conn v.prev (gfMul d (gfInv v.disc)) v.gap
    if 2 * v.len ≤ i then ⟨c, v.conn, i + 1 - v.len, 1, d⟩ else { v with conn := c, gap := v.gap + 1 }

/-- The error of the symbol at degree `e`, from the locator and the evaluator (Forney). -/
def rsError (loc om : List Nat) (e : Nat) : Nat :=
  let x := gfAlpha e
  let xi := gfInv x
  if gfEval loc.reverse xi = 0 then
    let dv := (List.range loc.length).foldl (fun a j =>
      if j % 2 = 1 then a ^^^ gfMul (loc.getD j 0) (gfPowN 10 xi (j - 1)) else a) 0
    gfMul x (gfMul (gfEval om.reverse xi) (gfInv dv))
  else 0

/-- A received codeword corrected, and how many symbols that took; none where it is uncorrectable (R110). -/
def rsDecode (kp : Bool) (r : List Nat) : Option (List Nat × Nat) :=
  let ss := rsSyndromes kp r
  if ss.all (· == 0) then some (r, 0)
  else
    let v := (List.range (rsParity kp)).foldl (rsNext ss) {}
    let om := (List.range (rsParity kp)).map fun i => gfConv v.conn ss i (i + 1)
    let es := (List.range r.length).map fun i => rsError v.conn om (r.length - 1 - i)
    let k := (es.filter (· != 0)).length
    let c := polyAdd r es
    if k = v.len ∧ 2 * k ≤ rsParity kp ∧ (rsSyndromes kp c).all (· == 0) = true then some (c, k) else none

/-- The 10-bit symbols of `n` × 10 bits, the first lowest. -/
def symbols10 : Nat → Nat → List Nat
  | 0, _ => []
  | n + 1, x => x % 1024 :: symbols10 n (x / 1024)

/-- The bits of 10-bit symbols. -/
def bits10 : List Nat → Nat
  | [] => 0
  | a :: r => a + 1024 * bits10 r

end Sys2Proof.Machine
end

