-- ==== Sys2Proof/Machine/Lanes.lean ====
section
/-! DEFINITION. Lanes and quads (chapter 03): rates, the quad PLL, receive words with their sideband, bonding groups,
adaptation, eye scan, PRBS. -/

namespace Sys2Proof.Machine

/-- What a lane holds beside its registers. -/
def State.lane (s : State) (l : Nat) : Lane := tget {} s.lanes l
/-- A lane's holding set. -/
def State.setLane (s : State) (l : Nat) (v : Lane) : State := { s with lanes := tset id {} s.lanes l v }
/-- A bonding group. -/
def State.group (s : State) (g : Nat) : Group := tget {} s.groups g
/-- A bonding group set. -/
def State.setGroup (s : State) (g : Nat) (v : Group) : State := { s with groups := tset id {} s.groups g v }
/-- A quad's PLL. -/
def State.pll (s : State) (q : Nat) : Pll := tget .off s.quads q
/-- A quad's PLL set. -/
def State.setPll (s : State) (q : Nat) (v : Pll) : State := { s with quads := tset id .off s.quads q v }

/-! Rates (R71 to R74), counted in half hertz. -/

/-- The frequency of a reference clock as `REFFREQ` declares it. -/
def refHalfHz (n : Nat) : Nat := if n = 0 then 200000000 else if n = 1 then 312500000 else if n = 2 then 322265625 else 0

/-- The quad symbol rate times 65,536 (R71). -/
def symRate (ctrl rate : DWord) : Nat := refHalfHz (fld ctrl 2 2) * (fld rate 16 10 * 65536 + fld rate 0 16)

/-- The symbol rate lies in 10.0 to 56.25 GBd. -/
def symOk (r : Nat) : Bool := 20000000000 * 65536 ≤ r && r ≤ 112500000000 * 65536

/-- Bits per symbol of a `RATE` value (R72). -/
def rateBits (r : Nat) : Nat := if r = 0 then 0 else if r < 5 then 1 else 2
/-- Divider exponent of a `RATE` value (R72). -/
def rateDiv (r : Nat) : Nat := if r < 5 then r - 1 else r - 5

/-- A `RATE` value is not reserved at a symbol rate, on a device of this speed grade (R2, R73). -/
def rateOk (sym r grade : Nat) : Bool :=
  let k := 65536 * 2 ^ rateDiv r
  let x := sym * rateBits r
  r == 0 ||
  ((if r < 5 then 2500000000 * k ≤ x && x ≤ 64000000000 * k else 40000000000 * k ≤ x && x ≤ 225000000000 * k) &&
   (grade != 1 || x ≤ 112500000000 * k))

/-- The quad of a lane. -/
def quadOf (l : Nat) : Nat := l / 4
/-- The symbol rate of a quad as its registers set it. -/
def quadSym (s : State) (q : Nat) : Nat := symRate (s.rd .QUAD_PLL_CTRL q) (s.rd .QUAD_PLL_RATE q)
/-- `LANE_CFG.RATE`. -/
def laneRate (s : State) (l : Nat) : Nat := s.rdf .LANE_CFG 0 3 l
/-- A lane's bit rate times 65,536, in half hertz. -/
def laneBitRate (s : State) (l : Nat) : Nat :=
  quadSym s (quadOf l) * rateBits (laneRate s l) / 2 ^ rateDiv (laneRate s l)
/-- The speed grade (R4). -/
def grade (s : State) : Nat := s.rdf .DEV_GRADE 0 4

/-- Settings of a quad keep every running lane's `RATE` valid (R74). -/
def lanesOk (s : State) (q sym : Nat) : Bool :=
  (List.range 4).all fun i => rateOk sym (laneRate s (4 * q + i)) (grade s)

/-- The quad clock in kHz, rounded down: the fastest lane bit rate, or the symbol rate while every lane is off, ÷ 512 (R22,
R112). -/
def quadKHz (s : State) (q : Nat) : Nat :=
  let rates := (List.range 4).map fun i => laneBitRate s (4 * q + i)
  let top := rates.foldl max 0
  (if top = 0 then quadSym s q else top) / (65536 * 512 * 2000)

/-- `QUAD_STATUS` as it reads (R112). -/
def quadStatus (s : State) (q : Nat) : DWord :=
  if s.pll q = .locked then BitVec.ofNat 64 (1 + 256 * (quadKHz s q % 2 ^ 24)) else 0

/-- The PLL moves to a state; a change of `QUAD_STATUS.LOCK` sets quad `EVT_STATUS` bit 0 (R75). -/
def pllTo (s : State) (q : Fin 6) (p : Pll) : State :=
  let s' := s.setPll q p
  if (s.pll q == .locked) == (p == .locked) then s' else s'.evt (.quad q) 0

/-- The PLL begins to lock, where the quad is enabled (R75). -/
def pllStart (s : State) (q : Fin 6) : State :=
  if s.en (.quad q) then pllTo s q .locking else pllTo s q .off

/-- `PLL_LOCK` (R75). -/
def execPllLock (n : Fin 6) (s : State) : Host.Outcome State Fault Refusal :=
  done (if s.live (.quad n) = true ∧ (s.pll n = .locking ∨ s.pll n = .retrying) then pllTo s n .locked else s)

/-- `PLL_NO_LOCK` (R75): fault 0x0100; the PLL keeps trying. -/
def execPllNoLock (n : Fin 6) (s : State) : Host.Outcome State Fault Refusal :=
  done (if s.live (.quad n) = true ∧ s.pll n = .locking then
    ((s.setPll n .retrying).fault (.quad n) 0x0100).evt (.quad n) 0 else s)

/-- `PLL_LOCK_LOSS` (R75): an uncommanded loss counts, and the PLL tries again at once. -/
def execPllLockLoss (n : Fin 6) (s : State) : Host.Outcome State Fault Refusal :=
  done (if s.live (.quad n) = true ∧ s.pll n = .locked then pllTo (s.count .QUAD_LOCK_LOSS 1 n) n .locking else s)

/-! Bonding groups (R93 to R97). -/

/-- `LANE_BOND.EN`. -/
def bonded (s : State) (l : Nat) : Bool := bit (s.rd .LANE_BOND l) 0
/-- `LANE_BOND.GROUP`. -/
def groupOf (s : State) (l : Nat) : Nat := s.rdf .LANE_BOND 1 2 l
/-- The members of a group, lowest lane first. -/
def members (s : State) (g : Nat) : List (Fin 24) := (List.finRange 24).filter fun l => bonded s l && groupOf s l == g
/-- The anchor of a group: its lowest member (0 for none). -/
def anchor (s : State) (g : Nat) : Fin 24 := (members s g).headD 0
/-- `LANE_PCS.RXMODE`. -/
def rxMode (s : State) (l : Nat) : Nat := s.rdf .LANE_PCS 0 4 l

/-- The settings that all members of a group must share (R93). -/
def bondKey (s : State) (l : Nat) : Nat × Nat × Nat × Nat :=
  (laneRate s l, rxMode s l, s.rdf .QUAD_PLL_CTRL 0 4 (quadOf l), (s.rd .QUAD_PLL_RATE (quadOf l)).toNat)

/-- The matching rule of R93 holds. -/
def bondRule (s : State) (g : Nat) : Bool :=
  (members s g).length ≤ 16 && (members s g).all fun l => bondKey s l == bondKey s (anchor s g)

/-- An event bit set on every member. -/
def evtAll (s : State) (ls : List (Fin 24)) (i : Nat) : State := ls.foldl (fun s l => s.evt (.lane l) i) s
/-- A fault recorded by every member. -/
def faultAll (s : State) (ls : List (Fin 24)) (code detail : Nat) : State :=
  ls.foldl (fun s l => s.fault (.lane l) code detail) s

/-- The group enters a state (R96); entry to and exit from ALIGNED set bit 0 on every member. -/
def groupTo (s : State) (g : Nat) (b : BondState) : State :=
  let s' := s.setGroup g { s.group g with state := b, skewed := false }
  if ((s.group g).state == .aligned) == (b == .aligned) then s' else evtAll s' (members s g) 0

/-- The group's state follows its members' settings (R93, R96). A change of membership that keeps the rule of R93 leaves the
state as it is: DESIGN CHOICE, log 122. -/
def regroup (s : State) (g : Nat) : State :=
  let st := (s.group g).state
  if members s g = [] then (if st = .idle then s else groupTo s g .idle)
  else if bondRule s g then (if st = .idle ∨ st = .mismatch then groupTo s g .search else s)
  else if st = .mismatch then s
  else faultAll (groupTo s g .mismatch) (members s g) 0x0100 g

/-- Every group follows a change of lane or quad settings. -/
def regroupAll (s : State) : State := (List.range 4).foldl regroup s

/-- `BOND_SKEW` (R96): the fault is recorded once per entry to SEARCH. -/
def execBondSkew (g : Fin 4) (spread : Nat) (s : State) : Host.Outcome State Fault Refusal :=
  done (if (s.group g).state = .search ∧ (s.group g).skewed = false ∧ 64 < spread then
    faultAll (s.setGroup g { s.group g with skewed := true }) (members s g) 0x0101 (g + 256 * min spread 255) else s)

/-! Receive words. -/

/-- The quad clock runs and the lane is enabled with a rate: the lane delivers words (R72, R75). -/
def laneRuns (s : State) (l : Fin 24) : Bool :=
  s.live (.lane l) && laneRate s l != 0 && s.pll (quadOf l) == .locked

/-- `LOCK` of a lane (R99): CDR lock in RAW, else symbol or block lock. -/
def lockOf (s : State) (l : Nat) : Bool := if rxMode s l = 1 then (s.lane l).cdr else (s.lane l).lock

/-- A mode has Reed-Solomon FEC (R90). -/
def rsMode (m : Nat) : Bool := m == 5 || m == 6

/-- The distribution of codewords in force in a group for a mode (R94): `FECDIST` of the anchor in the RS modes, with the
member count it needs; 0 where each member carries its own (log 123). -/
def fecDist (s : State) (g m : Nat) : Nat :=
  let n := (members s g).length
  let f := s.rdf .LANE_BOND 4 2 (anchor s g)
  if rsMode m && ((f == 1 && n == 4) || (f == 2 && (n == 4 || n == 8))) then f else 0

/-- The distribution that a group receives by. -/
def rxDist (s : State) (g : Nat) : Nat := fecDist s g (rxMode s (anchor s g))

/-- The group's stream is dealt to its members under one word count (R97). -/
def dealt (s : State) (l : Nat) : Bool :=
  bonded s l && (s.group (groupOf s l)).state == .aligned && rxDist s (groupOf s l) != 0

/-- The lane whose page counts FEC for this lane: the anchor with `FECDIST` 0b01 or 0b10 (R110). -/
def fecLane (s : State) (l : Fin 24) : Fin 24 :=
  if bonded s l && rxDist s (groupOf s l) != 0 then anchor s (groupOf s l) else l

/-- The `ALIGNED` condition of a lane (R99). -/
def laneAligned (s : State) (l : Nat) : Bool :=
  if bonded s l then (s.group (groupOf s l)).state == .aligned else lockOf s l

/-- Sideband word A of a word (R99); `missed` where words were lost since the lane's last one. -/
def sidebandA (s : State) (l : Fin 24) (w : RxWord) (missed : Bool) (seq : BitVec 8) : Word :=
  let unc := (w.codewords.filter fun c => c.isNone).length
  let corr := (w.codewords.filterMap id).foldl (· + ·) 0
  BitVec.ofNat 32 <|
    (lockOf s l).toNat + 2 * (laneAligned s l).toNat + 4 * missed.toNat + 8 * w.eidle.toNat +
    2 ^ 4 * min w.cv 15 + 2 ^ 8 * min corr 15 + 2 ^ 12 * min unc 3 + 2 ^ 14 * (if w.codewords = [] then 0 else 1) +
    2 ^ 16 * l.val + 2 ^ 21 * groupOf s l + 2 ^ 23 * (bonded s l).toNat + 2 ^ 24 * seq.toNat

/-- One codeword counted in the histogram (R110). -/
def countCodeword (s : State) (l : Fin 24) (c : Option Nat) : State :=
  s.count .LANE_FEC_HIST 1 l (match c with
    | some n => min n 15
    | none => 16)

/-- Violations and uncorrectable codewords of the epoch; at `LANE_ERR_THR` bit 1 sets, once per epoch (R92). -/
def addErrors (s : State) (l : Fin 24) (n : Nat) : State :=
  let v := s.lane l
  let e := v.errs + n
  if s.rdf .LANE_ERR_THR 0 16 l ≤ e ∧ 0 < n ∧ v.errsSet = false then
    (s.setLane l { v with errs := e, errsSet := true }).evt (.lane l) 1
  else s.setLane l { v with errs := e }

/-- What the receive PCS made of a word is counted (R92, R110). -/
def countWord (s : State) (l : Fin 24) (w : RxWord) : State :=
  let s := s.count .LANE_CV_CNT w.cv l
  let f := fecLane s l
  let s := w.codewords.foldl (fun s c => countCodeword s f c) s
  addErrors (addErrors s f (w.codewords.filter fun c => c.isNone).length) l w.cv

/-! Line symbols and bits (R88, R98). -/

/-- The lane runs PAM4 (R72). -/
def pam4 (s : State) (l : Nat) : Bool := decide (5 ≤ laneRate s l)

/-- Line bits in the time of one lane word (R98), with the share of FEC parity in the RS modes; 512 where the PCS is off. -/
def wordBits (mode : Nat) : Nat :=
  match mode with
  | 2 => 560
  | 3 | 5 => 528
  | 4 => 520
  | 6 => 544
  | _ => 512

/-- Bits of the low `n` inverted where `p`. -/
def polarity (p : Bool) (n x : Nat) : Nat := if p then 2 ^ n - 1 - x % 2 ^ n else x % 2 ^ n

/-- Gray mapping where the lane runs PAM4 with `GRAY` 1 (R88). -/
def grayOf (s : State) (l n x : Nat) : Nat := if pam4 s l && bit (s.rd .LANE_CFG l) 6 then gray (n / 2) x else x

/-- `n` received bits: polarity as `POL_RX` has it (log 124), then the Gray mapping. -/
def fromLine (s : State) (l n line : Nat) : Nat := grayOf s l n (polarity (bit (s.rd .LANE_CFG l) 4) n line)

/-- `n` bits to send as line symbols. -/
def toLine (s : State) (l n x : Nat) : BitVec 560 :=
  BitVec.ofNat 560 (polarity (bit (s.rd .LANE_CFG l) 5) n (grayOf s l n x))

/-- The stamp of the line bit `k` places after one stamped `t`, at the programmed rate, rounded down (log 125). -/
def bitStamp (s : State) (l : Nat) (t : DWord) (k : Nat) : DWord :=
  t + BitVec.ofNat 64 (k * (1024 * 1000000000 * 131072) / laneBitRate s l)

/-- The stamp of a moment at the balls plus the signed `LANE_TS_OFFSET` (R102). -/
def laneStamp (s : State) (l : Nat) (t : DWord) : DWord := t + (lo32 (s.rd .LANE_TS_OFFSET l)).signExtend 64

/-! The PRBS checker (R89). -/

/-- What the checker has found in a word so far. -/
structure CheckAcc where
  chk : Checker
  sync : Bool
  changed : Bool := false
  bits : Nat := 0
  errs : Nat := 0
  run : Option DWord := none
  deriving DecidableEq, Repr

/-- One received bit: it synchronises after 64 less the degree bits that follow from those before them, on a history that is
not all 0, and then compares with a sequence of its own (log 126). The run of ones that the sequence passes is stamped. -/
def checkBit (poly : Nat) (t : DWord) (a : CheckAcc) (b : Bool) : CheckAcc :=
  let e := prbsBit poly a.chk.hist
  let ones := if b then a.chk.ones + 1 else 0
  let c := { a.chk with ones := ones, since := if ones = 1 then t else a.chk.since }
  let c := { c with hist := pushBit c.hist (if a.sync then e else b) }
  let run := if ones = prbsDegree poly then some c.since else a.run
  if a.sync then { a with chk := c, bits := a.bits + 1, errs := a.errs + (b != e).toNat, run := run }
  else
    let good := if b = e ∧ a.chk.hist ≠ 0 then a.chk.good + 1 else 0
    if 64 ≤ good + prbsDegree poly then { a with chk := { c with good := 0 }, sync := true, changed := true }
    else { a with chk := { c with good := good } }

/-- The bits of a word, the first lowest; `t` gives the stamp of bit `k`. -/
def checkBits (poly : Nat) (inv : Bool) (t : Nat → DWord) : Nat → Nat → Nat → CheckAcc → CheckAcc
  | 0, _, _, a => a
  | n + 1, k, x, a => checkBits poly inv t n (k + 1) (x / 2) (checkBit poly (t k) a ((x % 2 == 1) != inv))

/-- The PRBS checker's part of a word of `n` bits (R89); that it gives up its synchronisation is an observation of the word
(log 126). -/
def prbsWord (s : State) (l : Fin 24) (n x : Nat) (w : LaneWord) : State :=
  let r := s.rd .LANE_PRBS l
  if bit r 8 = false then s else
  let v := s.lane l
  let a := checkBits (fld r 4 3) (bit r 9) (bitStamp s l (laneStamp s l w.stamp)) n 0 x ⟨v.chk, v.prbsSync, false, 0, 0, none⟩
  let lost := a.sync && w.prbsLost
  let s := s.setLane l { v with chk := if lost then {} else a.chk, prbsSync := a.sync && !lost }
  let s := if a.changed || lost then s.evt (.lane l) 3 else s
  let s := (s.count .LANE_PRBS_BITS a.bits l).count .LANE_PRBS_ERR a.errs l
  let v := s.lane l
  let e := v.prbsErrs + a.errs
  let s := if s.rdf .LANE_ERR_THR 0 16 l ≤ e ∧ 0 < a.errs ∧ v.prbsErrsSet = false then
      (s.setLane l { v with prbsErrs := e, prbsErrsSet := true }).evt (.lane l) 3
    else s.setLane l { v with prbsErrs := e }
  match a.run with
  | some t => if a.sync then s.wr .LANE_CAL_STAMP t l else s
  | none => s

/-! The receive PCS (R90 to R100). -/

/-- `n` free values, as the number that they spell (log 12). -/
def State.drawMany (s : State) : Nat → State × Nat
  | 0 => (s, 0)
  | n + 1 =>
    let d := s.draw
    let r := State.drawMany d.1 n
    (r.1, d.2.toNat + 2 ^ 64 * r.2)

/-- A 2-bit sync header is invalid (R92). -/
def headerBad (h : Nat) : Bool := h == 0 || h == 3

/-- The code groups of a word decoded: the payload of nine-bit symbols, the place of the first violation (63 for none), the
violations, the running disparity. A group that is no code of the standard decodes to a free value. -/
def decodeGroups (s : State) : Nat → Nat → Nat → Bool → State × Nat × Nat × Nat × Bool
  | 0, _, _, rd => (s, 0, 63, 0, rd)
  | n + 1, k, x, rd =>
    let d := decode10 (x % 1024) rd
    let f := match d.1 with
      | some v => (s, v.toNat)
      | none => (s.draw.1, s.draw.2.toNat % 512)
    let r := decodeGroups f.1 n (k + 1) (x / 1024) d.2.2
    (r.1, f.2 + 512 * r.2.1, if d.2.1 then k else r.2.2.1, r.2.2.2.1 + d.2.1.toNat, r.2.2.2.2)

/-- 66-bit blocks of a word decoded: payload, sync headers, violations, markers, scrambler history. Markers are not scrambled. -/
def decodeBlocks : Nat → Nat → BitVec 58 → Nat × Nat × Nat × Nat × BitVec 58
  | 0, _, h => (0, 0, 0, 0, h)
  | n + 1, x, h =>
    let p : BitVec 64 := BitVec.ofNat 64 (x / 4)
    let mark := isMarker x
    let d := if mark then (p, h) else descramble64 h p
    let r := decodeBlocks n (x / 2 ^ 66) d.2
    (d.1.toNat + 2 ^ 64 * r.1, x % 4 + 4 * r.2.1, r.2.2.1 + (headerBad (x % 4)).toNat, mark.toNat + 2 * r.2.2.2.1, r.2.2.2.2)

/-- 130-bit blocks of a word decoded, for the lane at position `k` of its group. -/
def decode130 (k : Nat) : Nat → Nat → BitVec 23 → Nat × Nat × Nat × BitVec 23
  | 0, _, h => (0, 0, 0, h)
  | n + 1, x, h =>
    let d := scramble130 k h (x % 2 ^ 130)
    let r := decode130 k n (x / 2 ^ 130) d.2
    (d.1 / 4 % 2 ^ 128 + 2 ^ 128 * r.1, x % 4 + 4 * r.2.1, r.2.2.1 + (headerBad (x % 4)).toNat, r.2.2.2)

/-- The position of a lane among its group's members; 0 for an unbonded one (log 121). -/
def lanePos (s : State) (l : Fin 24) : Nat := if bonded s l then (members s (groupOf s l)).findIdx (· == l) else 0

/-- One word of a mode without FEC (R98, R100). -/
def decodeWord (s : State) (l : Fin 24) (p : RxPart) : State × RxWord :=
  let v := s.lane l
  let w (data sbB cv : Nat) : RxWord :=
    { data := BitVec.ofNat 512 data, sbB := BitVec.ofNat 32 sbB, cv := cv, stamp := p.stamp, eidle := p.eidle }
  match rxMode s l with
  | 2 =>
    let d := decodeGroups s 56 0 p.line v.rx.rd
    (d.1.setLane l { v with rx := { v.rx with rd := d.2.2.2.2 } },
      w d.2.1 (d.2.2.1 + 64 * d.2.2.2.2.toNat) d.2.2.2.1)
  | 3 =>
    let d := decodeBlocks 8 p.line v.rx.hist
    (s.setLane l { v with rx := { v.rx with hist := d.2.2.2.2 } }, w d.1 (d.2.1 + 2 ^ 16 * d.2.2.2.1) d.2.2.1)
  | 4 =>
    let d := decode130 (lanePos s l) 4 p.line v.rx.lfsr
    (s.setLane l { v with rx := { v.rx with lfsr := d.2.2.2 } }, w d.1 d.2.1 d.2.2.1)
  | _ => (s, w p.line 0 0)

/-! FEC (R90, R94, R97). -/

/-- Symbols of a codeword. -/
def rsLength (kp : Bool) : Nat := 514 + rsParity kp

/-- The 514 message symbols of a received codeword, as bits, and what the decoder found; an uncorrectable codeword leaves free
values. -/
def fecMessage (s : State) (kp : Bool) (c : List Nat) : State × Nat × Option Nat :=
  match rsDecode kp c with
  | some (c, n) => (s, bits10 (c.take 514), some n)
  | none =>
    let d := s.drawMany 81
    (d.1, d.2 % 2 ^ 5140, none)

/-- A lane word from its 514 message bits: two 257-bit blocks that stand for four blocks each (R90, R98, R100). -/
def untranscodeWord (m : Nat) (t : DWord) (eidle : Bool) (cw : List (Option Nat)) : RxWord :=
  let b (i : Nat) : Nat := m / 2 ^ (257 * i) % 2 ^ 257
  let blk (i : Nat) : Nat := untranscode (b (i / 4)) (i % 4)
  { data := BitVec.ofNat 512 ((List.range 8).foldl (fun a i => a + blk i / 4 * 2 ^ (64 * i)) 0)
    sbB := BitVec.ofNat 32 ((List.range 8).foldl (fun a i => a + blk i % 4 * 4 ^ i + (isMarker (blk i)).toNat * 2 ^ (16 + i)) 0)
    stamp := t, eidle := eidle, codewords := cw
    cv := (transcodeBad (b 0)).toNat + (transcodeBad (b 1)).toNat }

/-- The line bits of parts, `n` bits of each, the first lowest. -/
def partBits (n : Nat) : List RxPart → Nat
  | [] => 0
  | p :: r => p.line % 2 ^ n + 2 ^ n * partBits n r

/-- The part that holds line bit `o`, and the stamp of that bit. -/
def partAt (s : State) (l n : Nat) (ps : List RxPart) (o : Nat) : DWord :=
  match ps[o / n]? with
  | some p => bitStamp s l p.stamp (o % n)
  | none => 0

/-- The codeword in ten parts of a lane that carries its own, as ten words. -/
def decodeOwn (s : State) (l : Fin 24) (ps : List RxPart) : State × List RxWord :=
  let mode := rxMode s l
  let kp := mode == 6
  let n := wordBits mode
  let r := fecMessage s kp (symbols10 (rsLength kp) (partBits n ps))
  (r.1, (List.range 10).map fun j =>
    let p := ps.getD j ⟨0, 0, false⟩
    untranscodeWord (r.2.1 / 2 ^ (514 * j)) (partAt s l n ps (514 * j)) p.eidle (if j = 9 then [r.2.2] else []))

/-- Where bit `b` of symbol `i` of codeword `c` of a group of `n` members lies: the member's place, and the line bit among
those of five parts. Symbols go round four FEC lanes, or the codewords of a pair go to sixteen PCS lanes whose bits the
members interleave (R94). -/
def symbolPlace (dist n : Nat) (order : List Nat) (kp : Bool) (c i b : Nat) : Nat × Nat :=
  if dist = 1 then (order.getD (i % 4) 0, 10 * (c * (rsLength kp / 4) + i / 4) + b)
  else
    let r := 16 / n
    let p := order.getD (pcsLane (c % 2) i) 0
    (p / r, (10 * (c / 2 * (rsLength kp / 8) + i / 8) + b) * r + p % r)

/-- The places of the FEC or PCS lanes as the markers gave them; in their own order where they gave none. -/
def laneOrder (g : Group) (dist : Nat) : List Nat :=
  let k := if dist = 1 then 4 else 16
  if (List.range k).all g.order.contains && g.order.length == k then g.order else List.range k

/-- Message bit `q` of word `j` onward lies at this codeword, symbol and bit of a group's stream. -/
def streamPlace (dist j : Nat) : Nat × Nat × Nat :=
  if dist = 1 then (j / 10, 514 * (j % 10) / 10, 514 * (j % 10) % 10)
  else
    let t := 514 * (j % 20) / 10
    (2 * (j / 20) + t % 2, t / 2, 514 * (j % 20) % 10)

/-- Two lists of symbols in turn. -/
def interleave : List Nat → List Nat → List Nat
  | a :: r, b :: t => a :: b :: interleave r t
  | _, _ => []

/-- Five parts of every member as the group's words (R94, R97, R102): `n` / 2 codewords, five words for each member. -/
def decodeGroup (s : State) (g : Nat) : State × List RxWord :=
  let ms := members s g
  let n := ms.length
  let dist := rxDist s g
  let mode := rxMode s (anchor s g)
  let kp := mode == 6
  let nb := wordBits mode
  let order := laneOrder (s.group g) dist
  let parts (m : Nat) : List RxPart := (s.lane (ms.getD m 0)).rx.parts.take 5
  let bits : List Nat := ms.map fun (l : Fin 24) => partBits nb ((s.lane l).rx.parts.take 5)
  let sym (c i : Nat) : Nat := (List.range 10).foldl (fun a b =>
    let p := symbolPlace dist n order kp c i b
    a + 2 ^ b * ((bits.getD p.1 0 / 2 ^ p.2) % 2)) 0
  let r := (List.range (n / 2)).foldl (fun (a : State × List Nat × List (Option Nat)) c =>
    let m := fecMessage a.1 kp ((List.range (rsLength kp)).map (sym c))
    (m.1, a.2.1 ++ [m.2.1], a.2.2 ++ [m.2.2])) (s, [], [])
  let stream : List Nat := if dist = 1 then r.2.1
    else (List.range (n / 4)).map fun p =>
      bits10 (interleave (symbols10 514 (r.2.1.getD (2 * p) 0)) (symbols10 514 (r.2.1.getD (2 * p + 1) 0)))
  let per := if dist = 1 then 10 else 20
  (r.1, (List.range (5 * n)).map fun j =>
    let q := streamPlace dist j
    let c := symbolPlace dist n order kp q.1 q.2.1 q.2.2
    let own := ((parts (j % n)).getD (j / n) ⟨0, 0, false⟩)
    let l := ms.getD c.1 0
    let ends := if j % per + 1 = per then (r.2.2.drop (j / per * (per / 10))).take (per / 10) else []
    untranscodeWord (stream.getD (j / per) 0 / 2 ^ (514 * (j % per)))
      (laneStamp s l (partAt s l nb (parts c.1) c.2)) own.eidle ends)

/-! Delivery. -/

/-- A word with its sideband and stamp handed to the capture port, which holds it for its delay (R21, R99, R102); in a far-end
loop of the PCS it is also sent back (R106). Where the word count begins: DESIGN CHOICE, log 119. -/
def deliverWord (s : State) (l : Fin 24) (w : RxWord) : State :=
  let g := groupOf s l
  let seq := if dealt s l then (s.group g).seq else (s.lane l).seq
  let h : HeldWord := ⟨w.data, sidebandA s l w (s.lane l).rx.missed seq, w.sbB, w.stamp⟩
  let s := if dealt s l then s.setGroup g { s.group g with seq := seq + 1 }
           else s.setLane l { s.lane l with seq := seq + 1 }
  let v := s.lane l
  let echo := if s.rdf .LOOP_CTRL 0 3 (pageOf (.lane l)) = 4 then v.echoWords ++ [⟨w.data, w.sbB⟩] else v.echoWords
  s.setLane l { v with held := v.held ++ [h], last := w.stamp, rx := { v.rx with missed := false }, echoWords := echo }

/-- A codeword is whole: its words wait for delivery, and what the decoder found is counted. A codeword begins with the first
word after the lane's lock, and before that with the first after the receiver's start (DESIGN CHOICE, log 151). -/
def fecOwn (s : State) (l : Fin 24) : State :=
  if (s.lane l).rx.parts.length < 10 then s else
  let r := decodeOwn s l ((s.lane l).rx.parts.take 10)
  let s := r.2.foldl (fun s w => countWord s l w) r.1
  let v := s.lane l
  s.setLane l { v with rx := { v.rx with parts := v.rx.parts.drop 10, out := v.rx.out ++ r.2 } }

/-- Every member has its part of the group's codewords: their words wait to be dealt. -/
def fecGroup (s : State) (g : Nat) : State :=
  let ms := members s g
  if ms.any (fun (l : Fin 24) => (s.lane l).rx.parts.length < 5) then s else
  let r := decodeGroup s g
  let n := ms.length
  let s := (r.2.zip (List.range r.2.length)).foldl (fun s w => countWord s (ms.getD (w.2 % n) 0) w.1) r.1
  let s := ms.foldl (fun s (l : Fin 24) =>
    let v := s.lane l
    s.setLane l { v with rx := { v.rx with parts := v.rx.parts.drop 5 } }) s
  s.setGroup g { s.group g with out := (s.group g).out ++ r.2 }

/-- The word whose turn it is on this lane (R97). -/
def dealWord (s : State) (l : Fin 24) : State :=
  let g := groupOf s l
  let v := s.group g
  match v.out with
  | [] => s
  | w :: r =>
    if (members s g).getD (v.turn % (members s g).length) 0 = l then
      deliverWord (s.setGroup g { v with out := r, turn := v.turn + 1 }) l w
    else s

/-- Line bits of one word's time go through the receive PCS (R90): a word comes out, in the RS modes one decoded before. Members
of a group with another distribution than 0b00 that is not ALIGNED decode codewords of their own, which the anchor's page
counts (DESIGN CHOICE, log 151); words decoded so are delivered before any that is dealt. -/
def laneReceive (s : State) (l : Fin 24) (p : RxPart) : State :=
  if rsMode (rxMode s l) then
    let v := s.lane l
    let s := s.setLane l { v with rx := { v.rx with parts := v.rx.parts ++ [p] } }
    let s := if dealt s l then fecGroup s (groupOf s l) else fecOwn s l
    let v := s.lane l
    match v.rx.out with
    | [] => if dealt s l then dealWord s l else s
    | w :: r => deliverWord (s.setLane l { v with rx := { v.rx with out := r } }) l { w with stamp := laneStamp s l w.stamp }
  else
    let r := decodeWord s l p
    let s := countWord r.1 l r.2
    deliverWord s l { r.2 with stamp := laneStamp s l r.2.stamp }

/-- The measured offset lets the CDR lock (R78). -/
def ppmLocks (ppm : BitVec 16) : Bool := decide (-6000 ≤ ppm.toInt ∧ ppm.toInt ≤ 200)

/-- Words lost before this one: the elastic buffer overruns only above 0 ppm (R78). -/
def lostWords (s : State) (l : Fin 24) (w : LaneWord) : Nat := if 0 < (s.lane l).ppm.toInt then w.lost else 0

/-- The bits that reach a lane's receiver in the time of a word, and the line symbols that they came as: those of the balls, or
in a near-end loop the oldest of those that its transmitter sent (R106, R107). -/
def arriving (s : State) (l : Fin 24) (w : LaneWord) : State × Option (Nat × Nat) :=
  let n := wordBits (rxMode s l)
  let v := s.lane l
  let d := s.rdf .LOOP_CTRL 0 3 (pageOf (.lane l))
  if d = 1 ∨ d = 2 then
    if v.loop.n < n then (s, none)
    else
      let x := v.loop.x % 2 ^ n
      (s.setLane l { v with loop := ⟨v.loop.n - n, v.loop.x / 2 ^ n⟩ }, some (if d = 1 then x else fromLine s l n x, x))
  else (s, some (fromLine s l n w.line.toNat, w.line.toNat))

/-- `LANE_WORD` (R77, R78, R88 to R100, R102, R106, R110): a cycle for which no bits have come carries no word. -/
def execLaneWord (l : Fin 24) (w : LaneWord) (s : State) : Host.Outcome State Fault Refusal :=
  done (if laneRuns s l then
    match arriving s l w with
    | (s, none) => s
    | (s, some (x, line)) =>
      let v := s.lane l
      let s := s.setLane l { v with
        eidle := w.eidle
        echo := if s.rdf .LOOP_CTRL 0 3 (pageOf (.lane l)) = 3 then v.echo ++ [⟨wordBits (rxMode s l), line⟩]
          else v.echo }
      let s := prbsWord s l (wordBits (rxMode s l)) x w
      if rxMode s l = 0 then s else
      let n := lostWords s l w
      let s := if n = 0 then s else
        let v := s.lane l
        ((s.setLane l { v with rx := { v.rx with missed := true } }).count .LANE_OVERRUN_CNT n l).evt (.lane l) 1
      laneReceive s l ⟨x, w.stamp, w.eidle⟩
  else s)

/-- What a receiver has under way is lost with its lock. -/
def PcsRx.restart (v : PcsRx) : PcsRx := { missed := v.missed }

/-- The receiver of a lane is powered down or restarts: its locks fall, and its group leaves ALIGNED (R72, R89, R96, R107). -/
def laneUnlock (s : State) (l : Fin 24) : State :=
  let v := s.lane l
  let s := s.setLane l { v with cdr := false, lock := false, prbsSync := false, chk := {}, rx := v.rx.restart, loop := {}
                                echo := [], echoWords := [] }
  let s := if v.cdr || v.lock then s.evt (.lane l) 0 else s
  let s := if v.prbsSync then s.evt (.lane l) 3 else s
  let g := groupOf s l
  if bonded s l && (s.group g).state == .aligned then groupTo s g .search else s

/-! The transmit PCS (R87, R90). -/

/-- `LANE_PCS.TXMODE`. -/
def txMode (s : State) (l : Nat) : Nat := s.rdf .LANE_PCS 4 4 l

/-- The idle of a mode (R87): data bytes of 0, idle control blocks, or an idle data block. What an idle block holds is
PRESUMED, log 120. -/
def idleWord (mode : Nat) : TxWord :=
  if mode = 3 ∨ rsMode mode = true then
    ⟨BitVec.ofNat 512 ((List.range 8).foldl (fun a i => a + 0x1E * 2 ^ (64 * i)) 0), 0x5555⟩
  else if mode = 4 then ⟨0, 0xAA⟩
  else ⟨0, 0⟩

/-- The code groups of nine-bit symbols, and the running disparity. A symbol that the code does not have gives a free value. -/
def encodeGroups (s : State) : Nat → Nat → Bool → State × Nat × Bool
  | 0, _, rd => (s, 0, rd)
  | n + 1, x, rd =>
    let v : BitVec 9 := BitVec.ofNat 9 x
    let e : State × Nat × Bool := if codes9 v then (s, encode10 v rd) else (s.draw.1, s.draw.2.toNat % 1024, rd)
    let r := encodeGroups e.1 n (x / 512) e.2.2
    (r.1, e.2.1 + 1024 * r.2.1, r.2.2)

/-- 66-bit blocks of a word encoded, and the scrambler history; markers are not scrambled. -/
def encodeBlocks (sbB : Nat) : Nat → Nat → Nat → BitVec 58 → Nat × BitVec 58
  | 0, _, _, h => (0, h)
  | n + 1, i, x, h =>
    let p := x % 2 ^ 64
    let e := if sbB / 2 ^ (16 + i) % 2 = 1 then (p, h) else scrambleBits 64 h p
    let r := encodeBlocks sbB n (i + 1) (x / 2 ^ 64) e.2
    (sbB / 4 ^ i % 4 + 4 * e.1 + 2 ^ 66 * r.1, r.2)

/-- 130-bit blocks of a word encoded, for the lane at position `k` of its group. -/
def encode130 (k sbB : Nat) : Nat → Nat → Nat → BitVec 23 → Nat × BitVec 23
  | 0, _, _, h => (0, h)
  | n + 1, i, x, h =>
    let e := scramble130 k h (sbB / 4 ^ i % 4 + 4 * (x % 2 ^ 128))
    let r := encode130 k sbB n (i + 1) (x / 2 ^ 128) e.2
    (e.1 + 2 ^ 130 * r.1, r.2)

/-- One word of a mode without FEC as bits. -/
def encodeWord (s : State) (l : Fin 24) (w : TxWord) : State × Nat :=
  let v := s.lane l
  match txMode s l with
  | 2 =>
    let e := encodeGroups s 56 w.data.toNat v.txp.rd
    (e.1.setLane l { v with txp := { v.txp with rd := e.2.2 } }, e.2.1)
  | 3 =>
    let e := encodeBlocks w.sbB.toNat 8 0 w.data.toNat v.txp.hist
    (s.setLane l { v with txp := { v.txp with hist := e.2 } }, e.1)
  | 4 =>
    let e := encode130 (lanePos s l) w.sbB.toNat 4 0 w.data.toNat v.txp.lfsr
    (s.setLane l { v with txp := { v.txp with lfsr := e.2 } }, e.1)
  | _ => (s, w.data.toNat)

/-- The 514 message bits of a word: two 257-bit blocks. -/
def transcodeWord (w : TxWord) : Nat :=
  let blk (i : Nat) : Nat := w.sbB.toNat / 4 ^ i % 4 + 4 * (w.data.toNat / 2 ^ (64 * i) % 2 ^ 64)
  transcode ((List.range 4).map blk) + 2 ^ 257 * transcode ((List.range 4).map fun i => blk (i + 4))

/-- The message bits of words. -/
def messageBits : List TxWord → Nat
  | [] => 0
  | w :: r => transcodeWord w + 2 ^ 514 * messageBits r

/-- A number cut into `k` parts of `n` bits. -/
def cutBits (n : Nat) : Nat → Nat → List LineBits
  | 0, _ => []
  | k + 1, x => ⟨n, x % 2 ^ n⟩ :: cutBits n k (x / 2 ^ n)

/-- Ten words of a lane that carries its own codewords go into one. -/
def encodeOwn (s : State) (l : Fin 24) : State :=
  let v := s.lane l
  if v.txp.words.length < 10 then s else
  let kp := txMode s l == 6
  let c := bits10 (rsEncode kp (symbols10 514 (messageBits (v.txp.words.take 10))))
  s.setLane l { v with txp := { v.txp with words := v.txp.words.drop 10
                                           out := v.txp.out ++ cutBits (wordBits (txMode s l)) 10 c } }

/-- Five words of every member go into the group's codewords, and each member's line bits into its slots (R90, R94). -/
def encodeGroup (s : State) (g : Nat) : State :=
  let ms := members s g
  let n := ms.length
  if ms.any (fun (l : Fin 24) => (s.lane l).txp.words.length < 5) then s else
  let mode := txMode s (anchor s g)
  let dist := fecDist s g mode
  let kp := mode == 6
  let nb := wordBits mode
  let order := List.range (if dist = 1 then 4 else 16)
  let words := (List.range (5 * n)).map fun j => (s.lane (ms.getD (j % n) 0)).txp.words.getD (j / n) ⟨0, 0⟩
  let msgs : List (List Nat) := if dist = 1 then
      (List.range (n / 2)).map fun c => symbols10 514 (messageBits ((words.drop (10 * c)).take 10))
    else (List.range (n / 2)).map fun c =>
      let m := symbols10 1028 (messageBits ((words.drop (20 * (c / 2))).take 20))
      (List.range 514).map fun i => m.getD (2 * i + c % 2) 0
  let cws := msgs.map (rsEncode kp)
  let bits (m : Nat) : Nat := ((List.range (n / 2)).map fun c =>
    ((List.range (rsLength kp)).map fun i =>
      (List.range 10).foldl (fun a b =>
        let p := symbolPlace dist n order kp c i b
        if p.1 = m then a + 2 ^ p.2 * ((cws.getD c []).getD i 0 / 2 ^ b % 2) else a) 0).sum).sum
  (List.range n).foldl (fun s m =>
    let l := ms.getD m 0
    let v := s.lane l
    s.setLane l { v with txp := { v.txp with words := v.txp.words.drop 5, out := v.txp.out ++ cutBits nb 5 (bits m) } }) s

/-- A word goes into the transmit PCS. -/
def txPush (s : State) (l : Fin 24) (w : TxWord) : State :=
  if rsMode (txMode s l) then
    let v := s.lane l
    let s := s.setLane l { v with txp := { v.txp with words := v.txp.words ++ [w] } }
    if bonded s l && fecDist s (groupOf s l) (txMode s (anchor s (groupOf s l))) != 0 then encodeGroup s (groupOf s l)
    else encodeOwn s l
  else
    let e := encodeWord s l w
    let v := e.1.lane l
    e.1.setLane l { v with txp := { v.txp with out := v.txp.out ++ [⟨wordBits (txMode s l), e.2⟩] } }

/-- Bits followed by more. -/
def LineBits.join (a b : LineBits) : LineBits := ⟨a.n + b.n, a.x + 2 ^ a.n * b.x⟩

/-- `n` bits leave for the balls, and in a near-end loop for the receiver (R106). -/
def sendBits (s : State) (l : Fin 24) (n x : Nat) : State :=
  let line := toLine s l n x
  let v := s.lane l
  match s.rdf .LOOP_CTRL 0 3 (pageOf (.lane l)) with
  | 1 => s.setLane l { v with tx := .bits line n, loop := v.loop.join ⟨n, x % 2 ^ n⟩ }
  | 2 => s.setLane l { v with tx := .squelch, loop := v.loop.join ⟨n, line.toNat⟩ }
  | _ => s.setLane l { v with tx := .bits line n }

/-- The oldest line bits of the transmit PCS leave; while a first codeword is being made there are none (R105).
What is under way at a change of TXMODE, SRC, RATE or EN stays and is sent first (DESIGN CHOICE, log 151). -/
def txPop (s : State) (l : Fin 24) : State :=
  let v := s.lane l
  match v.txp.out with
  | [] => s.setLane l { v with tx := .none }
  | x :: r => sendBits (s.setLane l { v with txp := { v.txp with out := r } }) l x.n x.x

/-- The PRBS generator's bits for a slot (R86, R88); where a sequence begins is a free value, but not all 0 (log 126). -/
def sendPrbs (s : State) (l : Fin 24) : State :=
  let r := s.rd .LANE_PRBS l
  let v := s.lane l
  let g : State × BitVec 31 := match v.txp.gen with
    | some h => (s, h)
    | none => (s.draw.1, BitVec.ofNat 31 s.draw.2.toNat ||| 1)
  let x := prbsRun (fld r 0 3) 512 g.2
  let s := g.1.setLane l { v with txp := { v.txp with gen := some x.2 } }
  sendBits s l 512 (polarity (bit r 9) 512 x.1)

/-- `LANE_STATUS` as it reads (R110). -/
def laneStatus (s : State) (l : Nat) : DWord :=
  let v := s.lane l
  let st := if bonded s l then (match (s.group (groupOf s l)).state with
    | .idle => 0 | .search => 1 | .aligned => 2 | .mismatch => 3) else 0
  BitVec.ofNat 64 <|
    v.cdr.toNat + 2 * (lockOf s l).toNat + 4 * (laneAligned s l).toNat + 8 * v.eidle.toNat + 16 * v.adaptDone.toNat +
    32 * v.prbsSync.toNat + 64 * st + 65536 * v.ppm.toNat

/-! Adaptation, equaliser, eye scan. -/

/-- `LANE_EQ_DATA` as it reads: the element that `LANE_EQ_IDX` selects (R82). -/
def eqData (s : State) (l : Nat) : DWord := (tget 0 (s.lane l).eq (s.rdf .LANE_EQ_IDX 0 8 l)).setWidth 64

/-- The equaliser elements from index `i` on. -/
def setEq (t : Tbl Nat (BitVec 8)) (i : Nat) : List (BitVec 8) → Tbl Nat (BitVec 8)
  | [] => t
  | v :: r => setEq (tset id 0 t i v) (i + 1) r

/-- `LANE_ADAPT.MODE` written: a mode other than frozen starts adaptation, from its beginning also where it had begun or the
mode is the one that stood (R80; DESIGN CHOICE, log 132). -/
def adaptMode (s : State) (l : Fin 24) : State :=
  if s.rdf .LANE_ADAPT 0 2 l = 0 then s.setLane l { s.lane l with adapting := false }
  else s.setLane l { s.lane l with adapting := true, adaptDone := false }

/-- `ADAPT_DONE` (R80, R83): mode once freezes, and a low eye sets bit 2 at most once per epoch. -/
def execAdaptDone (l : Fin 24) (eye : BitVec 8) (eq : List (BitVec 8)) (s : State) : Host.Outcome State Fault Refusal :=
  done (if laneRuns s l = true ∧ (s.lane l).adapting = true then
    let once := s.rdf .LANE_ADAPT 0 2 l = 1
    let v := s.lane l
    let s := s.setLane l { v with adaptDone := true, adapting := !decide once, eye := eye, eq := setEq v.eq 0 (eq.take 26) }
    let s := if once then s.wrf .LANE_ADAPT 0 2 0 l else s
    if eye.toNat < s.rdf .LANE_MARGIN_THR 0 8 l ∧ v.marginSet = false then
      (s.setLane l { s.lane l with marginSet := true }).evt (.lane l) 2
    else s
  else s)

/-- `ADAPT_TIMEOUT` (R81): the lane keeps adapting. -/
def execAdaptTimeout (l : Fin 24) (s : State) : Host.Outcome State Fault Refusal :=
  done (if laneRuns s l = true ∧ (s.lane l).adapting = true ∧ (s.lane l).adaptDone = false then
    (s.fault (.lane l) 0x0102).evt (.lane l) 2 else s)

/-- `EYE_SCAN_DONE` (R84). -/
def execEyeScanDone (l : Fin 24) (errs : Nat) (s : State) : Host.Outcome State Fault Refusal :=
  done (if laneRuns s l = true ∧ bit (s.rd .LANE_EYE_RESULT l) 30 = true then
    (s.wr .LANE_EYE_RESULT (BitVec.ofNat 64 (min errs 0xFFFFFF + 2 ^ 31)) l).evt (.lane l) 2 else s)

/-- The counters of a lane page at 0 (R110). -/
def laneClearCounts (s : State) (l : Fin 24) : State :=
  let s := ([Reg.LANE_PRBS_BITS, .LANE_PRBS_ERR, .LANE_CV_CNT, .LANE_OVERRUN_CNT, .LANE_TX_UNDERRUN]).foldl
    (fun s r => s.wr r 0 l) s
  let s := (List.range 17).foldl (fun s i => s.wr .LANE_FEC_HIST 0 l i) s
  s.setLane l { s.lane l with fecBase := [] }

/-- The histogram of the epoch that ends, taken into `LANE_FEC_HSNAP` (R110, R463). -/
def fecSnapshot (s : State) (l : Fin 24) : State :=
  (List.range 17).foldl (fun s i =>
    let now := s.rd .LANE_FEC_HIST l i
    let s := s.wr .LANE_FEC_HSNAP (now - tget 0 (s.lane l).fecBase i) l i
    s.setLane l { s.lane l with fecBase := tset id 0 (s.lane l).fecBase i now }) s

/-- A lane's once-per-epoch conditions start again (R83, R89, R92). -/
def laneEpoch (s : State) (l : Fin 24) : State :=
  s.setLane l { s.lane l with
    errs := 0, errsSet := false, prbsErrs := 0, prbsErrsSet := false, marginSet := false }

end Sys2Proof.Machine
end

