-- ==== Sys2Proof/Machine/Channels.lean ====
section
/-! DEFINITION. Memory channels (chapter 07): configuration, address mapping, states, error records, loop-backs. -/

namespace Sys2Proof.Machine

/-- What a channel holds beside its registers. -/
def State.mc (s : State) (c : Nat) : Mc := tget {} s.mcs c
/-- A channel's holding set. -/
def State.setMc (s : State) (c : Nat) (m : Mc) : State := { s with mcs := tset id {} s.mcs c m }

/-- `MC_STATUS.STATE` (R227): 0 OFF, 1 INIT, 2 TRAINING, 3 READY, 4 SELF_REFRESH, 5 FAILED. -/
def mcState (s : State) (c : Nat) : Nat := s.rdf .MC_STATUS 0 3 c
/-- `MC_STATUS.CONTENT_VALID`. -/
def mcValid (s : State) (c : Nat) : Bool := bit (s.rd .MC_STATUS c) 3

/-- Logical ranks of one DIMM: physical ranks times 3DS height (R222, R241). -/
def dimmRanks (d : DWord) : Nat := 2 ^ fld d 6 2 * 2 ^ fld d 8 2
/-- Capacity of a DIMM in GiB: its logical ranks times the capacity of one (R222). -/
def dimmGiB (d : DWord) : Nat :=
  dimmRanks d * (if bit d 3 then 4 * 2 ^ fld d 4 2 else 8 * 2 ^ fld d 4 2)
/-- Logical ranks of a channel. -/
def mcRanks (s : State) (c : Nat) : Nat :=
  (if bit (s.rd .MC_DIMM0 c) 0 then dimmRanks (s.rd .MC_DIMM0 c) else 0) +
  (if bit (s.rd .MC_DIMM1 c) 0 then dimmRanks (s.rd .MC_DIMM1 c) else 0)
/-- Capacity of a channel in GiB (`MC_STATUS` [15:8]). -/
def mcGiB (s : State) (c : Nat) : Nat :=
  (if bit (s.rd .MC_DIMM0 c) 0 then dimmGiB (s.rd .MC_DIMM0 c) else 0) +
  (if bit (s.rd .MC_DIMM1 c) 0 then dimmGiB (s.rd .MC_DIMM1 c) else 0)

/-- A number is a power of two. -/
def isPow2 (n : Nat) : Bool := (List.range 20).any fun k => n == 2 ^ k

/-- The first rule of R222 that a channel's configuration breaks, 0 where it is valid. -/
def mcBroken (s : State) (c : Nat) : Nat :=
  let d0 := s.rd .MC_DIMM0 c
  let d1 := s.rd .MC_DIMM1 c
  let cfg := s.rd .MC_CFG c
  let p0 := bit d0 0
  let p1 := bit d1 0
  let heightOk (d : DWord) : Bool := (fld d 8 2 == 0) == (fld d 1 2 < 2)
  if !(!p1 || fld d0 1 9 == fld d1 1 9) then 1
  else if !(p0 && (p1 == bit cfg 3)) then 2
  else if !(2 ≤ mcRanks s c && mcRanks s c ≤ 16 && isPow2 (mcRanks s c)) then 3
  else if !(8 ≤ mcGiB s c && mcGiB s c ≤ 128 && isPow2 (mcGiB s c)) then 4
  else if p1 && 5 < fld cfg 0 3 then 5
  else if mcGiB s c != mcGiB s 0 then 6
  else if !((!p0 || heightOk d0) && (!p1 || heightOk d1)) then 7
  else 0

/-- Channels in the interleave set, log₂ (R223). -/
def nchLog (s : State) : Nat := s.rdf .MC_CFG 6 2 0
/-- The interleave granularity, log₂ (R223). -/
def granLog (s : State) : Nat := if bit (s.rd .DEV_MAP) 0 then 8 else 12
/-- Populated DDR4 capacity in bytes (R223). -/
def ddrBytes (s : State) : Nat := 2 ^ nchLog s * mcGiB s 0 * 2 ^ 30

/-- The channel and channel address of a DDR4 address (R223). -/
def ddrRoute (s : State) (a : Nat) : Nat × Nat :=
  let g := granLog s
  ((a >>> g) % 2 ^ nchLog s, ((a >>> (g + nchLog s)) <<< g) + a % 2 ^ g)

/-- How the channel of a DDR4 address answers an access (R38, R226). -/
def ddrStatus (s : State) (a : Nat) : Status :=
  if ddrBytes s ≤ a then .addressError
  else
    let c := (ddrRoute s a).1
    if !s.powered (.dom (15 + c)) || mcState s c == 0 then .domainOff
    else if mcState s c == 3 && s.rdf .LOOP_CTRL 0 3 (0x300 + c) == 0 then .ok
    else .addressError

/-- The channel of a DDR4 address is READY for the Gallery's own paths (R226, R636). -/
def ddrReady (s : State) (a : Nat) : Bool := ddrStatus s a == .ok

/-- The global address of a channel address, `ddrRoute` turned round (R223). -/
def ddrGlobal (s : State) (c x : Nat) : Nat :=
  let g := granLog s
  ((x >>> g) <<< (g + nchLog s)) + (c <<< g) + x % 2 ^ g

/-- A place in the DRAM of a channel (R224). -/
structure DramPlace where
  byte : Nat
  group : Nat
  column : Nat
  bank : Nat
  rank : Nat
  row : Nat
  deriving DecidableEq, Repr

/-- Where a channel address lies in the DRAM (R224). -/
def dramOf (s : State) (c chAddr : Nat) : DramPlace :=
  let n := max 1 (mcRanks s c)
  { byte := chAddr % 64
    group := chAddr / 2 ^ 6 % 4
    column := chAddr / 2 ^ 8 % 128 * 8
    bank := chAddr / 2 ^ 15 % 4
    rank := chAddr / 2 ^ 17 % n
    row := chAddr / 2 ^ 17 / n }

/-! Error correction (R232). -/

/-- What error correction makes of what it reads: nothing to do, the device of each corrected codeword, or an error that it
detects. -/
inductive EccFound where
  | ok | corrected (devs : List Nat) | uncorrectable
  deriving DecidableEq, Repr

/-- SEC-DED over one codeword: one flipped bit is corrected; log 136 for more than two. -/
def secDed (e : Ecc) : EccFound :=
  match e.flips with
  | [] => .ok
  | x :: r => if r.all (· == x) then .corrected [0] else .uncorrectable

/-- The devices of each codeword of a burst in which something is flipped: with x8 devices a beat is a codeword and every
flipped bit of it counts, with x4 devices two beats are one and errors of one device count once. -/
def wrongUnits (x8 : Bool) (e : Ecc) : List (List Nat) :=
  if x8 then (List.range 8).map fun w =>
    ((List.range 72).filter fun i => e.flips.any fun x => x.val == 72 * w + i).map (· / 8)
  else (List.range 4).map fun w =>
    (List.range 18).filter fun d => e.flips.any fun x => x.val / 144 == w && x.val % 72 / 4 == d

/-- What the code that `MC_DIMM0.WIDTH` selects finds in a burst (R232). -/
def burstEcc (s : State) (c : Nat) (e : Ecc) : EccFound :=
  if e.flips = [] then .ok else
  let l := wrongUnits (bit (s.rd .MC_DIMM0 c) 3) e
  if l.any fun u => decide (1 < u.length) then .uncorrectable else .corrected (l.filterMap List.head?)

/-! Stored words that stand uncorrectable. -/

/-- The address of the ECC word that holds byte `a`: 64-byte bursts of DDR4, 8-byte words elsewhere. -/
def eccWord (a : Nat) : Nat := if a < 2 ^ 40 then a / 64 * 64 else a / 8 * 8
/-- The size of the ECC word at `a`. -/
def eccSize (a : Nat) : Nat := if a < 2 ^ 40 then 64 else 8

/-- The ECC words of the `n` bytes at `a` that stand uncorrectable, lowest first. -/
def badWords (s : State) (a n : Nat) : List Nat :=
  (s.bad.filter fun e => decide (e.1 < a + n) && decide (a < e.1 + eccSize e.1)).map (·.1)

/-- Some ECC word of the `n` bytes at `a` stands uncorrectable. -/
def badIn (s : State) (a n : Nat) : Bool := badWords s a n != []

/-- The word at `a` is left uncorrectable. -/
def setBad (s : State) (a : Nat) : State := { s with bad := tset id false s.bad (eccWord a) true }

/-- Writing all of an uncorrectable word makes it good; writing a part leaves it (R234, R455). -/
def clearBad (s : State) (a n : Nat) : State :=
  { s with bad := s.bad.filter fun e => !(decide (a ≤ e.1) && decide (e.1 + eccSize e.1 ≤ a + n)) }

/-! Reports. -/

/-- A corrected error (R233). -/
def mcCorrected (s : State) (c : Fin 8) (chAddr dev : Nat) : State :=
  let s := (s.count .MC_CE_CNT 1 c).wr .MC_CE_ADDR (BitVec.ofNat 64 chAddr) c
  let s := (s.wrf .MC_ERR_INFO 0 5 dev c).wrf .MC_ERR_INFO 8 4 (dramOf s c chAddr).rank c
  s.evt (.mc c) 0

/-- The corrected codewords of a burst reported. -/
def mcCorrectedAll (s : State) (c : Fin 8) (chAddr : Nat) (devs : List Nat) : State :=
  devs.foldl (fun s d => mcCorrected s c chAddr d) s

/-- An uncorrectable error (R234): the first address since the count was read stands. -/
def mcUncorrectable (s : State) (c : Fin 8) (chAddr : Nat) : State :=
  let s := if s.rd .MC_UE_CNT c = 0 then s.wr .MC_UE_ADDR (BitVec.ofNat 64 chAddr) c
           else s.wrf .MC_ERR_INFO 16 1 1 c
  (s.count .MC_UE_CNT 1 c).evt (.mc c) 1

/-- Entry to a state; READY and FAILED set `EVT_STATUS` bit 2 (R227). -/
def mcEnter (s : State) (c : Fin 8) (st : Nat) : State :=
  let s := s.wrf .MC_STATUS 0 3 st c
  if st = 3 ∨ st = 5 then s.evt (.mc c) 2 else s

/-- The DDR4 bytes of a channel are gone: DRAM `RESET_N` was asserted or power lost; they read as bytes that nothing has
written (log 8). -/
def ddrLose (s : State) (c : Nat) : State :=
  let mine (a : Nat) : Bool := decide (a < 2 ^ 40) && (ddrRoute s a).1 == c
  { s with mem := s.mem.filter fun e => !mine e.1, bad := s.bad.filter fun e => !mine e.1 }

/-- The channel goes OFF with `CONTENT_VALID` cleared (R227). -/
def mcOff (s : State) (c : Fin 8) : State :=
  ddrLose ((s.wrf .MC_STATUS 3 1 0 c).wrf .MC_STATUS 0 3 0 c) c

/-- `BLK_CTRL.EN` of a channel set (R222, R227). -/
def mcEnable (s : State) (c : Fin 8) : State :=
  match mcState s c with
  | 0 =>
    if mcBroken s c = 0 then (ddrLose s c |>.wrf .MC_STATUS 3 1 0 c).wrf .MC_STATUS 0 3 1 c
    else (mcEnter s c 5).fault (.mc c) 0x0100 (mcBroken s c)
  | 4 => (s.setMc c { s.mc c with short := true }).wrf .MC_STATUS 0 3 2 c
  | _ => s

/-- A channel in self-refresh leaves it through a short training (R227). -/
def mcWake (s : State) (c : Fin 8) : State :=
  if mcState s c = 4 then (s.setMc c { s.mc c with short := true }).wrf .MC_STATUS 0 3 2 c else s

/-- Reset K and Standby entry put a READY channel, and one retraining, into self-refresh; one without contents starts again
from INIT (R236). -/
def mcSleep (s : State) (c : Fin 8) : State :=
  if mcState s c = 3 ∨ (mcState s c = 2 ∧ mcValid s c = true) then s.wrf .MC_STATUS 0 3 4 c
  else if mcState s c = 2 then s.wrf .MC_STATUS 0 3 1 c
  else s

/-- Reset E or W (R236): as `mcSleep`, but a channel without contents or FAILED goes OFF. -/
def mcResetEW (s : State) (c : Fin 8) : State :=
  if mcState s c = 3 ∨ (mcState s c = 2 ∧ mcValid s c = true) then s.wrf .MC_STATUS 0 3 4 c
  else if mcState s c = 4 ∨ mcState s c = 0 then s
  else mcOff s c

/-- An accepted write of `n` bytes is lost before it is issued: its bytes hold what was there before, which the model does not
keep, and the others what they hold (R237, log 135). -/
def loseWrite (s : State) (a n : Nat) : State :=
  (List.range ((n + 7) / 8)).foldl (fun s i =>
    let r := s.draw
    r.1.putBytes (a + 8 * i) (leBytes (min 8 (n - 8 * i)) r.2.toNat)) s

/-- The writes to channel `c` among those that had been accepted and not issued. -/
def loseUnissued (s : State) (c : Fin 8) (l : List (Nat × Nat)) : State :=
  (l.filter fun x => decide (x.1 + x.2 ≤ ddrBytes s) && (ddrRoute s x.1).1 == c.val).foldl (fun s x => loseWrite s x.1 x.2) s

/-- Reset B (R237): `kept` says that self-refresh entry completed and the DIMM supplies stayed in range. Its fault is
recorded once the registers have been reset. -/
def mcResetB (s : State) (c : Fin 8) (kept : Bool) (unissued : List (Nat × Nat)) : State :=
  if mcState s c = 3 ∨ mcState s c = 4 ∨ (mcState s c = 2 ∧ mcValid s c = true) then
    if kept then (if mcState s c = 3 then loseUnissued s c unissued else s).wrf .MC_STATUS 0 3 4 c
    else (mcOff s c).wrf .MC_STATUS 16 1 1 c
  else if mcState s c = 0 then s
  else mcOff s c

/-- One action of `MC_CMD` (R227, R238); outside the state that the table gives it, it has no effect (log 9). -/
def mcCommand (s : State) (c : Fin 8) (v : Nat) : State :=
  let s := if v % 2 = 1 ∧ mcState s c = 3 then
      (s.setMc c { s.mc c with short := false }).wrf .MC_STATUS 0 3 2 c else s
  let s := if v / 2 % 2 = 1 ∧ mcState s c = 3 then s.wrf .MC_STATUS 0 3 4 c else s
  let s := if v / 4 % 2 = 1 ∧ mcState s c = 4 ∧ s.en (.mc c) = true then mcWake s c else s
  if v / 8 % 2 = 1 ∧ mcState s c = 3 ∧ s.rdf .LOOP_CTRL 0 3 (pageOf (.mc c)) ≠ 0 then
    (s.wrf .MC_STATUS 5 1 1 c).wr .MC_LOOP_STATUS 0 c
  else s

/-- `CHANNEL_INIT_DONE` (R227): INIT goes to TRAINING (full). -/
def execChannelInitDone (c : Fin 8) (s : State) : Host.Outcome State Fault Refusal :=
  done (if mcState s c = 1 ∧ s.live (.mc c) = true then
    (s.setMc c { s.mc c with short := false }).wrf .MC_STATUS 0 3 2 c else s)

/-- The delays that training found, stored in `MC_TRAIN`; read and write centring alone leave the VrefDQ step. -/
def storeTraining (s : State) (c : Fin 8) : List (Fin 72 × BitVec 25) → State
  | [] => s
  | (i, v) :: r =>
    let s := if (s.mc c).short then s.wrf .MC_TRAIN 0 18 v.toNat c i else s.wr .MC_TRAIN (v.setWidth 64) c i
    storeTraining s c r

/-- A training runs a step, numbered from 0 in R242's order: a short one runs read and write centring only (R227). -/
def trains (s : State) (c : Fin 8) (step : Fin 5) : Bool := !(s.mc c).short || step.val == 2 || step.val == 3

/-- `TRAINING_DONE` (R227, R242): READY with `CONTENT_VALID` set, or FAILED with TRAIN_FAIL. -/
def execTrainingDone (c : Fin 8) (r : Trained) (s : State) : Host.Outcome State Fault Refusal :=
  done (if mcState s c = 2 ∧ s.live (.mc c) = true then
    match r with
    | .pass dq => mcEnter ((storeTraining s c dq).wrf .MC_STATUS 3 1 1 c) c 3
    | .fail step rank =>
      if trains s c step ∧ rank.val < mcRanks s c then (mcEnter s c 5).fault (.mc c) 0x0101 (step + 1 + 256 * rank) else s
  else s)

/-- `CAPAR_RETRY` (R227): the retry counts; the third failure in a row makes a READY channel FAILED. -/
def execCaparRetry (c : Fin 8) (fails : Bool) (s : State) : Host.Outcome State Fault Refusal :=
  done (if mcState s c = 3 ∧ s.live (.mc c) = true ∧ bit (s.rd .MC_CFG c) 8 = true then
    let n := if fails then (s.mc c).caparFails + 1 else 0
    let s := s.count .MC_CAPAR_CNT 1 c
    if n < 3 then s.setMc c { s.mc c with caparFails := n }
    else (mcEnter (s.setMc c { s.mc c with caparFails := 0 }) c 5).fault (.mc c) 0x0102
  else s)

/-- The first data line whose delay would move by more than 1/8 UI, 8 steps (R229). -/
def farMove (s : State) (c : Fin 8) : List (Fin 72 × BitVec 9) → Option (Fin 72)
  | [] => none
  | (i, v) :: r =>
    let old := s.rdf .MC_TRAIN 0 9 c i
    if 8 < v.toNat - old ∨ 8 < old - v.toNat then some i else farMove s c r

/-- How far a pass moves the delay that it moves most. -/
def farthest (s : State) (c : Fin 8) (delays : List (Fin 72 × BitVec 9)) : Nat :=
  delays.foldl (fun m d => let old := s.rdf .MC_TRAIN 0 9 c d.1
    max m (max (d.2.toNat - old) (old - d.2.toNat))) 0

/-- The largest movement since the last ledger pass (R565). -/
def noteMove (s : State) (c : Fin 8) (n : Nat) : State := s.setMc c { s.mc c with moved := max (s.mc c).moved n }

/-- The read delays of a tracking pass stored. -/
def storeDelays (s : State) (c : Fin 8) : List (Fin 72 × BitVec 9) → State
  | [] => s
  | (i, v) :: r => storeDelays (s.wrf .MC_TRAIN 0 9 v.toNat c i) c r

/-- `TRACKING_PASS` (R229). -/
def execTrackingPass (c : Fin 8) (delays : List (Fin 72 × BitVec 9)) (hot : Bool) (s : State) :
    Host.Outcome State Fault Refusal :=
  done (if mcState s c = 3 ∧ s.live (.mc c) = true then
    let s := match farMove s c delays with
      | some i => (s.fault (.mc c) 0x0104 i).evt (.mc c) 2
      | none => storeDelays (noteMove s c (farthest s c delays)) c delays
    if bit (s.rd .MC_STATUS c) 4 = hot then s else (s.wrf .MC_STATUS 4 1 hot.toNat c).evt (.mc c) 2
  else s)

/-! Arbitration (R230, R231, R638). -/

/-- Bursts of two counts. -/
def plusBursts (a b : Bursts) : Bursts :=
  ⟨a.capture + b.capture, a.spill + b.spill, a.maint + b.maint, a.port0 + b.port0, a.port1 + b.port1, a.gallery + b.gallery⟩
/-- What of one count is left without the other. -/
def lessBursts (a b : Bursts) : Bursts :=
  ⟨a.capture - b.capture, a.spill - b.spill, a.maint - b.maint, a.port0 - b.port0, a.port1 - b.port1, a.gallery - b.gallery⟩
/-- Bursts of the round-robin class. -/
def otherBursts (a : Bursts) : Nat := a.port0 + a.port1 + a.gallery
/-- Bursts of all classes. -/
def allBursts (a : Bursts) : Nat := a.capture + a.spill + a.maint + otherBursts a

/-- The class of an access (R230). -/
def accessBursts (x : McAccess) (n : Nat) : Bursts :=
  match x with
  | .captureTail | .overwriteHeader => { capture := n }
  | .spillRead | .spillWrite => { spill := n }
  | .refresh | .zq | .tracking | .scrub => { maint := n }
  | .corridor p => if p = 0 then { port0 := n } else { port1 := n }
  | .headFill | .bulkRead | .rewindRead | .otherWrite => { gallery := n }

/-- The bursts of accesses, by class. -/
def classBursts (l : List (McAccess × Nat)) : Bursts := l.foldl (fun w x => plusBursts w (accessBursts x.1 x.2)) {}

/-- One slot of the round-robin class, for the first of its three sources from `turn` on that waits; the source after it has
the next turn. -/
def roundRobin (w : Bursts) (turn : Nat) : Bursts × Nat :=
  let has (i : Nat) : Bool := (if i = 0 then w.port0 else if i = 1 then w.port1 else w.gallery) != 0
  let i := if has (turn % 3) then turn % 3 else if has ((turn + 1) % 3) then (turn + 1) % 3 else (turn + 2) % 3
  (if i = 0 then { port0 := 1 } else if i = 1 then { port1 := 1 } else { gallery := 1 }, (i + 1) % 3)

/-- `n` slots of the round-robin class. -/
def robins : Nat → Bursts → Nat → Bursts × Nat
  | 0, _, turn => ({}, turn)
  | n + 1, w, turn =>
    if otherBursts w = 0 then ({}, turn) else
    let r := roundRobin w turn
    let q := robins n (lessBursts w r.1) r.2
    (plusBursts r.1 q.1, q.2)

/-- The bursts that a window of 256 slots serves, and the next turn: capture and spill up to their shares, then in the reserve
slots the maintenance that is due and the round-robin class; slots left over pass to capture, spill, the round-robin class
(R230). -/
def windowServes (w : Bursts) (cap spill turn : Nat) : Bursts × Nat :=
  let shares : Bursts := { capture := min w.capture cap, spill := min w.spill spill }
  let reserve := 256 - cap - spill
  let maint := min w.maint reserve
  let r1 := robins (reserve - maint) w turn
  let a : Bursts := plusBursts { shares with maint := maint } r1.1
  let c := min (w.capture - a.capture) (256 - allBursts a)
  let a := plusBursts a { capture := c }
  let p := min (w.spill - a.spill) (256 - allBursts a)
  let a := plusBursts a { spill := p }
  let r2 := robins (256 - allBursts a) (lessBursts w a) r1.2
  (plusBursts a r2.1, r2.2)

/-- `ARBITRATION_WINDOW` (R230, R231, R638): the shares as they stand take effect for the window that starts, which in READY
serves the bursts that wait at its start or arrive in its course (log 137). -/
def execArbitrationWindow (a : Arrivals) (s : State) : Host.Outcome State Fault Refusal :=
  done (if s.live (.mc a.chan) then
    let m := s.mc a.chan
    let cap := s.rdf .MC_SHARE 0 8 a.chan
    let spill := s.rdf .MC_SHARE 8 8 a.chan
    if mcState s a.chan = 3 then
      let w := plusBursts m.waiting (classBursts a.accesses)
      let r := windowServes w cap spill m.turn
      s.setMc a.chan { m with winCap := cap, winSpill := spill, waiting := lessBursts w r.1, served := r.1, turn := r.2 }
    else s.setMc a.chan { m with winCap := cap, winSpill := spill, waiting := {}, served := {} }
  else s)

/-! Scrubbing (R235). -/

/-- Patrol scrub reads a burst: a corrected one is written back, an uncorrectable one stays as it is; both are reported. -/
def scrubRead (s : State) (c : Fin 8) (chAddr : Nat) (e : Ecc) : State :=
  let a := ddrGlobal s c chAddr
  if badIn s a 64 then mcUncorrectable s c chAddr
  else match burstEcc s c e with
    | .ok => s
    | .corrected l => mcCorrectedAll s c chAddr l
    | .uncorrectable => mcUncorrectable (setBad s a) c chAddr

/-- `SCRUB_BURST` (R235): the next burst is read; a pass that ends counts and sets bit 3. -/
def execScrubBurst (c : Fin 8) (e : Ecc) (s : State) : Host.Outcome State Fault Refusal :=
  done (if mcState s c = 3 ∧ s.live (.mc c) = true ∧ bit (s.rd .MC_SCRUB_CTRL c) 0 = true then
    let n := (s.mc c).scrubAt
    let bursts := max 1 (mcGiB s c * 2 ^ 24)
    let s := scrubRead s c (64 * n) e
    if n + 1 < bursts then
      (s.setMc c { s.mc c with scrubAt := n + 1 }).wrf .MC_SCRUB_STATUS 16 16 ((n + 1) * 65536 / bursts) c
    else
      (((s.setMc c { s.mc c with scrubAt := 0 }).wrf .MC_SCRUB_STATUS 16 16 0 c).countf .MC_SCRUB_STATUS 0 16 1 c).evt
        (.mc c) 3
  else s)

/-- `MC_LOOP_DONE` (R238, R239). -/
def execMcLoopDone (c : Fin 8) (firstDq : Option (Fin 72)) (fails : Nat) (s : State) : Host.Outcome State Fault Refusal :=
  done (if bit (s.rd .MC_STATUS c) 5 = true ∧ s.up (.mc c) = true then
    let dq := match firstDq with
      | some i => i.val
      | none => 0xFF
    let fail := if fails = 0 then 0 else 2
    (s.wrf .MC_STATUS 5 1 0 c).wr .MC_LOOP_STATUS
      (BitVec.ofNat 64 (1 + fail + 256 * dq + 65536 * min fails 65535)) c
  else s)

end Sys2Proof.Machine
end

