-- ==== Sys2Proof/Machine/Net.lean ====
section
/-! DEFINITION. The Corridor as its requesters see it (chapter 17): endpoints, destinations, routes, boundary ports, and the
plain memory behind it: DDR4, scratchpad banks, core local memories (R37, R38, R441 to R443). -/

namespace Sys2Proof.Machine

/-- A local port of a router. -/
structure Endpoint where
  router : Nat
  port : Nat
  deriving DecidableEq, Repr

/-- The endpoint of a requester (R491). -/
def endpointOf : Requester → Endpoint
  | .host => ⟨59, 2⟩ | .debug => ⟨61, 2⟩ | .bsc => ⟨60, 2⟩ | .gallery => ⟨56, 2⟩ | .sched => ⟨57, 2⟩
  | .loader => ⟨62, 2⟩ | .heath => ⟨58, 2⟩
  | .core k => ⟨48 + k / 4, k % 4⟩
  | .tileMem t => ⟨t, 0⟩ | .hall t => ⟨t, 1⟩ | .bankDma b => ⟨b, 4⟩

/-- What local port `p` of router `r` leads to (R491). -/
def portPlace (r p : Nat) : Place :=
  if p = 4 then .main
  else if r < 48 then (if p < 2 ∨ p = 7 then .dom (r % 8 / 2) else .main)
  else if r < 56 then (if p < 4 ∨ p = 7 then .dom (4 + (r - 48) / 2) else .main)
  else if p < 2 ∨ p = 7 then .dom (15 + (r - 56))
  else if p = 2 then
    (if r = 57 then .dom 4 else if r = 58 then .dom 8 else if r = 59 then .dom 23 else .main)
  else .main

/-- A requester has power to send (R504): its domain is on, or drains. -/
def requesterOn (s : State) (q : Requester) : Bool :=
  match portPlace (endpointOf q).router (endpointOf q).port with
  | .dom d => s.domSt d == .on || s.domSt d == .draining
  | _ => true

/-- The requests of requesters that `p` places are forgotten: their responses are discarded (R504, R498). -/
def dropReqsOf (s : State) (p : Place → Bool) : State :=
  { s with reqs := s.reqs.filter fun r => !p (portPlace (endpointOf r.who).router (endpointOf r.who).port) }

/-- What lies at a global address (R37). -/
inductive Target where
  | ddr | bank (b off : Nat) | core (k off : Nat) | reg (off : Nat) | unbacked
  deriving DecidableEq, Repr

/-- The global base of the scratchpad banks (R37). -/
def bankBase : Nat := 0x010000000000
/-- The global base of the core local memories (R37). -/
def coreBase : Nat := 0x010100000000
/-- The global base of register space (R37). -/
def regBase : Nat := 0x020000000000

/-- Instruction, X or Y memory at an offset of a core's window (R37). -/
def coreMemOff (o : Nat) : Bool := o < 0x8000 || (0x10000 ≤ o && o < 0x30000)

/-- The target of a global address (R37, R38). -/
def targetOf (a : Nat) : Target :=
  if a < 2 ^ 40 then .ddr
  else if bankBase ≤ a ∧ a < bankBase + 2 ^ 24 then .bank ((a - bankBase) / 2 ^ 18) (a % 2 ^ 18)
  else if coreBase ≤ a ∧ a < coreBase + 2 ^ 25 then
    (if coreMemOff (a % 2 ^ 20) then .core ((a - coreBase) / 2 ^ 20) (a % 2 ^ 20) else .unbacked)
  else if regBase ≤ a ∧ a < regBase + 0x1300000 then .reg (a - regBase)
  else .unbacked

/-- The router whose leaf serves a register-space offset (R491). -/
def leafRouter (o : Nat) : Nat :=
  let p := o / 0x1000
  if p < 0x010 then 60
  else if p < 0x100 then 62
  else if p < 0x200 then p - 0x100
  else if p < 0x280 then 48 + (p - 0x200) / 4
  else if p < 0x300 then 48 + (p - 0x280)
  else if p < 0x400 then 56 + (p - 0x300)
  else if p < 0x500 then 56
  else if p < 0x600 then 57
  else if p < 0x700 then 48 + (p - 0x600) / 4
  else if p < 0x800 then p - 0x700
  else if p < 0x900 then (o - 0x800000) / 0x100
  else if p < 0xB00 then 58
  else if p < 0xD00 then 61
  else if p < 0xF00 then 60
  else if p < 0x1000 then 59
  else (o - 0x1000000) / 0x10000

/-- The pages of a block of `n` instances, one page each. -/
def oneOf (n : Nat) (mk : Fin n → Block) (i : Nat) : Option Block := if h : i < n then some (mk ⟨i, h⟩) else none

/-- The block, page index and register group of the page that holds offset `o` (R40 to R42). -/
def pageAt (o : Nat) : Option (Block × Nat × Grp) :=
  let p := o / 0x1000
  let one (b : Option Block) (g : Grp) : Option (Block × Nat × Grp) := b.map fun b => (b, 0, g)
  if p < 4 then some (if p = 2 then .banks else .devctl, p, if p = 1 then .ldr else .dev)
  else if 0x010 ≤ p ∧ p < 0x012 then some (.evc, p - 0x010, .evc)
  else if 0x100 ≤ p ∧ p < 0x200 then one (oneOf 48 .tile (p - 0x100)) .tile
  else if 0x200 ≤ p ∧ p < 0x280 then one (oneOf 24 .lane (p - 0x200)) .lane
  else if 0x280 ≤ p ∧ p < 0x300 then one (oneOf 6 .quad (p - 0x280)) .quad
  else if 0x300 ≤ p ∧ p < 0x400 then one (oneOf 8 .mc (p - 0x300)) .mc
  else if 0x400 ≤ p ∧ p < 0x404 then some (.gallery, p - 0x400, .gal)
  else if 0x410 ≤ p ∧ p < 0x420 then some (.gallery, p - 0x410, .gq)
  else if 0x500 ≤ p ∧ p < 0x502 then some (.sched, p - 0x500, .sch)
  else if 0x510 ≤ p ∧ p < 0x520 then some (.sched, p - 0x510, .flw)
  else if 0x600 ≤ p ∧ p < 0x700 then one (oneOf 32 .core (p - 0x600)) .core
  else if 0x700 ≤ p ∧ p < 0x800 then one (oneOf 64 .router (p - 0x700)) .rtr
  else if 0x800 ≤ p ∧ p < 0x804 then some (.banks, p - 0x800, .spb)
  else if 0x900 ≤ p ∧ p < 0x902 then some (.gpio, p - 0x900, .gpio)
  else if 0xA00 ≤ p ∧ p < 0xA04 then some (.heath, p - 0xA00, .hth)
  else if 0xB00 ≤ p ∧ p < 0xB02 then some (.stair, p - 0xB00, .str)
  else if p = 0xC00 then some (.epochs, 0, .epo)
  else if 0xD00 ≤ p ∧ p < 0xD04 then some (.health, p - 0xD00, .hlt)
  else if 0xE00 ≤ p ∧ p < 0xE02 then some (.security, p - 0xE00, .sec)
  else if p = 0xF00 then some (.link, 0, .rlk)
  else if 0x1000 ≤ p ∧ o % 0x10000 < 0x4000 then
    (oneOf 48 .tile ((p - 0x1000) / 16)).map fun b => (b, p % 16, .ctxw)
  else none

/-- The destination of an access by a requester at router `r` (R492); none where nothing lies at the address (R37, R38, R42). -/
def destOf (s : State) (r a : Nat) : Option Endpoint :=
  match targetOf a with
  | .ddr => if ddrBytes s ≤ a then none else some ⟨56 + (ddrRoute s a).1, r % 2⟩
  | .bank b _ => some ⟨b, 4⟩
  | .core k _ => some ⟨48 + k / 4, k % 4⟩
  | .reg o => (pageAt o).map fun _ => ⟨leafRouter o % 64, 7⟩
  | .unbacked => none

/-- The block whose page holds a global address of register space. -/
def blockAt (a : Nat) : Option Block :=
  match targetOf a with
  | .reg o => (pageAt o).map fun x => x.1
  | _ => none

/-! Routes (R499, R500). -/

/-- Link or local port bit `i` of a router's active enables. -/
def portOn (s : State) (r i : Nat) : Bool := bit (s.rd .CRT_PORT_EN r) i

/-- The link out of router `r` (0 N, 1 E, 2 S, 3 W), enabled by both of its routers. -/
def linkOn (s : State) (r d : Nat) : Bool :=
  match d with
  | 0 => 8 ≤ r && portOn s r 0 && portOn s (r - 8) 2
  | 1 => r % 8 < 7 && portOn s r 1 && portOn s (r + 1) 3
  | 2 => r < 56 && portOn s r 2 && portOn s (r + 8) 0
  | _ => 0 < r % 8 && portOn s r 3 && portOn s (r - 1) 1

/-- The neighbour in a direction. -/
def neighbour (r d : Nat) : Nat :=
  match d with
  | 0 => r - 8 | 1 => r + 1 | 2 => r + 8 | _ => r - 1

/-- The direction from `r` toward `d`, row first (XY) or column first (YX). -/
def direction (r d : Nat) (yx : Bool) : Nat :=
  let h := if r % 8 < d % 8 then 1 else 3
  let v := if r / 8 < d / 8 then 2 else 0
  if yx then (if r / 8 = d / 8 then h else v) else (if r % 8 = d % 8 then v else h)

/-- A bit of a detour table turns over (R507). -/
def detourUpset (s : State) (x : DetourUpset) : State :=
  let m : DWord := 1 <<< x.at_.val
  let s := if x.second then s else s.wr .CRT_DETOUR (s.rd .CRT_DETOUR x.router ^^^ m) x.router
  { s with detourDiff := tset id 0 s.detourDiff x.router.val (tget 0 s.detourDiff x.router.val ^^^ m) }

/-- A router goes by its detour table: the two copies agree, and it has not fallen back (R507). -/
def detoursHold (s : State) (r : Nat) : Bool := !(bit (s.rd .CRT_STATUS r) 1) && tget 0 s.detourDiff r == 0

/-- A router compares the two copies of its detour table: a difference makes it fall back (R507). -/
def detourCompare (s : State) (r : Nat) : State :=
  if h : r < 64 then
    if tget 0 s.detourDiff r = 0 ∨ bit (s.rd .CRT_STATUS r) 1 = true then s
    else ((s.orIn .CRT_STATUS 2 r).fault (.router ⟨r, h⟩) 0x0102).orIn .CRT_CAUSE 8 r
  else s

/-- A router on a packet's way: the input that it comes in by (links N, E, S, W, 4 local), and whether it is in class 0 there, where
detour tables apply. -/
structure Hop where
  router : Nat
  input : Nat
  tabled : Bool
  deriving DecidableEq, Repr

/-- The way of a packet from router `r` on to endpoint `d`, and the router that refuses it, if one does (R499, R500). -/
def walk (s : State) (d : Endpoint) : Nat → Nat → Nat → Bool → List Hop × Option Nat
  | 0, _, _, _ => ([], some d.router)
  | n + 1, r, input, yx =>
    let hop : Hop := ⟨r, input, !yx⟩
    let yx := yx || (bit (s.rd .CRT_DETOUR r) d.router && detoursHold s r)
    if r = d.router then ([hop], if portOn s r (8 + d.port) then none else some r)
    else
      let k := direction r d.router yx
      if linkOn s r k then
        let w := walk s d n (neighbour r k) ((k + 2) % 4) yx
        (hop :: w.1, w.2)
      else ([hop], some r)

/-- The way of a packet that enters the mesh at router `r`. -/
def wayFrom (s : State) (r : Nat) (d : Endpoint) : List Hop × Option Nat := walk s d 64 r 4 false

/-- The router that refuses a packet between two endpoints: `none` where the route is usable. -/
def refusedAt (s : State) (a d : Endpoint) : Option Nat :=
  if portOn s a.router (8 + a.port) then (wayFrom s a.router d).2 else some a.router

/-- The routers on the way of a packet compare their detour tables as they use them (R507). -/
def compareOn (s : State) (hops : List Hop) : State :=
  (hops.filter fun h => h.tabled).foldl (fun s h => detourCompare s h.router) s

/-! Packets (R493 to R495). -/

/-- What a packet asks or brings (R495). -/
inductive PacketCmd where
  | rd | wr | wrp | amoadd | swap | cas | rspData | rspNodata | dbell
  deriving DecidableEq, Repr

/-- `CMD` (R495). -/
def PacketCmd.code : PacketCmd → Nat
  | .rd => 0 | .wr => 1 | .wrp => 2 | .amoadd => 3 | .swap => 4 | .cas => 5 | .rspData => 6 | .rspNodata => 7 | .dbell => 8

/-- Its response carries data: a read's or an atomic's (R495). -/
def PacketCmd.reads : PacketCmd → Bool
  | .rd | .amoadd | .swap | .cas => true
  | _ => false

/-- It draws no response (R495). -/
def PacketCmd.posted : PacketCmd → Bool
  | .wrp | .dbell => true
  | _ => false

/-- A packet's header in its parts (R493). -/
structure Packet where
  cmd : PacketCmd
  addr : Nat
  tag : Nat := 0
  units : Nat := 0
  size : Nat := 0
  rlen : Nat := 0
  status : Nat := 0
  token : Bool := false
  deriving DecidableEq, Repr

/-- Data units that carry `n` bytes (R494). -/
def unitsOf (n : Nat) : Nat := (n + 15) / 16

/-- `SIZE` of an access of `n` bytes (R493). -/
def sizeCode (n : Nat) : Nat :=
  match n with
  | 1 => 0 | 2 => 1 | 4 => 2 | 8 => 3
  | _ => 4

/-- A request of `n` bytes at `a` (R493, R495): hall spill and undo log travel on TOKEN. -/
def requestOf (q : Requester) (c : PacketCmd) (a n : Nat) (tag : Nat := 0) : Packet :=
  { cmd := c, addr := a, tag := tag, units := if c = .rd ∨ c = .dbell then 0 else unitsOf n, size := sizeCode n
    rlen := if c = .rd ∧ 16 ≤ n then unitsOf n else 0
    token := match q with
      | .hall _ => true
      | _ => false }

/-- The response with a status to a request for `n` bytes. -/
def responseTo (reads : Bool) (a n : Nat) (st : Status) (tag : Nat := 0) : Packet :=
  { cmd := if reads then .rspData else .rspNodata, addr := a, tag := tag
    units := if reads && (st == .ok || st == .poison) then unitsOf n else 0
    size := sizeCode n, status := st.code }

/-- `VNET` (R493, R495). -/
def Packet.vnet (p : Packet) : Nat :=
  match p.cmd with
  | .wrp | .dbell => 2
  | .rspData | .rspNodata => 1
  | _ => if p.token then 3 else 0

/-- Parity over group `i` of a header unit (R493). -/
def groupParity (w : BitVec 128) (i : Nat) : Bool := (List.range 15).foldl (fun a j => a ^^ w.getLsbD (15 * i + j)) false

/-- The header unit of a packet between two endpoints (R493). -/
def headerUnit (p : Packet) (a d : Endpoint) (dtr : Bool) : BitVec 128 :=
  let ends := a.port + 2 ^ 3 * (a.router / 8) + 2 ^ 6 * (a.router % 8) + 2 ^ 9 * d.port + 2 ^ 12 * (d.router / 8) +
    2 ^ 15 * (d.router % 8)
  let w : BitVec 128 := BitVec.ofNat 128 (p.addr % 2 ^ 48 + 2 ^ 48 * (p.tag % 2 ^ 12) + 2 ^ 60 * p.units + 2 ^ 65 * p.cmd.code +
    2 ^ 69 * p.vnet + 2 ^ 71 * ends + 2 ^ 89 * p.size + 2 ^ 92 * p.rlen + 2 ^ 97 * p.status + 2 ^ 101 * dtr.toNat)
  (List.range 8).foldl (fun v i => if groupParity w i then v ||| 1 <<< (120 + i) else v) w

/-- `CMD` and `VNET` go together (R495). -/
def pairOk (cmd vnet : Nat) : Bool :=
  if cmd < 2 then vnet == 0 || vnet == 3 else if cmd == 2 || cmd == 8 then vnet == 2
  else if cmd < 6 then vnet == 0 else cmd < 8 && vnet == 1

/-- A router takes a header in: its parity, its reserved values and its pair of `CMD` and `VNET` are right (R493, R495). -/
def unitOk (w : BitVec 128) : Bool :=
  (List.range 8).all (fun i => groupParity w i == w.getLsbD (120 + i)) && pairOk (fld w 65 4) (fld w 69 2) &&
  fld w 60 5 ≤ 16 && fld w 89 3 ≤ 4 && fld w 97 4 ≤ 6 && fld w 102 18 == 0

/-- A router drops a header that it received by an input (R495). -/
def headerError (s : State) (h : Hop) : State :=
  if r : h.router < 64 then
    ((s.count .CRT_HDR_ERR_CNT 1 h.router).fault (.router ⟨h.router, r⟩) 0x0100 h.input).orIn .CRT_CAUSE 0x10 h.router
  else s

/-- A router finds a half of a data unit uncorrectable (R497). -/
def unitSpoilt (s : State) (h : Hop) : State :=
  if r : h.router < 64 then (s.fault (.router ⟨h.router, r⟩) 0x0101 h.input).orIn .CRT_CAUSE 0x20 h.router else s

/-- The first router on a packet's way that drops its header, as bits of it have turned over (R495). An error that leaves a
header in order is not modelled (log 71). -/
def dropHop (hops : List Hop) (p : Packet) (a d : Endpoint) (x : Leg) : Option Hop :=
  match x.hdr with
  | none => none
  | some m => hops.find? fun h => h.router == m.1.val && !unitOk (headerUnit p a d (!h.tabled) ^^^ m.2)

/-- The routers that a packet has passed when it is dropped, or all of its way. -/
def passed (hops : List Hop) : Option Hop → List Hop
  | none => hops
  | some z => hops.takeWhile fun h => h != z

/-- What the routers find in a packet's data units (R497). -/
def checkUnits (s : State) (hops : List Hop) (n : Nat) (x : Leg) : State :=
  if n = 0 ∨ x = {} then s else
  let s := (x.fixed.filter fun r => hops.any fun h => h.router == r.val).foldl (fun s r => s.count .CRT_ECC_CE_CNT 1 r) s
  hops.foldl (fun s h => if x.spoilt.any fun r => r.val == h.router then unitSpoilt s h else s) s

/-- A unit of the packet arrives poisoned (R497). -/
def poisoned (hops : List Hop) (n : Nat) (x : Leg) : Bool := n != 0 && hops.any fun h => x.spoilt.any fun r => r.val == h.router

/-! Accesses as the Corridor carries them (R492 to R500, R504). -/

/-- Where the page of a block at a register-space offset is powered (R579): the banks' own pages lie in MAIN. -/
def placeAt (o : Nat) (b : Block) : Place := if b = .banks ∧ 0x800000 ≤ o then .main else placeOf b

/-- The power domain of what lies at an address (R504). -/
def targetPlace (s : State) (a : Nat) : Place :=
  match targetOf a with
  | .ddr => .dom (15 + (ddrRoute s a).1)
  | .core k _ => .dom (4 + k / 8)
  | .reg o => ((blockAt a).map (placeAt o)).getD .aon
  | _ => .main

/-- Whether a target accepts accesses: its power domain is on (R504). -/
def targetUp (s : State) (a : Nat) : Bool :=
  match targetOf a with
  | .bank n _ => !s.asleep && s.rdf .SPB_STATUS 0 2 n == 0
  | .unbacked => true
  | _ => s.powered (targetPlace s a)

/-- The always-on register path of Standby serves the host's accesses to always-on pages (R588). -/
def standbyServes (s : State) (q : Requester) (a : Nat) : Bool :=
  match targetOf a with
  | .reg _ => q == .host && (blockAt a).isSome && targetPlace s a == .aon
  | _ => false

/-- How far a request comes: its own interface answers it; a router drops its header, and no answer comes; a router answers it;
its target takes it in, whole or with a poisoned unit. -/
inductive Reach where
  | own (st : Status)
  | gone
  | stop (router : Nat) (st : Status)
  | target (d : Endpoint) (bad : Bool)
  deriving DecidableEq, Repr

/-- A request on its way, or a posted packet, which is dropped and counted where it would be answered (R492, R495, R497, R499,
R500, R504, R507), and the counts that it leaves; in Standby only the always-on path is there (R588). -/
def carry (s : State) (q : Requester) (p : Packet) (x : Transit := {}) : State × Reach :=
  let e := endpointOf q
  match destOf s e.router p.addr with
  | none => (s, .own (if s.asleep then .domainOff else .addressError))
  | some d =>
    if s.asleep then (s, if standbyServes s q p.addr then .target d false else .own .domainOff) else
    let s := x.upsets.foldl detourUpset s
    let refusals : Reg := if p.cmd.posted then .CRT_DROP_POSTED else .CRT_REFUSED_CNT
    if portOn s e.router (8 + e.port) = false then (s.count refusals 1 e.router, .own .routeRefused) else
    let w := wayFrom s e.router d
    let z := dropHop w.1 p e d x.there
    let s := checkUnits (compareOn s (passed w.1 z)) (passed w.1 z) p.units x.there
    match z, w.2 with
    | some h, _ => (headerError s h, .gone)
    | none, some r => (s.count refusals 1 r, .stop r .routeRefused)
    | none, none =>
      if targetUp s p.addr then (s, .target d (poisoned w.1 p.units x.there))
      else if p.cmd.posted then ((s.count .CRT_DROP_POSTED 1 d.router).orIn .CRT_CAUSE 1 d.router, .stop d.router .domainOff)
      else (s.count .CRT_DOMOFF_CNT 1 d.router, .stop d.router .domainOff)

/-- The routers on the way of a response from router `r` compare their detour tables (R507). -/
def compareBack (s : State) (q : Requester) (r : Nat) (p : Packet) (x : Transit) : State :=
  if s.asleep then s else
  let e := endpointOf q
  let w := wayFrom s r e
  compareOn s (passed w.1 (dropHop w.1 p ⟨r, 0⟩ e x.back))

/-- A request on its way, and the routers that will bring its answer. -/
def approach (s : State) (q : Requester) (p : Packet) (x : Transit := {}) : State × Reach :=
  let c := carry s q p x
  let answer := responseTo p.cmd.reads p.addr 16 .ok
  match c.2 with
  | .stop r _ => (compareBack c.1 q r answer x, c.2)
  | .target d _ => (compareBack c.1 q d.router answer x, c.2)
  | _ => c

/-- The outstanding request of a requester with a tag. -/
def reqOf (s : State) (q : Requester) (tag : BitVec 12) : Option Req := s.reqs.find? fun r => r.who == q && r.tag == tag

/-- The first tag from `n` on that a requester has free, `fuel` looked at (log 36). -/
def freeTag (s : State) (q : Requester) : Nat → Nat → Option (BitVec 12)
  | 0, _ => none
  | fuel + 1, n => if (reqOf s q (BitVec.ofNat 12 n)).isNone then some (BitVec.ofNat 12 n) else freeTag s q fuel (n + 1)

/-- A request without an answer in time (R498): with a time-out it completes with TIMEOUT; its tag stays in use until a late
response comes, and for ever where the answer is lost. -/
def unanswered (s : State) (q : Requester) (lost : Bool) : State × Status :=
  let e := (endpointOf q).router
  let s := match freeTag s q 4096 0 with
    | some tag =>
      { s with reqs := s.reqs ++ [{ who := q, tag := tag, reads := true, status := .timeout, lost := lost, late := true }] }
    | none => s
  if s.rdf .CRT_RSP_TIMEOUT 0 16 e = 0 then (s, .noAnswer) else (s.orIn .CRT_CAUSE 0x40 e, .timeout)

/-- The router that refuses a response from a router, or from one of its local ports, to a requester (R500). -/
def backRefused (s : State) (q : Requester) (r : Nat) (port : Option Nat) : Option Nat :=
  if (port.map fun p => portOn s r (8 + p)).getD true then (wayFrom s r (endpointOf q)).2 else some r

/-- A response on its way back (R495, R497, R500): what its requester sees, or nothing where the response is lost. -/
def comesBack (s : State) (q : Requester) (r : Nat) (port : Option Nat) (p : Packet) (st : Status) (x : Leg) :
    State × Option Status :=
  let e := endpointOf q
  let w := wayFrom s r e
  let z := dropHop w.1 p ⟨r, port.getD 0⟩ e x
  let s := checkUnits s (passed w.1 z) p.units x
  match z with
  | some h => (headerError s h, none)
  | none =>
    match backRefused s q r port with
    | some k => (s.count .CRT_DROP_RSP 1 k, none)
    | none => (s, some (if poisoned w.1 p.units x then .poison else st))

/-- The answer to an access as its requester sees it: without one, or with one that is late, it waits for its time-out (R498). -/
def reply (s : State) (q : Requester) (r : Nat) (port : Option Nat) (p : Packet) (st : Status) (x : Transit := {}) :
    State × Status :=
  if s.asleep then (s, st) else
  let c := comesBack s q r port p st x.back
  match c.2 with
  | none => unanswered c.1 q true
  | some st => if x.late ∧ c.1.rdf .CRT_RSP_TIMEOUT 0 16 (endpointOf q).router ≠ 0 then unanswered c.1 q false else (c.1, st)

/-- One access of `n` bytes at `a`, to its target and back; the target performs `act`, or nothing of a packet with a poisoned unit
(R497). An answer other than OK and DATA_POISON brings no data (R38). -/
def access (s : State) (q : Requester) (c : PacketCmd) (a n : Nat) (x : Transit) (act : State → State × Status × List Byte) :
    State × Status × List Byte :=
  let k := approach s q (requestOf q c a n) x
  match k.2 with
  | .own st => (k.1, st, [])
  | .gone =>
    let u := unanswered k.1 q true
    (u.1, u.2, [])
  | .stop r st =>
    let y := reply k.1 q r none (responseTo c.reads a n st) st x
    (y.1, y.2, [])
  | .target d bad =>
    let r := if bad then (k.1, .poison, []) else act k.1
    let y := reply r.1 q d.router (some d.port) (responseTo c.reads a n r.2.1) r.2.1 x
    (y.1, y.2, if y.2 = .ok ∨ y.2 = .poison then r.2.2 else [])

/-! Scratchpad banks (R441 to R443). -/

/-- A configuration reader (R442). -/
def configReader : Requester → Bool
  | .heath | .loader | .bsc => true
  | _ => false

/-- A requester that acts as the owner of bank `b` (R441, R442). -/
def bankOwner (s : State) (q : Requester) (b : Nat) : Bool :=
  let o := s.rd .SPB_OWNER b
  match q with
  | .bankDma n => n.val == b
  | .core k => fld o 0 3 == 1 && fld o 8 6 == k.val
  | .tileMem t => fld o 0 3 == 2 && fld o 8 6 == t.val
  | .host => fld o 0 3 == 4
  | _ => false

/-- An access of `n` bytes at `a` has a form that a bank accepts (R443). -/
def bankShape (a n : Nat) : Bool :=
  (n == 1 || n == 2 || n == 4 || n == 8 || (n % 16 == 0 && 16 ≤ n && n ≤ 256)) &&
  a % (if n < 16 then max n 1 else 16) == 0 && a / 2 ^ 18 == (a + n - 1) / 2 ^ 18

/-- The answer of plain memory to an access of `n` bytes, before its data (R38, R226, R442, R443). -/
def memStatus (s : State) (q : Requester) (a n : Nat) (write : Bool) : Status :=
  match targetOf a with
  | .ddr => ddrStatus s a
  | .bank b _ =>
    if s.rdf .SPB_STATUS 0 2 b ≠ 0 then .domainOff
    else if bankShape a n && (bankOwner s q b || bit (s.rd .SPB_OWNER b) 16 || (configReader q && !write)) then .ok
    else .addressError
  | .core k _ => if s.powered (.dom (4 + k / 8)) then .ok else .domainOff
  | _ => .addressError

/-- Bytes stored at `a`, with their check bits. -/
def store (s : State) (a : Nat) (bs : List Byte) : State := (clearBad s a bs.length).putBytes a bs

/-- The report of the uncorrectable word at `a` (R234, R455). -/
def reportBad (s : State) (a : Nat) : State :=
  match targetOf a with
  | .ddr =>
    let r := ddrRoute s a
    if h : r.1 < 8 then mcUncorrectable s ⟨r.1, h⟩ (r.2 / 64 * 64) else s
  | .bank b off =>
    let s := (s.count .SPB_UE_CNT 1 b).wr .SPB_UE_ADDR (BitVec.ofNat 64 off) b
    (s.fault .banks 0x0100 b off).evt .banks 2
  | _ => s

/-- The reports of an uncorrectable read of the `n` bytes at `a`: each bad burst of DDR4, elsewhere the first bad word. -/
def reportBads (s : State) (a n : Nat) : State :=
  let l := badWords s a n
  (if a < 2 ^ 40 then l else l.take 1).foldl reportBad s

/-- What the code of the word at `a` finds in it (R232, R410, R455). -/
def eccFinds (s : State) (a : Nat) (e : Ecc) : EccFound :=
  match targetOf a with
  | .ddr => burstEcc s (ddrRoute s a).1 e
  | _ => secDed e

/-- The reports of a corrected read at `a` (R233, R410, R455). -/
def reportCorrected (s : State) (a : Nat) (devs : List Nat) : State :=
  match targetOf a with
  | .ddr =>
    let r := ddrRoute s a
    if h : r.1 < 8 then mcCorrectedAll s ⟨r.1, h⟩ (r.2 / 64 * 64) devs else s
  | .bank b _ => s.count .SPB_CE_CNT 1 b
  | .core k _ => s.count .SC_ECC_CE_CNT 1 k
  | _ => s

/-- What error correction finds in the word at `a`, applied to the store. -/
def applyEcc (s : State) (a : Nat) (e : Ecc) : State :=
  match eccFinds s a e with
  | .ok => s
  | .corrected l => reportCorrected s a l
  | .uncorrectable => setBad s a

/-- What error correction finds in the words of the `n` bytes at `a`, applied to the store word by word. -/
def applyEccs (s : State) (a n : Nat) (e : Ecc) : State :=
  (e.more.zipIdx.filter fun x => decide (eccWord a + (x.2 + 1) * eccSize a < a + n)).foldl
    (fun s x => applyEcc s (eccWord a + (x.2 + 1) * eccSize a) { flips := x.1 }) (applyEcc s a e)

/-- A read of plain memory at its target: answer and bytes (none where the answer is an error). -/
def memReadAt (s : State) (q : Requester) (a n : Nat) (e : Ecc) : State × Status × List Byte :=
  let st := memStatus s q a n false
  if st ≠ .ok then (s, st, [])
  else
    let s := applyEccs s a n e
    if badIn s a n then (reportBads s a n, .poison, s.bytes a n) else (s, .ok, s.bytes a n)

/-- A read of plain memory over the Corridor. -/
def memRead (s : State) (q : Requester) (a n : Nat) (e : Ecc := .ok) : State × Status × List Byte :=
  access s q .rd a n e.net fun s => memReadAt s q a n e

/-- A write of plain memory over the Corridor. -/
def memWrite (s : State) (q : Requester) (a : Nat) (bs : List Byte) (x : Transit := {}) : State × Status :=
  let r := access s q .wr a bs.length x fun s =>
    let st := memStatus s q a bs.length true
    (if st = .ok then store s a bs else s, st, [])
  (r.1, r.2.1)

end Sys2Proof.Machine
end

