-- ==== Sys2Proof/Machine/Gallery.lean ====
section
/-! DEFINITION. Gallery queues (chapter 06): positions, storage, appends, visibility, full queues, records, the operations
of the consumers. -/

namespace Sys2Proof.Machine

/-- What the engine holds of a queue. -/
def State.queue (s : State) (q : Nat) : Queue := tget {} s.queues q
/-- A queue's holding set. -/
def State.setQueue (s : State) (q : Nat) (v : Queue) : State := { s with queues := tset id {} s.queues q v }
/-- A capture port. -/
def State.port (s : State) (p : Nat) : CapPort := tget {} s.ports p
/-- A capture port set. -/
def State.setPort (s : State) (p : Nat) (v : CapPort) : State := { s with ports := tset id {} s.ports p v }

/-! Settings (R214 to R216). -/

/-- `GQ_CTRL.EN`. -/
def gqEn (s : State) (q : Nat) : Bool := bit (s.rd .GQ_CTRL q) 0
/-- `GQ_CTRL.KIND`: 0 capture, 1 token, 2 item, 3 pattern. -/
def gqKind (s : State) (q : Nat) : Nat := s.rdf .GQ_CTRL 1 3 q
/-- Ping-pong mode. -/
def gqPing (s : State) (q : Nat) : Bool := bit (s.rd .GQ_CTRL q) 4
/-- `GQ_CTRL.FULLMODE` HOLD_PRODUCER. -/
def gqHoldMode (s : State) (q : Nat) : Bool := bit (s.rd .GQ_CTRL q) 5
/-- `GQ_CTRL.EPOCH_MARK`. -/
def gqEpochMark (s : State) (q : Nat) : Bool := bit (s.rd .GQ_CTRL q) 6
/-- Producer kind and index. -/
def gqProd (s : State) (q : Nat) : Nat × Nat := (s.rdf .GQ_BIND 0 4 q, s.rdf .GQ_BIND 4 8 q)
/-- Consumer kind and index. -/
def gqCons (s : State) (q : Nat) : Nat × Nat := (s.rdf .GQ_BIND 16 4 q, s.rdf .GQ_BIND 20 8 q)

/-- The enabled queues, in the order of their numbers. -/
def enabledQueues (s : State) : List Nat :=
  s.regs.filterMap fun e => if e.1.reg = .GQ_CTRL ∧ bit e.2 0 = true then some e.1.inst else none

/-- The enabled queue of a producer, and of a slot where the producer has slots (R176, R179). -/
def queueOfProd (s : State) (kind idx : Nat) (slot : Option Nat) : Option Nat :=
  (enabledQueues s).find? fun q =>
    (gqProd s q).1 == kind && (kind == 6 || (gqProd s q).2 == idx) &&
    (match slot with
    | some n => s.rdf .GQ_BIND 12 2 q == n
    | none => true)

/-- The enabled queue that a hardware consumer reads (R177). -/
def queueOfCons (s : State) (kind idx : Nat) : Option Nat :=
  (enabledQueues s).find? fun q => (gqCons s q).1 == kind && (gqCons s q).2 == idx

/-- Bytes of one half of a ping-pong queue (R187). -/
def gqHalf (s : State) (q : Nat) : Nat := (s.rdf .GQ_GEOM 16 5 q + 1) * 2 ^ 18
/-- The capacity (R185, R187). -/
def gqCap (s : State) (q : Nat) : Nat := if gqPing s q then 2 * gqHalf s q else 2 ^ s.rdf .GQ_GEOM 0 6 q
/-- The storage address of a queue's position (R185, R187). -/
def gqBase (s : State) (q : Nat) : Nat :=
  if gqPing s q then bankBase + s.rdf .GQ_GEOM 8 6 q * 2 ^ 18 else (s.rd .GQ_BASE q).toNat * 2 ^ 16

/-- Bytes of an entry of a queue whose entries all have one size (R195 to R197). -/
def gqEntry (s : State) (q : Nat) : Nat :=
  match gqKind s q with
  | 1 => 16
  | 3 => if bit (s.rd .GQ_CTRL q) 9 then 80 else 64
  | _ => 32

/-! Positions (R182). -/

/-- The write position. -/
def gqWrite (s : State) (q : Nat) : Nat := (s.rd .GQ_WRITE q).toNat
/-- The read position. -/
def gqRead (s : State) (q : Nat) : Nat := (s.rd .GQ_READ q).toNat
/-- The free position. -/
def gqFree (s : State) (q : Nat) : Nat := (s.rd .GQ_FREE q).toNat
/-- The mark, where it is valid. -/
def gqMark (s : State) (q : Nat) : Option Nat :=
  if bit (s.rd .GQ_MARK q) 63 then some (fld (s.rd .GQ_MARK q) 0 63) else none
/-- The register of a position, as R220 numbers them. -/
def posReg (i : Nat) : Reg :=
  match i with
  | 0 => .GQ_WRITE
  | 1 => .GQ_READ
  | 2 => .GQ_MARK
  | _ => .GQ_FREE

/-- Both copies of a position set. -/
def putPos (s : State) (q i : Nat) (v : DWord) : State :=
  let s := s.wr (posReg i) v q
  s.setQueue q { s.queue q with twin := tset id 0 (s.queue q).twin i v }

/-- A position updated, in both of its copies, which the update compares first: a difference is found (R209). -/
def setPos (s : State) (q i : Nat) (v : DWord) : State :=
  let a := s.rd (posReg i) q
  let b := tget 0 (s.queue q).twin i
  let s := putPos s q i v
  if a = b then s else { s with epo := { s.epo with detected := s.epo.detected ++ [.clash q i a b] } }

/-- The mark set, or left at its position and made invalid. -/
def setMark (s : State) (q : Nat) (m : Option Nat) : State :=
  match m with
  | some p => setPos s q 2 (BitVec.ofNat 64 (p % 2 ^ 63 + 2 ^ 63))
  | none => setPos s q 2 (setBit (s.rd .GQ_MARK q) 63 false)
/-- Where the next append goes: past what lies beyond the write position (R183). -/
def gqAppend (s : State) (q : Nat) : Nat := gqWrite s q + ((s.queue q).beyond.map (·.len)).sum
/-- `GQ_RELPEND` in bytes. -/
def gqRelpend (s : State) (q : Nat) : Nat := 16 * (s.rd .GQ_RELPEND q).toNat

/-- The level (R207): visible bytes, or the free space of a pattern queue. -/
def gqLevel (s : State) (q : Nat) : Nat :=
  if gqKind s q = 3 then gqCap s q - (gqWrite s q - gqFree s q) else gqWrite s q - gqRead s q

/-- `n` entries lost (R217): `GQ_STATUS.LOST` sets with every increase of `GQ_LOST`. -/
def gqLose (s : State) (q n : Nat) : State := if n = 0 then s else (s.count .GQ_LOST n q).orIn .GQ_STATUS 2 q

/-! Storage. -/

/-- Bytes of a queue's storage at a position, which may wrap at the end (R185). -/
def gqBytes (s : State) (q pos n : Nat) : List Byte :=
  match (s.queue q).tail.find? fun e => e.1 == pos with
  | some e => e.2.take n
  | none =>
    let off := pos % gqCap s q
    let k := min n (gqCap s q - off)
    s.bytes (gqBase s q + off) k ++ s.bytes (gqBase s q) (n - k)

/-- The entry at a position is in the tail cache. -/
def inTail (s : State) (q pos : Nat) : Bool := (s.queue q).tail.any fun e => e.1 == pos

/-- An uncorrectable word lies in the bytes of an entry. -/
def gqBad (s : State) (q pos n : Nat) : Bool :=
  let off := pos % gqCap s q
  let k := min n (gqCap s q - off)
  badIn s (gqBase s q + off) k || badIn s (gqBase s q) (n - k)

/-- The reports of an uncorrectable read of an entry's bytes. -/
def gqReportBad (s : State) (q pos n : Nat) : State :=
  let off := pos % gqCap s q
  let k := min n (gqCap s q - off)
  reportBads (reportBads s (gqBase s q + off) k) (gqBase s q) (n - k)

/-- Bytes stored at a position. -/
def gqStore (s : State) (q pos : Nat) (bs : List Byte) : State :=
  let off := pos % gqCap s q
  let k := min bs.length (gqCap s q - off)
  let s := store s (gqBase s q + off) (bs.take k)
  if k < bs.length then store s (gqBase s q) (bs.drop k) else s

/-- The addresses at which `n` bytes from a position enter an interleave unit. -/
def gqUnits (s : State) (q pos n : Nat) : List Nat :=
  let g := 2 ^ granLog s
  let off := pos % gqCap s q
  (List.range (n / g + 2)).map fun i => gqBase s q + (off + min (i * g) (n - 1)) % gqCap s q

/-- The memory channels of an entry are all READY (R636); scratchpad banks always are. -/
def gqReady (s : State) (q pos n : Nat) : Bool := gqPing s q || (gqUnits s q pos n).all fun a => ddrReady s a

/-- The padded size of the record whose header stands at a position (R188, R194). -/
def recSize (s : State) (q pos : Nat) : Nat :=
  match (s.queue q).pads.find? fun k => k.1 == pos with
  | some k => k.2
  | none => 32 + (leNat ((gqBytes s q (pos + 8) 2)) + 31) / 32 * 32

/-- The size of the entry at a position. -/
def entrySize (s : State) (q pos : Nat) : Nat := if gqKind s q = 0 then recSize s q pos else gqEntry s q

/-! The head cache (R185, R186, R636). -/

/-- Entries from a position on, `size` bytes being cached already: those that fit, that the tail cache holds or whose channel
is READY, and that carry no uncorrectable word. -/
def fillHead (s : State) (q : Nat) : Nat → Nat → Nat → List (Nat × List Byte)
  | 0, _, _ => []
  | n + 1, p, size =>
    if gqWrite s q ≤ p then [] else
    let z := min (entrySize s q p) (gqWrite s q - p)
    if size + z ≤ 2048 ∧ (inTail s q p = true ∨ (gqReady s q p z = true ∧ gqBad s q p z = false)) then
      (p, gqBytes s q p z) :: fillHead s q n (p + z) (size + z)
    else []

/-- The head cache of a spill-mode queue follows its read position and prefetches what has become visible; when it does so is
open (log 70). -/
def readAhead (s : State) (q : Nat) : State :=
  if (gqCons s q).1 = 0 ∨ gqPing s q = true ∨ gqEn s q = false then s else
  let v := s.queue q
  let kept := v.head.filter fun e => decide (gqRead s q ≤ e.1) && decide (e.1 + e.2.length ≤ gqWrite s q)
  let kept := if (kept.headD (0, [])).1 = gqRead s q then kept else []
  let size := (kept.map (·.2.length)).sum
  s.setQueue q { v with head := kept ++ fillHead s q 128 (gqRead s q + size) size }

/-- The read position steps over the skipped end of a half, the level is compared with its threshold, and the head cache
follows (R188, R207). -/
def relevel (s : State) (q : Nat) : State :=
  let s := match (s.queue q).skips.find? fun k => k.1 == gqRead s q && k.1 + k.2 ≤ gqWrite s q with
    | some k => setPos s q 1 (BitVec.ofNat 64 (k.1 + k.2))
    | none => s
  let thr := 16 * (s.rd .GQ_LEVEL q).toNat
  let at_ := thr ≠ 0 && thr ≤ gqLevel s q
  let v := s.queue q
  let s := s.setQueue q { v with above := at_ }
  readAhead (if at_ && !v.above then s.orIn .GQ_STATUS 1 q else s) q

/-- How many entries lie from one position to another (R204): their headers are followed, skips count for none. -/
def countEntries (s : State) (q stop : Nat) : Nat → Nat → Nat
  | 0, _ => 0
  | n + 1, pos =>
    if stop ≤ pos then 0
    else match (s.queue q).skips.find? fun k => k.1 == pos with
      | some k => countEntries s q stop n (pos + max k.2 1)
      | none => countEntries s q stop n (pos + entrySize s q pos) + 1

/-- Entries from one position to another. -/
def entriesIn (s : State) (q a b : Nat) : Nat :=
  if gqKind s q ≠ 0 ∧ (s.queue q).skips = [] then (b - a) / gqEntry s q
  else countEntries s q b ((b - a) / 16 + 1) a

/-- The first entry boundary, from a position on, that leaves at least `need` bytes free behind it (R204); a record whose header
lies in a channel that is not READY cannot be passed (R226). -/
def overwriteTo (s : State) (q stop need : Nat) : Nat → Nat → Nat
  | 0, pos => pos
  | n + 1, pos =>
    if need ≤ pos ∨ stop ≤ pos ∨ (gqKind s q = 0 ∧ gqReady s q pos 32 = false) then min pos stop
    else match (s.queue q).skips.find? fun k => k.1 == pos with
      | some k => overwriteTo s q stop need n (pos + max k.2 1)
      | none => overwriteTo s q stop need n (pos + entrySize s q pos)

/-- The free position moved on: skips and counts behind it go. -/
def setFree (s : State) (q p : Nat) : State :=
  let gone := entriesIn s q (gqFree s q) p
  let s := setPos s q 3 (BitVec.ofNat 64 p)
  let v := s.queue q
  s.setQueue q { v with entries := v.entries - gone, skips := v.skips.filter fun k => p < k.1 + k.2
                        pads := v.pads.filter fun k => p < k.1 + k.2 }

/-- The free position stands past a skipped end of a half. -/
def skipFree (s : State) (q p : Nat) : Nat :=
  match (s.queue q).skips.find? fun k => k.1 == p && k.1 + k.2 ≤ gqWrite s q with
  | some k => k.1 + k.2
  | none => p

/-- OVERWRITE (R204): the free position advances over the oldest entries up to `p`, which are lost; a pending release of them
is no longer pending (R202). -/
def overwrite (s : State) (q p : Nat) : State :=
  let n := entriesIn s q (gqFree s q) p
  let s := s.wr .GQ_RELPEND (BitVec.ofNat 64 ((gqRelpend s q - (p - gqFree s q)) / 16)) q
  let s := setFree s q p
  let s := gqLose s q n
  let s := match gqMark s q with
    | some m => if m < p then setMark s q none else s
    | none => s
  let s := if gqRead s q < p then (setPos s q 1 (BitVec.ofNat 64 p)).orIn .GQ_STATUS 0x80 q else s
  relevel s q

/-! Visibility. -/

/-- A byte of the entry at a position takes more bits, in the tail cache or in the region. -/
def orEntry (s : State) (q p i : Nat) (bits : Byte) : State :=
  let v := s.queue q
  if inTail s q p then
    s.setQueue q { v with tail := v.tail.map fun e =>
      if e.1 = p then (p, e.2.take i ++ (match e.2.drop i with
        | b :: r => (b ||| bits) :: r
        | [] => [])) else e }
  else gqStore s q (p + i) ((gqBytes s q (p + i) 1).map fun b => b ||| bits)

/-- The first item that a queue releases in a realigned epoch, and after an UNRECOVERABLE result, is marked (R466, R484). -/
def markItem (s : State) (q p : Nat) : State :=
  if gqKind s q ≠ 2 then s else
  let v := s.queue q
  let b := s.bounds.headD { epoch := 0, stamp := 0 }
  let real := b.realign && v.epoch != some b.epoch
  let s := s.setQueue q { v with discont := false, epoch := some b.epoch }
  let bits := 64 * v.discont.toNat + 128 * real.toNat
  if bits = 0 then s else orEntry s q p 12 (BitVec.ofNat 8 bits)

/-- Read and free positions that stand at the skipped end of a half go past it (R188). -/
def passSkip (s : State) (q w n : Nat) : State :=
  let s := if gqRead s q = w then setPos s q 1 (BitVec.ofNat 64 (w + n)) else s
  if gqFree s q = w ∧ gqEpochMark s q = false then setFree s q (w + n) else s

/-- Extents that may become visible are passed by the write position, in order (R183, R188, R190). -/
def advanceWrite (s : State) (q : Nat) : List Ext → State
  | [] => s.setQueue q { s.queue q with beyond := [] }
  | e :: r =>
    let w := gqWrite s q
    if e.hold = none ∧ e.ready = true ∧ (gqPing s q = false ∨ w + e.len ≤ (s.queue q).full) then
      let s := if e.entries = 0 then s else markItem s q w
      let s := setPos s q 0 (BitVec.ofNat 64 (w + e.len))
      let v := s.queue q
      let s := s.setQueue q { v with
        entries := v.entries + e.entries, skips := if e.entries = 0 then v.skips ++ [(w, e.len)] else v.skips }
      let s := if e.mark then setMark s q (some w) else s
      advanceWrite (if e.entries = 0 then passSkip s q w e.len else s) q r
    else s.setQueue q { s.queue q with beyond := e :: r }

/-- What may become visible does. -/
def makeVisible (s : State) (q : Nat) : State := relevel (advanceWrite s q (s.queue q).beyond) q

/-- The header of a padding record with payload length `n`, flagged IDLE, and SUPPLY_EXCURSION where HOLD is active (R188,
R194). -/
def padHeader (n : Nat) (hold : Bool) : List Byte :=
  leBytes 8 0 ++ leBytes 4 (0xFF000000 + n) ++ leBytes 4 (1 + 8 * hold.toNat) ++ leBytes 16 0

/-- A padding record of `n` bytes in all, stored at a position: one record, whose length the engine knows; where it passes the
16-bit field, what the field shows is open (log 11). -/
def storePadding (s : State) (q p n : Nat) : State :=
  let s := s.setQueue q { s.queue q with pads := (s.queue q).pads ++ [(p, n)] }
  if n - 32 < 65536 then gqStore s q p (padHeader (n - 32) s.hold ++ List.replicate (n - 32) 0)
  else gqStore s.draw.1 q p (padHeader (s.draw.2.toNat % 65536) s.hold ++ List.replicate (n - 32) 0)

/-- The producer of a ping-pong queue may fill its half: the free position has passed the end of that half's last filling
(R188). -/
def halfOpen (s : State) (q : Nat) : Bool := decide ((s.queue q).full ≤ gqFree s q + gqHalf s q)

/-- The half being filled is complete: its unused end is padded or skipped, and it becomes visible (R188). A half that the
producer may not fill yet is not being filled (log 133). -/
def completeHalf (s : State) (q : Nat) : State :=
  let v := s.queue q
  let p := gqAppend s q
  if p ≤ v.full ∧ halfOpen s q = false then s else
  let e := v.full + gqHalf s q
  let s := if p < e then
      if gqKind s q = 0 then
        let s := storePadding s q p (e - p)
        s.setQueue q { s.queue q with beyond := v.beyond ++ [{ len := e - p }] }
      else s.setQueue q { v with beyond := v.beyond ++ [{ len := e - p, entries := 0 }] }
    else s
  makeVisible (s.setQueue q { s.queue q with full := e }) q

/-- A half whose remaining space no entry fits is complete (R188). -/
def closeHalf (s : State) (q : Nat) : State :=
  let p := gqAppend s q
  let v := s.queue q
  if gqPing s q && decide (v.full < p) && decide (v.full + gqHalf s q < p + gqEntry s q) then completeHalf s q else s

/-- The half being filled as `GQ_STATUS.HALF` shows it. -/
def fillHalf (s : State) (q : Nat) : Nat := if gqPing s q then (s.queue q).full / gqHalf s q % 2 else 0

/-! Appends. -/

/-- How an append ended. -/
inductive Appended where
  | stored | discarded | stalled
  deriving DecidableEq, Repr

/-- Room for `n` bytes is made, or not (R188, R204): the state, and whether they fit. Nothing is overwritten where the header of a
record to be overwritten lies in a channel that is not READY (R226; DESIGN CHOICE, log 152). -/
def makeRoom (s : State) (q n : Nat) : State × Bool :=
  if gqPing s q then
    let h := gqHalf s q
    let v := s.queue q
    let s := if v.full + h < gqAppend s q + n then completeHalf s q else s
    let need := (s.queue q).full - h
    if gqAppend s q ≤ (s.queue q).full ∧ halfOpen s q = false then
      if gqHoldMode s q then (s, false)
      else
        let s := overwrite s q (min need (gqWrite s q))
        (s, need ≤ gqFree s q)
    else (s, true)
  else
    let need := gqAppend s q + n - gqCap s q
    if need ≤ gqFree s q then (s, true)
    else if gqHoldMode s q then (s, false)
    else
      let p := overwriteTo s q (gqWrite s q) need (gqCap s q / 16 + 1) (gqFree s q)
      if p < need ∧ p < gqWrite s q then (s, false)
      else
        let s := overwrite s q p
        (s, need ≤ gqFree s q)

/-- Bytes in the tail cache. -/
def tailBytes (v : Queue) : Nat := (v.tail.map (·.2.length)).sum

/-- The tail cache is written to the region, oldest entry first, while its channels are READY (R185, R636). -/
def flushTail (s : State) (q : Nat) : List (Nat × List Byte) → State
  | [] => s.setQueue q { s.queue q with tail := [] }
  | e :: r =>
    if gqReady s q e.1 e.2.length then flushTail (gqStore s q e.1 e.2) q r
    else s.setQueue q { s.queue q with tail := e :: r }

/-- One entry appended by a hardware producer of a token or item queue (R183, R204, R205, R636): it goes to the region, or to
the tail cache while its channel is not READY; nothing is overwritten for an entry that neither takes. -/
def appendEntry (s : State) (q : Nat) (bs : List Byte) (hold : Option Nat) : State × Appended :=
  let canStall := (gqProd s q).1 == 3 || (gqProd s q).1 == 4
  let s := flushTail s q (s.queue q).tail
  let v := s.queue q
  let ready := gqReady s q (gqAppend s q) bs.length && v.tail == []
  if ready = false ∧ 2048 < tailBytes v + bs.length then
    if canStall then (s.setQueue q { v with stalled := true }, .stalled) else (gqLose s q 1, .discarded)
  else
    let r := makeRoom s q bs.length
    let s := r.1
    if r.2 = false then
      if gqHoldMode s q then (s.setQueue q { s.queue q with stalled := true }, .stalled)
      else (gqLose s q 1, .discarded)
    else
      let p := gqAppend s q
      let s := if ready then gqStore s q p bs else s.setQueue q { s.queue q with tail := (s.queue q).tail ++ [(p, bs)] }
      let v := s.queue q
      (closeHalf (makeVisible (s.setQueue q { v with beyond := v.beyond ++ [{ len := bs.length, hold := hold }] }) q) q,
        .stored)

/-- Entries held for epochs up to `n` are released in production order (R33, R473). -/
def releaseHeld (s : State) (q n : Nat) : State :=
  let v := s.queue q
  makeVisible (s.setQueue q { v with beyond := v.beyond.map fun e =>
    match e.hold with
    | some k => if k ≤ n then { e with hold := none } else e
    | none => e }) q

/-- Entries held for uncommitted epochs are discarded (R33, R478, R483). -/
def discardHeld (s : State) (q : Nat) : State :=
  let v := s.queue q
  let kept := v.beyond.filter fun e => e.hold.isNone
  let s := s.setQueue q { v with beyond := kept }
  let p := gqAppend s q
  s.setQueue q { s.queue q with
    full := if gqPing s q then min v.full ((p + gqHalf s q - 1) / gqHalf s q * gqHalf s q) else v.full,
    tail := v.tail.filter fun e => e.1 < p }

/-! Resets of a queue. -/

/-- RESET (R199): every position at the write position, the mark invalid, held entries discarded, what is dropped lost. -/
def queueReset (s : State) (q : Nat) : State :=
  let v := s.queue q
  let w := gqWrite s q
  let n := v.entries + (v.beyond.map (·.entries)).sum
  let s := setPos (setPos (setPos (s.wr .GQ_RELPEND 0 q) q 3 (BitVec.ofNat 64 w)) q 1 (BitVec.ofNat 64 w)) q 2
    (BitVec.ofNat 64 (w % 2 ^ 63))
  let s := s.setQueue q { s.queue q with
    entries := 0, beyond := [], skips := [], pads := [], tail := [], head := [], discont := gqKind s q == 0, pend := [],
    full := if gqPing s q then w / gqHalf s q * gqHalf s q else 0 }
  relevel (gqLose s q n) q

/-- The capture port that produces into a queue. -/
def capPortOf (s : State) (q : Nat) : Option Nat :=
  match gqProd s q with
  | (1, l) => some l
  | (7, g) => some (24 + g)
  | (2, p) => some (32 + p)
  | _ => none

/-- `EN` falls (R184): producer and consumer detach; an open record and held entries go; the positions freeze. A trigger mark that
awaits its record goes on waiting (R156, R157). -/
def queueOff (s : State) (q : Nat) : State :=
  let s := match gqCons s q with
    | (5, i) => { s with link := { s.link with
        streams := tset id {} s.link.streams i { tget {} s.link.streams i with cut := true } } }
    | _ => s
  let s := match capPortOf s q with
    | some p =>
      (match (s.port p).cur with
      | some r => if r.slot = s.rdf .GQ_BIND 12 2 q then s.setPort p { s.port p with cur := none } else s
      | none => s)
    | none => s
  let v := s.queue q
  s.setQueue q { v with beyond := [], tail := v.tail.filter (fun e => e.1 < gqWrite s q), head := [], stalled := false
                        started := false }

/-! Enabling (R178, R184, R185, R187). -/

/-- A kind, producer, consumer, full mode and mark form a valid combination, with their indices in range (R176 to R178). -/
def bindValid (ctrl bind : DWord) : Bool :=
  let k := fld ctrl 1 3
  let p := fld bind 0 4
  let pi := fld bind 4 8
  let c := fld bind 16 4
  let ci := fld bind 20 8
  let hold := bit ctrl 5
  let em := bit ctrl 6
  (match k with
  | 0 => (p == 1 || p == 2 || p == 7) && (c == 0 || c == 5) && !hold && !em
  | 1 => (p == 0 || (3 ≤ p && p ≤ 6)) && (c == 0 || c == 1 || c == 5) && (!hold || p == 3 || p == 4) && (!em || c == 1)
  | 2 => (p == 0 || p == 3 || p == 4) && c == 2 && (!hold || p == 3 || p == 4)
  | 3 => p == 0 && (c == 3 || c == 4) && !hold && !em
  | _ => false) &&
  (match p with
  | 1 => pi < 24 | 2 => pi < 8 | 3 => pi < 64 | 4 => pi < 32 | 5 => pi < 48 | 7 => pi < 4 | _ => true) &&
  (match c with
  | 1 => ci < 64 | 3 => ci < 24 | 4 => ci < 8 | 5 => ci < 16 | _ => true)

/-- The region of a queue is valid (R185, R187). -/
def regionValid (s : State) (q : Nat) : Bool :=
  let b := s.rdf .GQ_GEOM 8 6 q
  let h := s.rdf .GQ_GEOM 16 5 q + 1
  let z := s.rdf .GQ_GEOM 0 6 q
  if gqPing s q then
    b + 2 * h ≤ 64 && (List.range (2 * h)).all fun i =>
      s.rdf .SPB_OWNER 0 3 (b + i) == 3 && s.rdf .SPB_STATUS 0 2 (b + i) == 0
  else 16 ≤ z && z ≤ 38 && gqBase s q % 2 ^ z == 0 && gqBase s q + 2 ^ z ≤ ddrBytes s

/-- Two queues share a producer endpoint with its slot, or a consumer endpoint (R178, R180, R416). -/
def bindClash (s : State) (a b : Nat) : Bool :=
  let pa := gqProd s a
  let pb := gqProd s b
  let slots := s.rdf .GQ_BIND 12 2 a == s.rdf .GQ_BIND 12 2 b
  let inGroup (l g : Nat) : Bool := (members s g).any fun m => m.val == l
  (pa.1 == pb.1 && (match pa.1 with
    | 0 => false
    | 1 | 2 | 7 => pa.2 == pb.2 && slots
    | 6 => true
    | _ => pa.2 == pb.2)) ||
  (pa.1 == 1 && pb.1 == 7 && inGroup pa.2 pb.2) || (pa.1 == 7 && pb.1 == 1 && inGroup pb.2 pa.2) ||
  (gqCons s a == gqCons s b && (gqCons s a).1 != 0 && (gqCons s a).1 != 2)

/-- The group whose capture port takes a lane's words: the lane is bonded and a queue is bound to its group's port. -/
def groupPort (s : State) (l : Nat) : Option Nat :=
  if bonded s l && (queueOfProd s 7 (groupOf s l) none).isSome then some (groupOf s l) else none

/-- A group port begins with the members' next words: what it holds from before is no part of a group word (R180). -/
def dropHeld (s : State) (g : Nat) : State :=
  (members s g).foldl (fun s (l : Fin 24) =>
    if groupPort s l = some g then s.setLane l { s.lane l with held := [] } else s) s

/-- `GQ_CTRL.EN` written 1 in a queue that is off (R178, R184): the register holds its new value, `EN` 0. What the engine knew
of the queue goes, the epoch of its last record too: its next record flags EPOCH_START (DESIGN CHOICE, log 134). -/
def queueOn (s : State) (q : Nat) : State :=
  if bindValid (s.rd .GQ_CTRL q) (s.rd .GQ_BIND q) = false then s.fault .gallery 0x0101 q
  else if regionValid s q = false then s.fault .gallery 0x0103 q
  else match (enabledQueues s).find? fun k => bindClash s q k with
    | some k => s.fault .gallery 0x0102 q k
    | none =>
      let s := ([Reg.GQ_WRITE, .GQ_READ, .GQ_MARK, .GQ_FREE, .GQ_RELPEND]).foldl (fun s r => s.wr r 0 q) s
      let s := s.setQueue q { gate0 := bit (s.rd .GQ_CTRL q) 7, trig := (s.queue q).trig }
      let s := relevel (s.wrf .GQ_CTRL 0 1 1 q) q
      if (gqProd s q).1 = 7 then dropHeld s (gqProd s q).2 else s

/-! Records (R189 to R194). -/

/-- The epoch of a moment, and whether a realign opened it (R31, R466). -/
def epochAt : List Boundary → DWord → Nat × Bool
  | [], _ => (0, false)
  | b :: r, t => if b.stamp.toNat ≤ t.toNat then (b.epoch, b.realign) else epochAt r t

/-- The capture gate of a queue at a moment (R157, R193). -/
def gateAt (v : Queue) (t : DWord) : Bool :=
  match v.gates.find? fun g => g.1.toNat ≤ t.toNat with
  | some g => g.2
  | none => v.gate0

/-- The gate changes from a stamp on; one that closes completes the half being filled (R157, R188). -/
def setGate (s : State) (q : Nat) (t : DWord) (v : Bool) : State :=
  if bit (s.rd .GQ_CTRL q) 7 = v then s else
  let u := s.queue q
  let s := (s.wrf .GQ_CTRL 7 1 v.toNat q).setQueue q { u with gates := (t, v) :: u.gates }
  if v = false ∧ gqPing s q = true ∧ gqEn s q = true ∧ gqKind s q = 0 then completeHalf s q else s

/-- The source byte of a port's records (R194). -/
def portSource (p : Nat) : Nat := if p < 32 then p else p - 32 + 0x20

/-- A record as stored: header, payload, padding (R194). -/
def recBytes (port : Nat) (r : Rec) (epoch flags : Nat) : List Byte :=
  let n := r.payload.length
  let typ := if r.typ = 0 then 1 else r.typ.toNat
  leBytes 8 r.stamp.toNat ++ leBytes 4 (portSource port * 2 ^ 24 + typ * 65536 + n) ++ leBytes 4 flags ++
  leBytes 4 epoch ++ leBytes 4 r.sbA.toNat ++ leBytes 4 r.sbB.toNat ++ leBytes 4 r.user.toNat ++
  r.payload ++ List.replicate ((32 - n % 32) % 32) 0

/-- A record lost at its port (R206): counted, flagged on the next record, recorded. -/
def captureOverflow (s : State) (q : Nat) : State :=
  let s := gqLose s q 1
  (s.setQueue q { s.queue q with lostBefore := true }).fault .gallery 0x0104 q

/-- A closed record is appended to queue `q` (R191 to R194, R204, R206, R466). -/
def appendRecord (s : State) (port q : Nat) (r : Rec) (poison : Bool) : State :=
  let v := s.queue q
  let n := 32 + (r.payload.length + 31) / 32 * 32
  let s := if gateAt v r.stamp = false then s
    else if gqReady s q (gqAppend s q) n = false then captureOverflow s q
    else
    let m := makeRoom s q n
    let s := m.1
    if m.2 = false then (if gqHoldMode s q || gqPing s q then gqLose s q 1 else captureOverflow s q)
    else
      let v := s.queue q
      let e := epochAt s.bounds r.stamp
      let start := (match v.epoch with
        | some k => decide (k < e.1)
        | none => true)
      let trig := (match v.trig with
        | some t => decide (t.toNat ≤ r.stamp.toNat)
        | none => false)
      let flags := 2 * v.lostBefore.toNat + 4 * poison.toNat + 8 * (r.excursion || s.hold).toNat + 16 * trig.toNat +
        32 * start.toNat + 64 * v.discont.toNat + 128 * (start && e.2).toNat
      let s := gqStore s q (gqAppend s q) (recBytes port r (epochNum s e.1).toNat flags)
      let s := if poison then s.fault .gallery 0x0105 q else s
      let s := s.setQueue q { s.queue q with
        beyond := v.beyond ++ [{ len := n, ready := gqPing s q, mark := trig }], lostBefore := false, discont := false,
        epoch := some (match v.epoch with
          | some k => max k e.1
          | none => e.1), trig := if trig then none else v.trig }
      closeHalf (makeVisible s q) q
  if r.truncated then s.setQueue q { s.queue q with lostBefore := true } else s

/-- Bytes added to the open record of a port; one that would pass 16,384 closes it (R189, R191). -/
def addBytes (s : State) (p : Nat) (bs : List Byte) : State :=
  let v := s.port p
  match v.cur with
  | none => s
  | some r =>
    let all := r.payload ++ bs
    let r := { r with excursion := r.excursion || s.hold }
    if all.length ≤ 16384 then s.setPort p { v with cur := some { r with payload := all } }
    else
      (s.setPort p { cur := none, closed := v.closed ++ [{ r with payload := all.take 16384, truncated := true }] }).count
        .GAL_TRUNC_CNT

/-- The open record closes. -/
def closeRec (s : State) (p : Nat) : State :=
  let v := s.port p
  match v.cur with
  | none => s
  | some r => s.setPort p { cur := none, closed := v.closed ++ [r] }

/-- One word of a port with its record controls (R189): `sor` and `eor` are byte offsets; `old` holds the bytes kept as they
join the open record, `new` as they join the one that starts. -/
def assemble (s : State) (p : Nat) (old new : List Byte) (sor : Option (Nat × Rec)) (eor : Option Nat) : State :=
  let start (s : State) (r : Rec) (bs : List Byte) : State := addBytes (s.setPort p { s.port p with cur := some r }) p bs
  match sor, eor with
  | none, none => addBytes s p old
  | none, some e => closeRec (addBytes s p (old.take (e + 1))) p
  | some (o, r), none => start (closeRec (addBytes s p (old.take o)) p) r (new.drop o)
  | some (o, r), some e =>
    if e < o then start (closeRec (addBytes s p (old.take (e + 1))) p) r (new.drop o)
    else closeRec (start (closeRec (addBytes s p (old.take o)) p) r ((new.take (e + 1)).drop o)) p

/-- Line bits of a lane word (R98). -/
def lineBits (mode : Nat) : Nat :=
  match mode with
  | 1 => 512 | 2 => 560 | 4 => 520 | _ => 528

/-- The stamp of byte `ofs` of a word (R192), in 2⁻¹⁰ ns, rounded down. -/
def byteStamp (s : State) (l : Nat) (t : DWord) (ofs : Nat) : DWord :=
  let rate := laneBitRate s l
  if rate = 0 then t else
  t + BitVec.ofNat 64 (ofs * lineBits (rxMode s l) * 1024000000000 * 131072 / (64 * rate))

/-- A record in progress at a port is discarded: its lane stopped or its group left ALIGNED (R637). -/
def discardOpen (s : State) (p : Nat) : State :=
  match (s.port p).cur with
  | none => s
  | some r =>
    let s := s.setPort p { s.port p with cur := none }
    let kind := if p < 24 then 1 else if p < 32 then 7 else 2
    let idx := if p < 24 then p else if p < 32 then p - 24 else p - 32
    match queueOfProd s kind idx (some r.slot) with
    | some q =>
      let s := gqLose s q 1
      s.setQueue q { s.queue q with lostBefore := true }
    | none => s

/-! The operations of a queue's consumer (R199 to R203, R636). -/

/-- The status of an operation (R199). -/
inductive OpStatus where
  | ok | markLost | range | owner | disabled | op | memory
  deriving DecidableEq, Repr

/-- The code of a status. -/
def OpStatus.code : OpStatus → Nat
  | .ok => 0 | .markLost => 1 | .range => 2 | .owner => 3 | .disabled => 4 | .op => 5 | .memory => 6

/-- The idle item of a queue (R198). -/
def idleItem (kind : Nat) : List Byte :=
  match kind with
  | 0 => leBytes 8 0 ++ leBytes 4 0xFF000000 ++ leBytes 4 1 ++ leBytes 16 0
  | 1 => leBytes 8 0 ++ leBytes 8 0x8
  | 2 => leBytes 12 0 ++ leBytes 4 1 ++ leBytes 16 0
  | _ => []

/-- Bit 2 of byte `i`: the POISON flag of an entry (R234, R283). -/
def poisonAt : Nat → List Byte → List Byte
  | _, [] => []
  | 0, b :: r => (b ||| 4) :: r
  | n + 1, b :: r => b :: poisonAt n r

/-- Bytes that a read of the entry at the read position takes: a record's header, any other entry whole (R199). -/
def readTake (s : State) (q : Nat) : Nat :=
  if gqKind s q = 0 then 32 else min (gqEntry s q) (gqWrite s q - gqRead s q)

/-- The entry at the read position as its consumer receives it (R198, R234, R636): the entry, its size, and the state with
an uncorrectable word reported; nothing where the head cache does not hold it and its channel is not READY. A pattern word has
no POISON flag. -/
def readEntry (s : State) (q : Nat) : State × Option (List Byte × Nat) :=
  let p := gqRead s q
  if p = gqWrite s q then (s, some (idleItem (gqKind s q), 0)) else
  let take := readTake s q
  match (s.queue q).head.find? fun e => e.1 == p with
  | some e => (s, some (e.2.take take, e.2.length))
  | none =>
    if gqReady s q p take = false ∧ inTail s q p = false then (s, none) else
    let n := min (entrySize s q p) (gqWrite s q - p)
    let bs := gqBytes s q p take
    if gqBad s q p take && !inTail s q p then
      let bs := match gqKind s q with
        | 1 => poisonAt 8 bs
        | 3 => bs
        | _ => poisonAt 12 bs
      (gqReportBad s q p take, some (bs, n))
    else (s, some (bs, n))

/-- The read position moved on, past the skipped end of a half (R188). -/
def setRead (s : State) (q p : Nat) : State :=
  relevel (setPos s q 1 (BitVec.ofNat 64 (min (skipFree s q p) (gqWrite s q)))) q

/-- A release up to position `target` (R182, R202, R203): no further than the mark and the read position of an epoch-mark
queue, the rest pending. -/
def releaseTo (s : State) (q target : Nat) : State :=
  if gqEpochMark s q then
    let lim := min (gqRead s q) ((gqMark s q).getD (gqFree s q))
    let f := max (gqFree s q) (min target lim)
    let f := if skipFree s q f ≤ lim then skipFree s q f else f
    relevel ((setFree s q f).wr .GQ_RELPEND (BitVec.ofNat 64 (min ((target - f) / 16) (2 ^ 32 - 1))) q) q
  else
    let s := match gqMark s q with
      | some m => if m < target then setMark s q none else s
      | none => s
    relevel (setFree s q (skipFree s q (max (gqFree s q) target))) q

/-- The mark of an epoch-mark queue advances, and a pending release follows it (R201, R202). -/
def advanceMark (s : State) (q p : Nat) : State :=
  if p < gqFree s q then setMark s q none
  else releaseTo (setMark s q (some p)) q (gqFree s q + gqRelpend s q)

/-- Entries that software has written are taken in, half by half in ping-pong mode (R188, R199); `none` where they do not
fit into free space. -/
def writeEntries (s : State) (q : Nat) : Nat → Nat → Option State
  | _, 0 => some s
  | 0, _ => none
  | n + 1, k =>
    let z := gqEntry s q
    let v := s.queue q
    if gqPing s q then
      let left := (v.full + gqHalf s q - gqAppend s q) / z
      if left = 0 then writeEntries (completeHalf s q) q n k
      else if gqAppend s q ≤ v.full ∧ halfOpen s q = false then none
      else
        let m := min left k
        writeEntries (closeHalf (s.setQueue q { v with beyond := v.beyond ++ [{ len := m * z, entries := m }] }) q) q n (k - m)
    else if gqFree s q + gqCap s q < gqAppend s q + k * z then none
    else some (s.setQueue q { v with beyond := v.beyond ++ [{ len := k * z, entries := k }] })

/-- Whether software may issue an operation on a queue (R200); it sets the mark of a loop queue (R210, log 13). -/
def ownerOk (s : State) (q op : Nat) : Bool :=
  let c := (gqCons s q).1
  match op with
  | 1 | 2 => c == 0
  | 3 => (c == 0 || c == 5 || (gqKind s q == 3 && bit (s.rd .GQ_CTRL q) 8)) && !gqEpochMark s q
  | 4 => (c == 0 || c == 5) && !gqEpochMark s q
  | 5 => c == 0 || c == 5
  | 6 | 7 => (gqProd s q).1 == 0 && c != 5
  | _ => true

/-- The read position before an operation, which `GAL_OP_POS` takes. -/
def opRefusal (s : State) (q op : Nat) : Option OpStatus :=
  if 9 ≤ op then some .op
  else if gqEn s q = false then some .disabled
  else if ownerOk s q op = false then some .owner
  else if op = 7 ∧ gqPing s q = false then some .op
  else none

/-- READ (R199), refused where the entry's channel is not READY: only a hardware consumer's queue has a head cache (R636). -/
def opRead (s : State) (q : Nat) : State × OpStatus × List Byte :=
  if gqRead s q ≠ gqWrite s q ∧ gqReady s q (gqRead s q) (readTake s q) = false then (s, .memory, [])
  else match readEntry s q with
  | (s, some (bs, n)) => (setRead s q (gqRead s q + n), .ok, bs.take 32)
  | (s, none) => (s, .memory, [])

/-- ADVANCE (R199). -/
def opAdvance (s : State) (q arg : Nat) : State × OpStatus :=
  if arg % gqEntry s q ≠ 0 ∨ gqWrite s q < gqRead s q + arg then (s, .range)
  else (setRead s q (gqRead s q + arg), .ok)

/-- MARK (R199). -/
def opMark (s : State) (q : Nat) : State × OpStatus := (setMark s q (some (gqRead s q)), .ok)

/-- REWIND (R199): to the mark, or with an invalid mark to the free position. -/
def opRewind (s : State) (q : Nat) : State × OpStatus :=
  match gqMark s q with
  | some m => (setRead s q m, .ok)
  | none => (setRead s q (gqFree s q), .markLost)

/-- RELEASE (R199, R202). -/
def opRelease (s : State) (q arg : Nat) : State × OpStatus :=
  let from_ := gqFree s q + (if gqEpochMark s q then gqRelpend s q else 0)
  let target := if arg = 0 then gqRead s q else from_ + arg
  if arg % gqEntry s q ≠ 0 ∨ gqRead s q < target then (s, .range)
  else (releaseTo s q (max target from_), .ok)

/-- WRITE_ADV (R199, R205). -/
def opWriteAdv (s : State) (q arg : Nat) : State × OpStatus :=
  if arg % gqEntry s q ≠ 0 then (s, .range)
  else match writeEntries s q 8 (arg / gqEntry s q) with
    | some t => (makeVisible t q, .ok)
    | none => (s, .range)

/-- FLUSH (R188, R199). -/
def opFlush (s : State) (q : Nat) : State × OpStatus := (completeHalf s q, .ok)

/-- The result of an operation through port `p` (R199, R219). -/
def opResult (s : State) (p pos : Nat) (st : OpStatus) : State :=
  (s.wr .GAL_OP_POS (BitVec.ofNat 64 pos) 0 p).wr .GAL_OP_RES (BitVec.ofNat 64 st.code) 0 p

/-- The entry that READ copied, zero-filled to 8 words. -/
def opData (s : State) (p : Nat) (bs : List Byte) : State :=
  (List.range 8).foldl (fun s w =>
    s.wr .GAL_OP_DATA (BitVec.ofNat 64 (leNat ((bs.drop (4 * w)).take 4))) 0 (16 * p + w)) s

/-! Hardware consumers. -/

/-- The pattern entry that a transmit slot or a Heath pattern port takes (R197, R210, R211, R636). -/
def takePattern (s : State) (q : Nat) : State × Option TxWord :=
  if bit (s.rd .GQ_CTRL q) 10 && !(s.queue q).started then (s, none) else
  if gqRead s q = gqWrite s q then (s, none) else
  match readEntry s q with
  | (s, none) => (s, none)
  | (s, some (bs, n)) =>
    let w : TxWord := ⟨BitVec.ofNat 512 (leNat (bs.take 64)), BitVec.ofNat 32 (leNat ((bs.drop 64).take 4))⟩
    let s := setRead s q (gqRead s q + n)
    (if bit (s.rd .GQ_CTRL q) 8 = false then releaseTo s q (gqRead s q)
    else if gqRead s q = gqWrite s q then (match gqMark s q with
      | some m => setRead s q m
      | none => s)
    else s, some w)

end Sys2Proof.Machine
end

