-- ==== Sys2Proof/Machine/Scheduler.lean ====
section
/-! DEFINITION. The flow scheduler (chapter 14): candidates, dispatch, landing slots, release, cancellation, trace. -/

namespace Sys2Proof.Machine

/-- Landing slot `i` of core `k`. -/
def State.landing (s : State) (k i : Nat) : Landing := tget {} s.slots (2 * k + i)
/-- A landing slot set. -/
def State.setLanding (s : State) (k i : Nat) (v : Landing) : State := { s with slots := tset id {} s.slots (2 * k + i) v }
/-- The items list set. -/
def State.setItems (s : State) (l : List Item) : State := { s with sched := { s.sched with items := l } }

/-- `FLW_CTRL.EN`. -/
def flwEn (s : State) (f : Nat) : Bool := bit (s.rd .FLW_CTRL f) 0
/-- `FLW_CTRL.MODE`: 0 PARALLEL, 1 ATOMIC, 2 ORDERED (R418). -/
def flwMode (s : State) (f : Nat) : Nat := s.rdf .FLW_CTRL 1 2 f
/-- `FLW_CTRL.CLASS`. -/
def flwClass (s : State) (f : Nat) : Nat := s.rdf .FLW_CTRL 4 6 f
/-- `FLW_CTRL.QUEUE`. -/
def flwQueue (s : State) (f : Nat) : Nat := s.rdf .FLW_CTRL 18 10 f

/-- The enabled flows. -/
def enabledFlows (s : State) : List Nat :=
  s.regs.filterMap fun e => if e.1.reg = .FLW_CTRL ∧ bit e.2 0 = true then some e.1.inst else none

/-- An item stands in its flow's window (R418). -/
def inWindow (i : Item) : Bool := i.state == .inSlot || i.state == .again || i.state == .reached
/-- An item is in service (R418). -/
def inService (i : Item) : Bool := i.state == .inSlot || i.state == .again

/-- `FLW_STATUS.INSVC`: items in service, or for an ORDERED flow in its window (R438). -/
def flwInsvc (s : State) (f : Nat) : Nat :=
  (s.sched.items.filter fun i => i.flow == f && (if flwMode s f = 2 then inWindow i else inService i)).length

/-- The candidate that a flow's head item is: the flow, and the position at the head of its queue. -/
def headKey (s : State) (f : Nat) : Nat × Nat := (f, gqRead s (flwQueue s f))
/-- The waits for affinity of the flows `p` are over without a dispatch. -/
def forgetWaits (s : State) (p : Nat → Bool) : State :=
  { s with sched := { s.sched with
    waits := s.sched.waits.filter fun x => !p x.1, expired := s.sched.expired.filter fun x => !p x.1 } }

/-- `FLW_STATUS` as it reads: `AFF_WAITING` while the head item waits for its core (R423, R438). -/
def flwStatus (s : State) (f : Nat) : DWord :=
  setFld (setFld (s.rd .FLW_STATUS f) 0 7 (flwInsvc s f)) 14 1 (s.sched.waits.contains (headKey s f)).toNat
/-- `SCH_STATUS` as it reads. -/
def schStatus (s : State) : DWord := BitVec.ofNat 64 (min (s.sched.items.filter inWindow).length 65535)

/-- The code of a slot's state in `SCH_LAND`; a slot being filled reads EMPTY (log 14). -/
def slotCode (v : Landing) : Nat :=
  match v.state with
  | .empty | .filling => 0 | .filled => 1 | .taken => 2

/-- `SCH_LAND[k]` as it reads (R440). -/
def schLand (s : State) (k : Nat) : DWord :=
  let a := s.landing k 0
  let b := s.landing k 1
  BitVec.ofNat 64 (slotCode a + 4 * slotCode b + 16 * (if slotCode a = 0 then 0 else a.flow) +
    65536 * (if slotCode b = 0 then 0 else b.flow))

/-- The flow of an item descriptor (R415). -/
def flowOf (desc : List Byte) : Nat := leNat ((desc.drop 20).take 4) / 65536 % 4096

/-! Trace records (R434, R435). -/

/-- A trace record of an item. -/
def traceRec (s : State) (kind : Nat) (i : Item) (stray : Bool) : List Byte :=
  let w1 := i.flow + i.queue * 2 ^ 12 + (if stray then 0 else i.core * 2 ^ 22 + i.slot * 2 ^ 27) + kind * 2 ^ 28
  let w2 := if stray then 0 else flwClass s i.flow * 2 ^ 4 + i.dseq * 2 ^ 10
  leBytes 4 (s.rd .PWR_TB).toNat ++ leBytes 4 w1 ++ leBytes 4 w2 ++ leBytes 4 i.pos

/-- A trace record is written where its kind and flow are traced; with no trace queue it is dropped and counted. -/
def trace (s : State) (kind : Nat) (i : Item) : State :=
  let on := bit (s.rd .SCH_TRACE_CTRL) kind &&
    (kind == 7 || bit (s.rd .FLW_CTRL i.flow) 3 || bit (s.rd .SCH_TRACE_CTRL) 16)
  if on then
    match queueOfProd s 6 0 none with
    | some q => (appendEntry s q (traceRec s kind i (kind == 7)) none).1
    | none => (s.count .SCH_TRACE_DROP).evt .sched 3
  else s

/-! Recovery domains of cores and queues (R467, R468). -/

/-- The domain of a core (R467). -/
def coreDomain (s : State) (k : Nat) : Nat :=
  ((List.range 4).find? fun d => bit (s.rd .EPO_DOM_CORES 0 d) k).getD 0

/-- The domains of which an item queue is an input (R468). -/
def itemDomains (s : State) (q : Nat) : List Nat :=
  (List.range 4).filter fun d => (enabledFlows s).any fun f =>
    flwQueue s f == q && (List.range 32).any fun k => bit (s.rd .FLW_CORES f) k && coreDomain s k == d

/-- A domain is in steps 1 to 5 of a recovery (R478). -/
def recovering (s : State) (d : Nat) : Bool := bit (s.rd .EPO_STATUS) d

/-! Release (R418, R419). -/

/-- The longest run of released items at the free position is freed, up to the mark of an epoch-mark queue. -/
def freeRun (s : State) (q : Nat) : Nat → State
  | 0 => s
  | n + 1 =>
    let f := gqFree s q
    let lim := if gqEpochMark s q then (gqMark s q).getD f else f + 32
    match s.sched.items.find? fun i => i.queue == q && i.pos == f && (i.state == .released || i.state == .stray) with
    | some i =>
      if f + 32 ≤ lim then
        let s := s.setItems (s.sched.items.filter fun j => !(j.queue == q && j.pos == f))
        freeRun (releaseTo s i.queue (f + 32)) q n
      else s
    | none => s

/-- The scheduler frees what it may of a queue. -/
def schRelease (s : State) (q : Nat) : State := freeRun s q s.sched.items.length

/-- Items with an update applied to those of a queue and position. -/
def mapItem (l : List Item) (q p : Nat) (f : Item → Item) : List Item :=
  l.map fun i => if i.queue = q ∧ i.pos = p then f i else i

/-- One item is released. -/
def releaseItem (s : State) (i : Item) : State :=
  schRelease (trace (s.setItems (mapItem s.sched.items i.queue i.pos fun j => { j with state := .released })) 3 i) i.queue

/-- The items of an ORDERED flow that reached DONE, and before which every item did, are released in dispatch order. -/
def releaseOrdered (s : State) (f : Nat) : List Item → State
  | [] => s
  | i :: r =>
    if i.flow = f ∧ inWindow i then
      if i.state = .reached then releaseOrdered (releaseItem s i) f r else s
    else releaseOrdered s f r

/-- An item has reached DONE, or counts as having (R418, R430). -/
def reach (s : State) (q p : Nat) : State :=
  match s.sched.items.find? fun i => i.queue == q && i.pos == p with
  | none => s
  | some i =>
    let s := s.setItems (mapItem s.sched.items q p fun j => { j with state := .reached })
    if flwMode s i.flow = 2 then releaseOrdered s i.flow s.sched.items else releaseItem s i

/-! Choosing the next item (R417, R421 to R423). -/

/-- The bits of an array of core bits that are on. -/
def coreReady (s : State) (k : Nat) : Bool :=
  bit (s.rd .SCH_CORE_EN) k && s.powered (.dom (4 + k / 8)) &&
  (let c := s.core k; !c.stopped && !c.inReset && c.run != .halted) && !(tget false s.resetting (0x600 + k)) &&
  ((s.landing k 0).state == .empty || (s.landing k 1).state == .empty)

/-- A core is eligible for a flow (R421). -/
def eligible (s : State) (f k : Nat) : Bool := bit (s.rd .FLW_CORES f) k && coreReady s k

/-- The scheduler reads a queue: an enabled item queue of which it is the consumer (R177, R184). -/
def schReads (s : State) (q : Nat) : Bool := gqEn s q && gqKind s q == 2 && (gqCons s q).1 == 2

/-- The head item of a queue, where it can be read (R417, R636). -/
def headItem (s : State) (q : Nat) : Option (List Byte) :=
  if schReads s q = false ∨ gqRead s q = gqWrite s q then none
  else match readEntry s q with
    | (_, some (bs, _)) => some bs
    | (_, none) => none

/-- The epoch of the item at a position (R476): that of the first boundary whose write position lies past it. -/
def posEpoch (s : State) (q p : Nat) : Nat :=
  match (s.queue q).pend.find? fun b => p < b.2 with
  | some b => b.1
  | none => epochNow s

/-- A head item is stray (R417). -/
def isStray (s : State) (q : Nat) (desc : List Byte) : Bool :=
  leNat ((desc.drop 12).take 1) % 2 == 1 || flwQueue s (flowOf desc) != q

/-- Stray heads of a queue are read and released at once (R417). -/
def strays (s : State) (q : Nat) : Nat → State
  | 0 => s
  | n + 1 =>
    match headItem s q with
    | none => s
    | some d =>
      if isStray s q d then
        let i : Item := { queue := q, pos := gqRead s q, flow := flowOf d, state := .stray }
        let s := setRead (readEntry s q).1 q (gqRead s q + 32)
        let s := (s.setItems (s.sched.items ++ [i])).count .SCH_STRAY_CNT
        let s := s.wr .SCH_STRAY_INFO (BitVec.ofNat 64 (i.flow + 4096 * q + 2 ^ 31))
        strays (schRelease (trace (trace (s.evt .sched 0) 7 i) 3 i) q) q n
      else s

/-- The item queues that the scheduler reads. -/
def itemQueues (s : State) : List Nat := (enabledQueues s).filter (schReads s)

/-- What a flow offers for dispatch: an item to be dispatched again, or the head of its queue. -/
inductive Offer where
  | again (i : Item) | head (desc : List Byte)
  deriving DecidableEq, Repr

/-- A flow's item that could be dispatched, whatever its cores (R417, R418, R430). -/
def offer (s : State) (f : Nat) : Option Offer :=
  if flwEn s f = false then none
  else if (itemDomains s (flwQueue s f)).any (recovering s) then none
  else match s.sched.items.find? fun i => i.flow == f && i.state == .again with
    | some i => some (.again i)
    | none =>
      match headItem s (flwQueue s f) with
      | none => none
      | some d =>
        let lim := if flwMode s f = 1 then 1 else s.rdf .FLW_LIMIT 0 7 f
        if flowOf d = f ∧ isStray s (flwQueue s f) d = false ∧ flwInsvc s f < lim then some (.head d) else none

/-- The core a flow's item would go to: `none` where it must wait, for want of a core or for affinity (R421, R423). -/
def coreFor (s : State) (f : Nat) (again : Bool) : Option Nat :=
  let last := s.rdf .FLW_STATUS 8 5 f
  let valid := bit (s.rd .FLW_STATUS f) 13
  if valid && eligible s f last then some last
  else if valid && !again && s.rdf .FLW_CTRL 10 8 f != 0 && !(s.sched.expired.contains (headKey s f)) then none
  else ((List.range 32).map fun i => ((if valid then last + 1 else 0) + i) % 32).find? fun k => eligible s f k

/-- Some core is eligible for a flow. -/
def anyCore (s : State) (f : Nat) : Bool := (List.range 32).any fun k => eligible s f k

/-- The first of some numbers in cyclic order after `last`. -/
def nextAfter (last : Option Nat) (l : List Nat) : Option Nat :=
  match last with
  | none => l.head?
  | some n =>
    match l.find? fun x => n < x with
    | some x => some x
    | none => l.head?

/-- The flow to serve next among those that can be dispatched (R422). -/
def choose (s : State) (flows : List Nat) : Option Nat :=
  let prio (f : Nat) := s.rdf .SCH_CLASS 0 4 0 (flwClass s f)
  let top := (flows.map prio).foldl max 0
  let best := flows.filter fun f => prio f == top
  match nextAfter (tget none s.sched.lastClass top) ((List.range 64).filter fun c => best.any fun f => flwClass s f == c) with
  | none => none
  | some c => nextAfter (tget none s.sched.lastFlow c) (best.filter fun f => flwClass s f == c)

/-- An item goes to the lower-numbered EMPTY slot of core `k` (R423, R426). -/
def dispatchTo (s : State) (f k : Nat) (o : Offer) : State :=
  let i := if (s.landing k 0).state = .empty then 0 else 1
  let q := flwQueue s f
  let c := flwClass s f
  let dseq := s.rdf .FLW_STATUS 16 16 f
  let item : Item := match o with
    | .again j => { j with state := .inSlot, core := k, slot := i }
    | .head d => { queue := q, pos := gqRead s q, flow := f, dseq := dseq, epoch := posEpoch s q (gqRead s q),
                   state := .inSlot, desc := d, core := k, slot := i }
  let s := match o with
    | .again j => s.setItems (mapItem s.sched.items j.queue j.pos fun _ => item)
    | .head _ => ((readEntry s q).1.setItems (s.sched.items ++ [item])).wrf .FLW_STATUS 16 16 (dseq + 1) f
  let s := match o with
    | .again _ => s
    | .head _ => setRead s q (gqRead s q + 32)
  let s := forgetWaits ((s.wrf .FLW_STATUS 8 6 (k + 32) f).count .SCH_DISPATCH_CNT) (· == f)
  let sc := s.sched
  let s := { s with sched := { sc with
    dispatches := sc.dispatches + 1,
    lastClass := tset id none sc.lastClass (s.rdf .SCH_CLASS 0 4 0 c) (some c),
    lastFlow := tset id none sc.lastFlow c (some f) } }
  let s := s.setLanding k i { state := .filling, bytes := item.desc, flow := f, item := some (item.queue, item.pos),
                              order := sc.dispatches }
  match o with
  | .again _ => trace s 4 item
  | .head _ => trace s 0 item

/-- Whether an offer is a re-dispatch. -/
def isAgain : Offer → Bool
  | .again _ => true
  | .head _ => false

/-- The flows that wait for their affinity core now (R423). -/
def markWaiting (s : State) : State :=
  (enabledFlows s).foldl (fun s f =>
    match offer s f with
    | some (.head _) =>
      if anyCore s f && (coreFor s f false).isNone && !(s.sched.waits.contains (headKey s f)) then
        { s with sched := { s.sched with waits := headKey s f :: s.sched.waits } } else s
    | _ => s) s

/-- `STARVED` (R425): the head item of flow `f` has waited with no eligible core. -/
def execStarved (f : Fin 4096) (s : State) : Host.Outcome State Fault Refusal :=
  done (if s.ready .sched = true ∧ s.rd .SCH_STARVE_INT ≠ 0 ∧ (offer s f).any (!isAgain ·) = true ∧
      anyCore s f = false then
    let s := if bit (s.rd .SCH_STARVE_FLOW) 31 then s
             else s.wr .SCH_STARVE_FLOW (BitVec.ofNat 64 (f.val + 2 ^ 31))
    s.evt .sched 4
  else s)

/-! Landing slots (R426 to R429). -/

/-- The prefetched data of a descriptor (R426): whole aligned 16-byte units, no packet across a 256-byte boundary. -/
def prefetch (s : State) (desc : List Byte) (e : Ecc) : State × Option (List Byte) :=
  let a := leNat (desc.take 6)
  let n := min 64 (leNat ((desc.drop 8).take 3))
  let reg := (match targetOf a with
    | .reg _ => true
    | _ => false)
  if n = 0 ∨ reg = true then (s, some [])
  else
    let lo := a / 16 * 16
    let hi := (a + n + 15) / 16 * 16
    let cut := (lo / 256 + 1) * 256
    let m := if cut < hi then cut - lo else hi - lo
    let r := memRead s .sched lo m e
    if r.2.1 ≠ .ok then (r.1, none)
    else if cut < hi then
      let t := memRead r.1 .sched cut (hi - cut)
      if t.2.1 ≠ .ok then (t.1, none) else (t.1, some (((r.2.2 ++ t.2.2).drop (a - lo)).take n))
    else (r.1, some ((r.2.2.drop (a - lo)).take n))

/-- `SLOT_FILL` (R426, R427): the copy of slot `i` of core `k` completes. -/
def execSlotFill (k : Fin 32) (i : Fin 2) (e : Ecc) (s : State) : Host.Outcome State Fault Refusal :=
  done (let v := s.landing k i
    if v.state ≠ .filling then s
    else if v.drop then s.setLanding k i {}
    else
      let dseq := (match s.sched.items.find? fun j => v.item == some (j.queue, j.pos) with
        | some j => j.dseq
        | none => 0)
      let p := prefetch s v.bytes e
      let desc := v.bytes.take 6 ++ leBytes 2 dseq ++ v.bytes.drop 8
      let data := p.2.getD []
      let desc := if p.2.isNone then poisonAt 12 desc else desc
      let s := p.1.setLanding k i { v with
        state := .filled, bytes := desc ++ data ++ List.replicate (64 - data.length) 0 }
      let s := s.wake k
      if p.2.isNone then s.evt .sched 5 else s)

/-- LAND's part of the slots (R428): the FILLED slot that was dispatched earlier is taken. -/
def takeSlot (s : State) (k : Nat) : State × Option Nat :=
  let a := s.landing k 0
  let b := s.landing k 1
  let pick := if a.state = .filled ∧ (b.state ≠ .filled ∨ a.order < b.order) then some 0
    else if b.state = .filled then some 1 else none
  match pick with
  | none => (s, none)
  | some i =>
    let v := s.landing k i
    let s := s.setLanding k i { v with state := .taken }
    match s.sched.items.find? fun j => v.item == some (j.queue, j.pos) with
    | some j => (trace s 1 j, some i)
    | none => (s, some i)

/-- DONE's part of the slots (R429); `none` where the slot is not TAKEN. -/
def doneSlot (s : State) (k i : Nat) : Option State :=
  let v := s.landing k i
  if v.state ≠ .taken then none
  else
    let s := s.setLanding k i {}
    match s.sched.items.find? fun j => v.item == some (j.queue, j.pos) with
    | some j => some (let s := trace s 2 j; if j.state = .left then s else reach s j.queue j.pos)
    | none => some (match v.cancelled with
      | some j => trace s 2 j
      | none => s)

/-! Cancellation, core resets, Standby (R430 to R432). -/

/-- An item leaves its slot: a filled one empties, one being filled does once its copy ends, a taken one stays. -/
def vacate (s : State) (i : Item) : State :=
  let v := s.landing i.core i.slot
  if v.item ≠ some (i.queue, i.pos) then s else
  match v.state with
  | .filled => s.setLanding i.core i.slot {}
  | .filling => s.setLanding i.core i.slot { v with drop := true }
  | .taken => s.setLanding i.core i.slot { v with item := none, cancelled := some i }
  | .empty => s

/-- One item is cancelled (R431). -/
def cancelItem (s : State) (i : Item) : State :=
  let s := s.setItems (s.sched.items.filter fun j => !(j.queue == i.queue && j.pos == i.pos))
  if i.state = .stray then s else
  let s := if i.state = .inSlot ∨ i.state = .left then vacate s i else s
  (trace (s.count .SCH_CANCEL_CNT) 6 i).evt .sched 2

/-- The items of a queue from a position on are cancelled (R431). -/
def cancelFrom (s : State) (q p : Nat) : State :=
  (s.sched.items.filter fun i => i.queue == q && p ≤ i.pos).foldl cancelItem (forgetWaits s fun f => flwQueue s f == q)

/-- RESET of a queue, and what becomes of items in service (R199, R431). -/
def queueResetOp (s : State) (q : Nat) : State := if gqKind s q = 2 then cancelFrom (queueReset s q) q 0 else queueReset s q

/-- An item is abandoned (R430, R432). -/
def abandon (s : State) (i : Item) : State := reach (trace (s.count .SCH_ABANDON_CNT) 5 i) i.queue i.pos

/-- The slots of a core are emptied by its reset or its group's power-off (R430). -/
def emptySlots (s : State) (k : Nat) : State :=
  let mine := s.sched.items.filter fun i => i.state == .inSlot && i.core == k &&
    (s.landing k i.slot).item == some (i.queue, i.pos)
  let s' := mine.foldl (fun s i =>
    let v := s.landing k i.slot
    let again (s : State) := s.setItems (mapItem s.sched.items i.queue i.pos fun j => { j with state := .again })
    match v.state with
    | .taken => if bit (s.rd .FLW_CTRL i.flow) 28 then again s else abandon s i
    | _ => again s) s
  let clear (s : State) (i : Nat) : State :=
    let v := s.landing k i
    if v.state = .filling then s.setLanding k i { v with drop := true, item := none } else s.setLanding k i {}
  let s' := clear (clear s' 0) 1
  if mine = [] then s' else s'.evt .sched 1

/-- On entry to Standby every item in service or in a window is abandoned (R432, R585): it leaves both, and the space of an
item that had reached DONE behind another is among what wake releases. -/
def leaveItems (s : State) : State :=
  (s.sched.items.filter inWindow).foldl (fun s i =>
    trace (s.setItems (mapItem s.sched.items i.queue i.pos fun j => { j with state := .left })) 5 i) s

/-- On wake the space of the abandoned items is released in the order of their dispatch, and they are counted (R432). -/
def releaseLeft (s : State) : State :=
  (s.sched.items.filter fun i => i.state == .left).foldl (fun s i => releaseItem (s.count .SCH_ABANDON_CNT) i) s

/-! Flows. -/

/-- `FLW_CTRL.EN` written 1 (R437): the register holds its other new fields. -/
def flowOn (s : State) (f : Nat) : State :=
  let q := flwQueue s f
  if gqEn s q = true ∧ gqKind s q = 2 ∧ (gqCons s q).1 = 2 ∧ s.rd .FLW_CORES f ≠ 0 then s.wrf .FLW_CTRL 0 1 1 f
  else s.fault .sched 0x0100 f

end Sys2Proof.Machine
end

