-- ==== Sys2Proof/Machine/Resets.lean ====
section
/-! DEFINITION. What a reset leaves of the registers: the Survives letters of each register (R13, R43, R592). -/

namespace Sys2Proof.Machine

/-- A kind of reset, or Standby with wake, by its letter (R13). -/
inductive Letter where
  | B | E | H | W | K | C | Q | T
  deriving DecidableEq, Repr

/-- The place of a letter in `Desc.keep`. -/
def Letter.idx : Letter → Nat
  | .B => 0 | .E => 1 | .H => 2 | .W => 3 | .K => 4 | .C => 5 | .Q => 6 | .T => 7

/-- The block whose pages hold a register. -/
def blockOfKey (k : RegKey) : Option Block :=
  let i := k.inst
  match (regDesc k.reg).grp with
  | .hdr => blockOfPage i
  | .dev => some .devctl
  | .evc => some .evc
  | .tile | .ctxw => if h : i < 48 then some (.tile ⟨i, h⟩) else none
  | .lane => if h : i < 24 then some (.lane ⟨i, h⟩) else none
  | .quad => if h : i < 6 then some (.quad ⟨i, h⟩) else none
  | .mc => if h : i < 8 then some (.mc ⟨i, h⟩) else none
  | .gal | .gq => some .gallery
  | .sch | .flw => some .sched
  | .core => if h : i < 32 then some (.core ⟨i, h⟩) else none
  | .rtr => if h : i < 64 then some (.router ⟨i, h⟩) else none
  | .spb => some .banks
  | .gpio => some .gpio
  | .hth => some .heath
  | .str => some .stair
  | .epo => some .epochs
  | .hlt => some .health
  | .sec => some .security
  | .rlk => some .link
  | .ldr => some .devctl

/-- A register survives a reset of a kind (R13): by its own letters, and for a header register also the letters of the resets
that do not reach its block (R15, R43, log 15); the banks' header page and the link's, whose domain stays on in Standby, keep
their registers over Standby (DESIGN CHOICE, log 147). -/
def survives (k : RegKey) (l : Letter) : Bool :=
  let d := regDesc k.reg
  (d.keep >>> l.idx) % 2 == 1 ||
  (d.grp == .hdr && (match l, blockOfPage k.inst with
    | .H, some .link => false
    | .H, _ => true
    | .C, some (.core _) => false
    | .C, _ => true
    | .T, some .link => true
    | .T, some b => placeOf b == .aon
    | _, _ => false))

/-- The registers of the blocks `p` that do not survive a reset return to their power-on values, with what is staged and
captured of them; force flags of header pages go with `EVT_STATUS` (R13, R51, R62). -/
def clearRegs (s : State) (l : Letter) (p : Block → Bool) : State :=
  let goes (k : RegKey) : Bool := (match blockOfKey k with
    | some b => p b && !survives k l
    | none => false)
  { s with
    regs := s.regs.filter fun e => !goes e.1
    staged := s.staged.filter fun e => !goes e.1
    captured := s.captured.filter fun e => !goes e.1
    force := s.force.filter fun e => !goes ⟨.EVT_STATUS, e.1, 0⟩ }

end Sys2Proof.Machine
end

