-- ==== Sys2Proof/Machine/Tiles.lean ====
section
/-! DEFINITION. The Meadow's tiles (chapters 08 and 09): context words, credits, stray tokens, transport, the in-flight
table, export lines and exit ports. -/

namespace Sys2Proof.Machine

/-- A tile's holding. -/
def State.tile (s : State) (t : Nat) : Tile := tget {} s.tiles t
/-- A tile's holding set. -/
def State.setTile (s : State) (t : Nat) (v : Tile) : State := { s with tiles := tset id {} s.tiles t v }
/-- A recovery domain's holding. -/
def State.domain (s : State) (d : Nat) : Domain := tget {} s.epo.doms d
/-- A recovery domain's holding set. -/
def State.setDomain (s : State) (d : Nat) (v : Domain) : State :=
  { s with epo := { s.epo with doms := tset id {} s.epo.doms d v } }
/-- The block of tile number `t`. -/
def tileB (t : Nat) : Block := .tile ⟨t % 48, Nat.mod_lt _ (by decide)⟩

/-- The recovery domain of a tile (R467). -/
def tileDomain (s : State) (t : Nat) : Nat := s.rdf .EPO_TILE_DOM (2 * (t % 16)) 2 0 (t / 16)

/-- A domain's tiles and entry ports stand still: it recovers, or waits for a boundary (R478, R483). -/
def frozen (s : State) (d : Nat) : Bool := recovering s d || (s.domain d).waits

/-- The FUs of a tile fire (R275, R478). -/
def tileRuns (s : State) (t : Nat) : Bool :=
  s.live (tileB t) && !(bit (s.rd .TILE_CTRL t) 0) && !frozen s (tileDomain s t)

/-- A detected fault in domain `d` (R477): the command that finds it starts the recovery. -/
def detect (s : State) (d site : Nat) : State :=
  { s.evt .epochs 0 with epo := { s.epo with detected := s.epo.detected ++ [.fault d site] } }

/-- A tile fault that is a detected fault (R276, R328, R477). -/
def tileDetected (s : State) (t code detail rec1 : Nat) : State :=
  detect ((s.fault (tileB t) code detail rec1).evt (tileB t) 0) (tileDomain s t) t

/-- Delivery to a tile is stopped: a rotation drains it, the marker having passed its inputs (R570). -/
def deliveryStopped (s : State) (t : Nat) : Bool :=
  s.rdf .HLT_ROT_STATUS 0 3 == 1 && (s.health.rot.map (·.1)) == some t && decide (epochNow s ≤ (s.tile t).epoch)

/-! Context words (R285 to R292). -/

/-- A context word as stored, `FLAGS` included (R287, R341). -/
def ctxWord (s : State) (t f x : Nat) : BitVec 128 :=
  let w (i : Nat) : Nat := fld (s.rd .CTX_WORD t ((f * 16 + x) * 4 + i)) 0 32
  BitVec.ofNat 128 (w 0 + w 1 * 2 ^ 32 + w 2 * 2 ^ 64 + w 3 * 2 ^ 96)

/-- `OPCODE`. -/
def cOp (w : BitVec 128) : Nat := fld w 120 8
/-- `FN`. -/
def cFn (w : BitVec 128) : Nat := fld w 116 4
/-- Source of operand `p` (R288). -/
def cSel (w : BitVec 128) (p : Nat) : Nat := fld w (114 - 2 * p) 2
/-- Merge bit of port `p`. -/
def cMerge (w : BitVec 128) (p : Nat) : Bool := bit w (109 - p)
/-- `K`. -/
def cK (w : BitVec 128) : Word := BitVec.ofNat 32 (fld w 4 32)
/-- A field of output `o` (R286). -/
def cOut (w : BitVec 128) (o lo n : Nat) : Nat := fld w (62 + 22 * o + lo) n
/-- `DKIND` of output `o`. -/
def cKind (w : BitVec 128) (o : Nat) : Nat := cOut w o 19 3
/-- `OENn`. -/
def cOen (w : BitVec 128) (o : Nat) : Nat := fld w (56 + 4 * o) 2
/-- `OSELn`. -/
def cOsel (w : BitVec 128) (o : Nat) : Nat := fld w (54 + 4 * o) 2
/-- How many operands come from ports (R289). -/
def cPorts (w : BitVec 128) : Nat := ((List.range 3).filter fun p => cSel w p == 1).length

/-- The physical context of a logical one (R248). -/
def remapOf (s : State) (t : Nat) (c : BitVec 4) : Nat := s.rdf .TILE_REMAP_ACT (4 * c.toNat) 4 t

/-- Flag bits raised by a firing of epoch `ep` (R291): a sticky OR, also into the snapshots of that epoch and later (R471). -/
def raiseFlags (s : State) (t f x ep bits : Nat) : State :=
  if bits = 0 then s else
  let s := s.orIn .CTX_WORD (BitVec.ofNat 64 bits) t ((f * 16 + x) * 4)
  let v := s.tile t
  s.setTile t { v with snaps := v.snaps.map fun n =>
    if ep ≤ n.epoch then
      { n with flags := tset id 0 n.flags (f * 16 + x) (tget 0 n.flags (f * 16 + x) ||| BitVec.ofNat 4 bits) }
    else n }

/-! Tokens in memory (R283). -/

/-- A token's 16 bytes with an annotation of 28 and 32 bits. -/
def tokenBytes (k : Token) (idle : Bool) (note2 note3 : Nat) : List Byte :=
  leBytes 4 k.data.toNat ++ leBytes 4 (k.tag.toNat + k.ctx.toNat * 2 ^ 28) ++
  leBytes 4 (k.last.toNat + 2 * k.err.toNat + 4 * k.poison.toNat + 8 * idle.toNat + 16 * note2) ++ leBytes 4 note3

/-- The token that 16 bytes hold, and its `IDLE` flag (R284). -/
def tokenOf (bs : List Byte) (epoch : Nat) : Token × Bool :=
  let w0 := leNat (bs.take 4)
  let w1 := leNat ((bs.drop 4).take 4)
  let w2 := leNat ((bs.drop 8).take 4)
  ({ data := BitVec.ofNat 32 w0, tag := BitVec.ofNat 28 w1, ctx := BitVec.ofNat 4 (w1 / 2 ^ 28), last := w2 % 2 == 1,
     err := w2 / 2 % 2 == 1, poison := w2 / 4 % 2 == 1, epoch := epoch }, w2 / 8 % 2 == 1)

/-! Credits (R266 to R269). -/

/-- The tile that port or credit group `n` belongs to, and its index there (R266). -/
def portTile (n : Nat) : Nat := if n < 32 then n / 4 else 40 + (n - 32) / 4
/-- The port or credit group at index `i` of a port tile. -/
def portNum (t i : Nat) : Nat := if t < 8 then 4 * t + i else 32 + 4 * (t - 40) + i
/-- A tile has entry and exit ports (R266). -/
def portTileB (t : Nat) : Bool := t < 8 || (40 ≤ t && t < 48)
/-- The credit group of a tag (R267). -/
def creditGroup (tag : BitVec 28) : Nat := fld tag 16 6

/-- The count of a credit group, signed (R268). -/
def creditCount (s : State) (g : Nat) : Int := sgn 32 (s.rd .TILE_CG_COUNT (portTile g) (g % 4)).toNat

/-- A credit group's count changed (R268). -/
def credit (s : State) (g : Nat) (d : Int) : State :=
  s.wr .TILE_CG_COUNT (BitVec.ofNat 64 (toBits 32 (creditCount s g + d))) (portTile g) (g % 4)

/-- A token retires (R268). -/
def retire (s : State) (k : Token) : State := credit s (creditGroup k.tag) (-1)

/-- A group admits one more token: its count is below its limit (R269). -/
def creditFree (s : State) (g : Nat) : Bool :=
  decide (creditCount s g < (s.rdf .TILE_CG_LIMIT 0 24 (portTile g) (g % 4) : Nat))

/-- A token discarded as stray at tile `t` (R258, R275, R278). -/
def stray (s : State) (t kind idx port : Nat) (k : Token) : State :=
  let s := retire (s.count .TILE_STRAY_CNT 1 t) k
  (s.fault (tileB t) 0x0103 (kind * 2 ^ 14 + idx % 64 + port % 4 * 64 + k.ctx.toNat * 256)).evt (tileB t) 0

/-! The in-flight table (R264, R265). -/

/-- Entries of a tile's in-flight table. -/
def flightCap (t : Nat) : Nat := if portTileB t then 512 else 256

/-- `TILE_STATUS.INFLIGHT`. -/
def inflight (s : State) (t : Nat) : Nat := (s.tile t).ops.length

/-- The lowest free entry. -/
def freeFlight (v : Tile) (n : Nat) : Nat := ((List.range n).find? fun i => (tget none v.ops i).isNone).getD 0

/-- An entry set or freed. -/
def setFlight (s : State) (t i : Nat) (f : Option Flight) : State :=
  let v := s.tile t
  s.setTile t { v with ops := tset id none v.ops i f }

/-- One result of an operation is delivered; with the last its entry frees (R264). -/
def delivered (s : State) (t : Nat) : Option Nat → State
  | none => s
  | some i =>
    match tget none (s.tile t).ops i with
    | some f => setFlight s t i (if f.left ≤ 1 then none else some { f with left := f.left - 1 })
    | none => s

/-- `TILE_STATUS` as it reads (R275, R279). -/
def tileStatus (s : State) (t : Nat) : DWord :=
  let stop := !(s.en (tileB t)) || bit (s.rd .TILE_CTRL t) 0
  BitVec.ofNat 64 ((stop && inflight s t == 0).toNat + 2 * (bit (s.rd .TILE_REMAP_CTRL t) 0).toNat + 65536 * inflight s t)

/-! Transport (R244, R247, R251, R253). -/

/-- The array column group of a tile is powered (R244). -/
def columnOn (s : State) (t : Nat) : Bool := s.powered (.dom (t % 8 / 2))

/-- The next tile on the express way from `a` to `b`, first along the row, then along the column (R247). -/
def expressNext (a b : Nat) : Nat :=
  if a % 8 < b % 8 then a + 1 else if b % 8 < a % 8 then a - 1 else if a / 8 < b / 8 then a + 8 else a - 8

/-- The direction (0 N, 1 E, 2 S, 3 W) from which a token from tile `a` enters tile `b`. -/
def expressFrom (a b : Nat) : Nat :=
  if a / 8 < b / 8 then 0 else if b / 8 < a / 8 then 2 else if a % 8 < b % 8 then 3 else 1

/-- The tile where a token leaves the array's network. -/
def sentTile (k : Sent) : Nat := if k.kind = 4 then portTile k.fu else k.tile

/-- A token that cannot pass a powered-off column group is discarded at the boundary (R275). -/
def offGroup (s : State) (k : Sent) : State :=
  delivered (stray s k.frm 2 (sentTile k) k.port k.tok) k.frm k.op

/-- The token that waits longest at a source. -/
def sentHead (s : State) (t src : Nat) : Option Sent := (tget [] (s.tile t).sent src).head?

/-- A token joins those that wait at a source, before those of later epochs (R470). -/
def joinSent (k : Sent) (l : List Sent) : List Sent :=
  l.filter (fun x => decide (x.tok.epoch ≤ k.tok.epoch)) ++ k :: l.filter fun x => decide (k.tok.epoch < x.tok.epoch)

/-- A token joins those that wait at a source. -/
def pushSource (s : State) (t src : Nat) (k : Sent) : State :=
  let v := s.tile t
  s.setTile t { v with sent := tset id [] v.sent src (joinSent k (tget [] v.sent src)) }

/-- The first token of a source leaves it. -/
def popSource (s : State) (t src : Nat) : State :=
  let v := s.tile t
  s.setTile t { v with sent := tset id [] v.sent src ((tget [] v.sent src).drop 1) }

/-! The marker wave (R32, R470): on every channel the tokens of an epoch come before its marker, and that before later ones. -/

/-- `TILE_EP_CFG` of entry port `n`. -/
def epCfg (s : State) (n : Nat) : DWord := s.rd .TILE_EP_CFG (portTile n) (n % 4)

/-- The marker position of a queue at boundary `n` (R32, R201). -/
def markPos (s : State) (q n : Nat) : Option Nat := ((s.queue q).pend.find? fun b => b.1 == n).map fun b => b.2

/-- The marker that closes epoch `n` has entered at port `p` (R32). -/
def portPassed (s : State) (p n : Nat) : Bool :=
  if bit (epCfg s p) 1 then
    match queueOfCons s 1 p with
    | some q => (match markPos s q n with
      | some m => decide (m ≤ gqRead s q)
      | none => true)
    | none => true
  else true

/-- The destination of output `o` of context word `w` in tile `t`. -/
def sentTo (t : Nat) (w : BitVec 128) (o : Nat) (k : Token) (op : Nat) : Sent :=
  { tok := k, kind := cKind w o, tile := if cKind w o = 3 then cOut w o 13 6 else t, fu := cOut w o 7 6, port := cOut w o 5 2,
    frm := t, op := some op }

/-- The destinations that a context word names. -/
def destsOf (t : Nat) (w : BitVec 128) : List Sent :=
  ([0, 1].map fun o => sentTo t w o {} 0).filter fun k => k.kind != 0

/-- The destinations that the contexts of tile `t` name. -/
def tileDests (s : State) (t : Nat) : List Sent :=
  s.regs.flatMap fun e =>
    if e.1.reg = .CTX_WORD ∧ e.1.inst = t ∧ e.1.idx % 4 = 3 then destsOf t (ctxWord s t (e.1.idx / 64) (e.1.idx / 4 % 16))
    else []

/-- A destination is an FU port of tile `t`. -/
def Sent.toTile (k : Sent) (t : Nat) : Bool := decide (1 ≤ k.kind) && decide (k.kind ≤ 3) && k.tile == t

/-- Divisions and memory operations whose results are to come. -/
def Tile.work (v : Tile) : List Firing :=
  (v.divs.filterMap fun x => x.2) ++ v.divWait ++ v.mems.filter fun f => !f.gone

/-- Tokens of an epoch up to `n` that meet `p`, by tile and destination, are on their way or will be results of work that is
under way. -/
def moving (s : State) (n : Nat) (p : Nat → Sent → Bool) : Bool :=
  s.tiles.any fun e =>
    (e.2.sent.any fun l => l.2.any fun k => decide (k.tok.epoch ≤ n) && p e.1 k) ||
    e.2.work.any fun f => decide (f.epoch ≤ n) && (destsOf e.1 f.word).any (p e.1)

/-- Tokens of an epoch up to `n` are on their way to tile `t`. -/
def toward (s : State) (t n : Nat) : Bool := moving s n fun _ k => k.toTile t

/-- Tokens of an epoch up to `n` wait in a tile's channel buffers, or with the partners of a complete firing. -/
def buffered (v : Tile) (n : Nat) : Bool :=
  v.ports.any fun e => (e.2.buf.any fun k => decide (k.epoch ≤ n)) ||
    (match e.2.head with
    | .ready _ a b c => [a, b, c].any fun x => (match x with
      | some k => decide (k.epoch ≤ n)
      | none => false)
    | _ => false)

/-- What entry port `p` sends where. -/
def portDest (s : State) (p : Nat) : Sent :=
  { tok := {}, kind := 3, tile := fld (epCfg s p) 8 6, fu := fld (epCfg s p) 14 6, port := fld (epCfg s p) 20 2, frm := portTile p,
    op := none }

/-- The enabled entry ports that the marker that closes epoch `n` has not entered. -/
def portsOpen (s : State) (n : Nat) : List Nat :=
  (List.range 64).filter fun p => bit (epCfg s p) 0 && !portPassed s p n

/-- The tiles of `l`, and those that they reach through their contexts. -/
def downstream (s : State) : Nat → List Nat → List Nat
  | 0, l => l
  | m + 1, l =>
    let more := (l.flatMap fun t => ((tileDests s t).filter fun k => decide (k.kind ≤ 3)).map (·.tile)).eraseDups.filter fun t =>
      !l.contains t
    if more = [] then l else downstream s m (l ++ more)

/-- The tiles in which a token of an epoch up to `n` may still fire. -/
def mayFire (s : State) (n : Nat) : List Nat :=
  downstream s 48 ((List.range 48).filter fun t =>
    buffered (s.tile t) n || toward s t n || (portsOpen s n).any fun p => (portDest s p).tile == t)

/-- A token of an epoch up to `n` that meets `p`, by the tile it comes from and its destination, is on its way or may come still. -/
def mayCome (s : State) (n : Nat) (p : Nat → Sent → Bool) : Bool :=
  moving s n p || ((portsOpen s n).any fun q => p (portTile q) (portDest s q)) ||
  (mayFire s n).any fun t => (tileDests s t).any (p t)

/-- The express way from tile `a` to tile `b` leads from tile `x` into tile `y`. -/
def wayHas (x y b : Nat) : Nat → Nat → Bool
  | 0, _ => false
  | n + 1, a => a != b && ((a == x && expressNext a b == y) || wayHas x y b n (expressNext a b))

/-- A token at tile `a` goes over the express network, from tile `x` into tile `y`, or through the crossbar of `x` where they are
one. -/
def crossesTo (x y a : Nat) (k : Sent) : Bool :=
  (k.kind == 3 || k.kind == 4) && sentTile k != a && (if x = y then a == x else wayHas x y (sentTile k) 13 a)

/-- A token of epoch `m` is behind one that comes before it where `p` holds: it waits. -/
def waveHolds (s : State) (m : Nat) (p : Nat → Sent → Bool) : Bool := decide (0 < m) && mayCome s (m - 1) p

/-! The express network (R247, R253): a switch has a buffer of four tokens at each of its inputs, which are sources 128 to 131 of
its tile from its neighbours, 132 to 135 from its entry ports, and 141 from its crossbar; each link takes the lowest source first
among those that wait for it, and so does the crossbar's input (log 138). -/

/-- The crossbar's input of a tile's express switch. -/
def crossbarIn : Nat := 141
/-- A source of a tile reaches the express switch through the tile's crossbar. -/
def viaCrossbar (src : Nat) : Bool := src < 128 || (136 ≤ src && src < crossbarIn)
/-- A source of a tile has room for one more token in its buffer. -/
def roomAt (s : State) (t src : Nat) : Bool := decide ((tget [] (s.tile t).sent src).length < 4)

/-- Where the first token of a source goes next over the express network, where it can go there now: the switch of its own
tile, or the next tile, whose link is free or leads into a column group that is off. Nothing older may still come that way
(R470). -/
def hopTo (s : State) (a src : Nat) : Option Nat :=
  match sentHead s a src with
  | some k =>
    let b := expressNext a (sentTile k)
    if (k.kind ≠ 3 ∧ k.kind ≠ 4) ∨ sentTile k = a ∨ columnOn s a = false then none
    else if viaCrossbar src then
      (if roomAt s a crossbarIn && !waveHolds s k.tok.epoch (crossesTo a a) then some a else none)
    else if columnOn s b = false ∨
        (roomAt s b (128 + expressFrom a b) && !waveHolds s k.tok.epoch (crossesTo a b)) = true then some b
    else none
  | none => none

/-- A token goes through the crossbar to its tile's switch, or crosses one tile boundary. -/
def hop (s : State) (a src b : Nat) : State :=
  match sentHead s a src with
  | some k =>
    let s := popSource s a src
    if b = a then pushSource s a crossbarIn k
    else if columnOn s b then pushSource s b (128 + expressFrom a b) k else offGroup s k
  | none => s

/-- The first token that can move: its tile, its source, the tile it goes to. -/
def nextHop (s : State) : Option (Nat × Nat × Nat) :=
  s.tiles.findSome? fun e => e.2.sent.findSome? fun l => (hopTo s e.1 l.1).map fun b => (e.1, l.1, b)

/-- Up to `n` hops. -/
def expressRun : Nat → State → State
  | 0, s => s
  | n + 1, s =>
    match nextHop s with
    | none => s
    | some x => expressRun n (hop s x.1 x.2.1 x.2.2)

/-- Tokens that wait at sources. -/
def sentCount (s : State) : Nat := (s.tiles.map fun e => (e.2.sent.map fun l => l.2.length).sum).sum

/-- The express network moves what it can: no token has more than its crossbar and 12 boundaries to cross. -/
def express (s : State) : State := expressRun (13 * sentCount s) s

/-- A token of source `src` of tile `t` sets out (R251, R272, R275). -/
def launch (s : State) (t src : Nat) (k : Sent) : State :=
  if k.kind = 5 then
    let s := { s with exports := BitVec.ofNat 32 (setBit (ext s.exports) (k.fu % 32) (bit k.tok.data 0)).toNat }
    delivered (retire s k.tok) t k.op
  else if sentTile k = t then pushSource s t src k
  else express (pushSource s t src k)

/-- The first token of a source has left it; what it held up moves on. -/
def dropSent (s : State) (t src : Nat) : State :=
  let u := popSource s t src
  if (128 ≤ src ∧ src < 132) ∨ (sentHead u t src).isSome = true then express u else u

/-- A token delivered across domains (R469). -/
def crossing (s : State) (a b ep : Nat) : State :=
  let x := tileDomain s a
  let y := tileDomain s b
  if x = y then s
  else
    let s := (s.count .EPO_CROSS_CNT).evt .epochs 6
    if s.epo.pairs.contains (ep, x, y) then s else { s with epo := { s.epo with pairs := s.epo.pairs ++ [(ep, x, y)] } }

/-- The epoch for which an output of domain `d` is held, if it is not committed yet (R33). -/
def holdFor (s : State) (d ep : Nat) : Option Nat := if ep < (s.domain d).next then none else some ep

/-! Outputs of a failed domain (R484). -/

/-- A discontinuity token (R484). -/
def gapBytes (s : State) (first count : Nat) : List Byte :=
  tokenBytes { data := (epochNum s first).setWidth 32 } true 0 count

/-- Discontinuity tokens that a queue still owes are appended while it takes them: those that are left. -/
def feedGaps (q : Nat) : List (Nat × Nat) → State → State × List (Nat × Nat)
  | [], s => (s, [])
  | g :: r, s =>
    let x := appendEntry s q (gapBytes s g.1 g.2) none
    match x.2 with
    | .stalled => (x.1, g :: r)
    | _ => feedGaps q r x.1

/-- What a queue owes is appended (R484). -/
def payGaps (s : State) (q : Nat) : State :=
  if (s.queue q).gaps = [] then s else
  let x := feedGaps q (s.queue q).gaps s
  x.1.setQueue q { x.1.queue q with gaps := x.2 }

/-- An output of a domain goes into its queue, behind the discontinuity tokens (R484). -/
def putOutput (s : State) (q : Nat) (bs : List Byte) (hold : Option Nat) : State × Appended :=
  let s := payGaps s q
  if (s.queue q).gaps = [] then appendEntry s q bs hold else (s, .stalled)

/-! Results (R292). -/

/-- Output `o` produces a token at a firing with predicate `p` (R290). -/
def outOn (w : BitVec 128) (o : Nat) (p : Bool) : Bool :=
  cKind w o != 0 && (cOen w o == 0 || (cOen w o == 1 && p) || (cOen w o == 2 && !p))

/-- The result token of output `o` (R252, R290, R292). -/
def resultToken (f : Firing) (r r2 : Word) (tag : BitVec 28) (err poison : Bool) (o : Nat) : Token :=
  { data := match cOsel f.word o with
      | 0 => r
      | 1 => f.a
      | 2 => f.b
      | _ => r2
    tag := tag
    ctx := if cOut f.word o 0 1 = 1 then f.ctx else BitVec.ofNat 4 (cOut f.word o 1 4)
    last := f.last, err := f.err || err, poison := f.poison || poison, epoch := f.epoch }

/-- The enabled outputs of a firing produce their tokens; `src o` is the source that sends output `o`. With none, the
operation is over (R264). -/
def produce (s : State) (t : Nat) (f : Firing) (src : Nat → Nat) (r r2 : Word) (p : Bool) (tag : BitVec 28)
    (err poison : Bool) : State :=
  let os := [0, 1].filter fun o => outOn f.word o p
  let s := setFlight s t f.op (if os = [] then none else some ⟨f.epoch, os.length⟩)
  os.foldl (fun s o => launch s t (src o) (sentTo t f.word o (resultToken f r r2 tag err poison o) f.op)) s

/-- `ARM` is written 1 in the current epoch (R273). -/
def armTile (s : State) (t : Nat) : State := s.setTile t { s.tile t with armAt := epochNow s }

/-- A firing or an admission clears STALLED (R334). -/
def activity (s : State) (t : Nat) : State :=
  let v := s.tile t
  if v.stalled then s.setTile t { v with stalled := false } else s

end Sys2Proof.Machine
end

