-- ==== Sys2Proof/Machine/Halls.lean ====
section
/-! DEFINITION. Matching halls (chapter 10): placement, ways, spill, the undo log, orphans, and what a token at the head of a
port does. -/

namespace Sys2Proof.Machine

/-! Keys and placement (R310 to R313). -/

/-- Key bits [37:0] (R310). -/
def hallKey (fu : Nat) (k : Token) : Nat := k.tag.toNat + k.ctx.toNat * 2 ^ 28 + fu * 2 ^ 32

/-- The set index (R312): bits [1:0] the bank, [8:2] the set. -/
def hallIndex (s : State) (t fu : Nat) (k : Token) : Nat :=
  let key := hallKey fu k
  let u := key >>> 9
  let v := (u ^^^ (u >>> 9) ^^^ (u >>> 18) ^^^ (u >>> 27)) % 512
  (key % 512 ^^^ v) ^^^ s.rdf .HALL_HASH 0 9 t

/-- Two operands have one tag, context and FU. -/
def sameKey (e : HEntry) (fu : Nat) (k : Token) : Bool := e.fu == fu && e.one.tag == k.tag && e.one.ctx == k.ctx

/-- The epoch of an entry. -/
def HEntry.epoch (e : HEntry) : Nat := e.one.epoch

/-- The tokens of an entry, each with its port. -/
def HEntry.tokens (e : HEntry) : List (Token × Nat) :=
  match e.two with
  | some b => [(e.one, 0), (b, 1)]
  | none => [(e.one, e.kind)]

/-- A pair, waiting for its C operand (R311). -/
def pairOf (fu : Nat) (a b : Token) : HEntry :=
  let ep := max a.epoch b.epoch
  { fu := fu, kind := 3, one := { a with epoch := ep }, two := some { b with epoch := ep } }

/-- `HALL_CTRL.SPILL_EN`. -/
def spillEn (s : State) (t : Nat) : Bool := bit (s.rd .HALL_CTRL t) 8

/-- A hall cause occurs (R339): ORPHAN sets the tile's event at most once per epoch (R331). -/
def hallCause (s : State) (t i : Nat) : State :=
  let s := s.orIn .HALL_CAUSE (BitVec.ofNat 64 (2 ^ i)) t
  if bit (s.rd .HALL_CTRL t) (12 + i) = false then s
  else if i ≠ 0 then s.evt (tileB t) 1
  else if (s.tile t).orphanIn = some (epochNow s) then s
  else (s.setTile t { s.tile t with orphanIn := some (epochNow s) }).evt (tileB t) 1

/-! Ways. -/

/-- Way `i` of a hall, counted over all sets. -/
def Tile.way (v : Tile) (i : Nat) : Way := tget .free v.ways i

/-- Ways in use (R337). -/
def onchip (v : Tile) : Nat := v.ways.length

/-- The four ways of a set. -/
def setWays (idx : Nat) : List Nat := (List.range 4).map fun w => 4 * idx + w

/-- The first way, lowest first, that holds an entry of a key and kind (R318). -/
def findWay (v : Tile) (idx fu : Nat) (k : Token) (kind : Nat) : Option (Nat × HEntry) :=
  (setWays idx).findSome? fun w =>
    match v.way w with
    | .entry e => if e.kind == kind && sameKey e fu k then some (w, e) else none
    | _ => none

/-- The entry in way `w` removed, with the second way of a pair. -/
def dropWay (s : State) (t w : Nat) : State :=
  let v := s.tile t
  s.setTile t { v with ways := v.ways.filter fun e => e.1 != w && e.2 != .second w }

/-- Free ways of a set. -/
def freeWays (v : Tile) (idx : Nat) : List Nat := (setWays idx).filter fun w => v.way w == .free

/-- A single whose key an entry on chip holds counts as a duplicate, wherever it is stored (R318). -/
def noteTwin (s : State) (t : Nat) (e : HEntry) : State :=
  if e.kind ≠ 3 ∧ (findWay (s.tile t) (hallIndex s t e.fu e.one) e.fu e.one e.kind).isSome = true then
    s.count .HALL_DUP_CNT 1 t
  else s

/-- An entry stored in its set, where it has room (R313, R319). -/
def storeWay (s : State) (t : Nat) (e : HEntry) : Option State :=
  let v := s.tile t
  let idx := hallIndex s t e.fu e.one
  let ws (v : Tile) : Option Tile := (match freeWays v idx, e.kind with
    | a :: b :: _, 3 => some { v with ways := tset id .free (tset id .free v.ways a (.entry e)) b (.second a) }
    | _, 3 => none
    | a :: _, _ => some { v with ways := tset id .free v.ways a (.entry e) }
    | [], _ => none)
  match ws v with
  | some u =>
    some ((s.setTile t u).raiseTo .HALL_ONCHIP_HWM (onchip u) t)
  | none => none

/-- An uncorrectable way is found (R328, R340): its whole entry is lost, its tokens destroyed and not retired. -/
def loseWay (s : State) (t w : Nat) : State :=
  let v := s.tile t
  let first := match v.way w with
    | .second a => a
    | _ => w
  let ks := match v.way first with
    | .entry e => e.tokens
    | _ => []
  let s := s.setTile t { v with lost := ks.foldl (fun l k =>
    tset id 0 l (creditGroup k.1.tag) (tget 0 l (creditGroup k.1.tag) + 1)) v.lost }
  tileDetected (dropWay s t first) t 0x0200 (w / 4 + w % 4 * 512) 0

/-! Spill (R319 to R328). -/

/-- The region's address (R320). -/
def spillBase (s : State) (t : Nat) : Nat := (s.rd .HALL_SPILL_BASE t).toNat * 2 ^ 16
/-- The region's size. -/
def spillSize (s : State) (t : Nat) : Nat := 2 ^ s.rdf .HALL_SPILL_SIZE 0 5 t
/-- The number of buckets (R320). -/
def buckets (s : State) (t : Nat) : Nat := spillSize s t / 64

/-- A key's home bucket (R320). -/
def homeBucket (s : State) (t fu : Nat) (k : Token) : Nat :=
  (hallKey fu k / 512 * 512 + hallIndex s t fu k) % buckets s t

/-- The probe group of a key (R320). -/
def probeGroup (s : State) (t fu : Nat) (k : Token) : List Nat :=
  (List.range 4).map fun i => (homeBucket s t fu k + i) % buckets s t

/-- The spill filter's counter for a key (R323). -/
def filterAt (s : State) (t fu : Nat) (k : Token) : Nat := tget 0 (s.tile t).filter (homeBucket s t fu k % 4096)

/-- The four flags of a token, `IDLE` 0 (R321). -/
def flags4 (k : Token) : Nat := k.last.toNat + 2 * k.err.toNat + 4 * k.poison.toNat

/-- The 16 bytes of an occupied slot (R321, R322). -/
def slotBytes (gen : Nat) (e : HEntry) : List Byte :=
  let two : Token := e.two.getD {}
  leBytes 4 e.one.data.toNat ++ leBytes 4 two.data.toNat ++ leBytes 4 (e.one.tag.toNat + e.one.ctx.toNat * 2 ^ 28) ++
  leBytes 4 (e.fu % 64 + e.kind % 4 * 64 + flags4 e.one * 256 + flags4 two * 4096 + e.epoch % 256 * 65536 +
    gen % 16 * 2 ^ 24 + 2 ^ 31)

/-- The epoch of an 8-bit stamp, as seen in epoch `now` (R329). -/
def stampEpoch (now stamp : Nat) : Nat := now - (now + 256 - stamp % 256) % 256

/-- The entry in a slot, if the slot is occupied (R321, R322). -/
def slotEntry (now gen : Nat) (bs : List Byte) : Option HEntry :=
  let w (i : Nat) : Nat := leNat ((bs.drop (4 * i)).take 4)
  let w3 := w 3
  if w3 / 2 ^ 31 = 0 ∨ w3 / 2 ^ 24 % 16 ≠ gen % 16 then none
  else
    let kind := w3 / 64 % 4
    let tk (data fl : Nat) : Token :=
      { data := BitVec.ofNat 32 data, tag := BitVec.ofNat 28 (w 2), ctx := BitVec.ofNat 4 (w 2 / 2 ^ 28), last := fl % 2 == 1,
        err := fl / 2 % 2 == 1, poison := fl / 4 % 2 == 1, epoch := stampEpoch now (w3 / 65536 % 256) }
    some { fu := w3 % 64, kind := kind, one := tk (w 0) (w3 / 256 % 16),
           two := if kind = 3 then some (tk (w 1) (w3 / 4096 % 16)) else none }

/-- The hall of tile `t` as a requester (R491). -/
def hallReq (t : Nat) : Requester := .hall ⟨t % 48, Nat.mod_lt _ (by decide)⟩

/-- `HALL_SPILL_USED` set: the level cause on its way up (R326), the filter cleared at zero (R323). -/
def setUsed (s : State) (t n : Nat) : State :=
  let old := (s.rd .HALL_SPILL_USED t).toNat
  let thr := (s.rd .HALL_SPILL_THR t).toNat
  let s := s.wr .HALL_SPILL_USED (BitVec.ofNat 64 n) t
  let s := if n = 0 then s.setTile t { s.tile t with filter := [] } else s
  if old < thr ∧ thr ≤ n then hallCause s t 3 else s

/-- The counts of one more or one less spilled entry (R323, R326, R330). -/
def spillCount (s : State) (t : Nat) (e : HEntry) (up : Bool) : State :=
  let v := s.tile t
  let b := homeBucket s t e.fu e.one % 4096
  let c := tget 0 v.filter b
  let st := e.epoch % 256
  let n := (s.rd .HALL_SPILL_USED t).toNat
  let s := s.setTile t { v with
    filter := tset id 0 v.filter b (if c = 255 then 255 else if up then c + 1 else c - 1)
    stamps := tset id 0 v.stamps st (if up then tget 0 v.stamps st + 1 else tget 0 v.stamps st - 1) }
  setUsed s t (if up then n + 1 else n - 1)

/-- The spill undo log is written for tile `t` (R475). -/
def undoOn (s : State) (t : Nat) : Bool :=
  bit (s.rd .EPO_CTRL) 2 && bit (s.rd .EPO_DOM_CTRL 0 (tileDomain s t)) 0

/-- The address of entry `i` of a tile's undo log (R475). -/
def undoAddr (s : State) (t i : Nat) : Nat :=
  (s.rd .EPO_UNDO_BASE).toNat * 2 ^ 16 + t * 2 ^ s.rdf .EPO_UNDO_SIZE 0 5 + 32 * i

/-- Fault UNDO_ERROR of a tile's log entry (R477, R490). -/
def undoError (s : State) (t i : Nat) : State :=
  detect (s.fault .epochs 0x0102 t i) (tileDomain s t) t

/-- One undo entry (R475): a log that would overflow stops until the next commit. -/
def logUndo (s : State) (t bucket slot ep : Nat) (old : List Byte) (removal : Bool) : State :=
  if undoOn s t = false ∨ (s.tile t).undoOver = true then s else
  let v := s.tile t
  let cap := 2 ^ (s.rdf .EPO_UNDO_SIZE 0 5 - 5)
  if cap ≤ v.undo.length then (s.setTile t { v with undoOver := true }).evt .epochs 3 else
  let i := match v.undo.getLast? with
    | some u => (u.1 + 1) % cap
    | none => 0
  let s := s.setTile t { v with undo := v.undo ++ [(i, ep)] }
  let bs := old ++ leBytes 4 bucket ++ leBytes 4 (slot + 256 * removal.toNat) ++ leBytes 4 (epochNum s ep).toNat ++ leBytes 4 0
  let r := memWrite s (hallReq t) (undoAddr s t i) bs
  if r.2 = .ok then r.1 else undoError r.1 t i

/-- Fault SPILL_ACCESS (R328). -/
def spillAccess (s : State) (t bucket : Nat) (st : Status) : State := tileDetected s t 0x0202 st.code bucket

/-- One bucket read (R325, R328): its bytes, or nothing where the answer is an error. A poisoned burst loses its slots: the
counts are corrected for those whose keys the delivered data still shows, and the lost tokens are not retired. -/
def readBucket (s : State) (t b : Nat) (e : Ecc) : State × Option (List Byte) :=
  let a := spillBase s t + 64 * b
  let r := memRead s (hallReq t) a 64 e
  let s := r.1
  match r.2.1 with
  | .ok => (s, some r.2.2)
  | .poison =>
    let v := s.tile t
    let es := (List.range 4).filterMap fun i => slotEntry v.epoch v.gen ((r.2.2.drop (16 * i)).take 16)
    let s := es.foldl (fun s e =>
      let s := spillCount s t e false
      let v := s.tile t
      s.setTile t { v with lost := e.tokens.foldl (fun l k =>
        tset id 0 l (creditGroup k.1.tag) (tget 0 l (creditGroup k.1.tag) + 1)) v.lost }) s
    (tileDetected (s.putBytes a (List.replicate 64 0)) t 0x0201 0 b, some (List.replicate 64 0))
  | st => (spillAccess s t b st, none)

/-- One slot of a bucket written back with its burst (R325), after its undo entry; whether it was written. -/
def writeSlot (s : State) (t b i ep : Nat) (bs : List Byte) (removal : Bool) : State × Bool :=
  let a := spillBase s t + 64 * b
  let old := s.bytes a 64
  let s := logUndo s t b i ep ((old.drop (16 * i)).take 16) removal
  let r := memWrite s (hallReq t) a (old.take (16 * i) ++ bs ++ old.drop (16 * i + 16))
  if r.2 = .ok then (r.1, true) else (spillAccess r.1 t b r.2, false)

/-- A spilled entry leaves its slot. -/
def removeSlot (s : State) (t b i ep : Nat) (e : HEntry) : State :=
  spillCount (writeSlot s t b i (max ep e.epoch) (List.replicate 16 0) true).1 t e false

/-- A bucket that this arrival has read before (R324): its bytes, without a second report. -/
def peekBucket (s : State) (t b : Nat) : Option (List Byte) :=
  let a := spillBase s t + 64 * b
  match (memRead s (hallReq t) a 64).2.1 with
  | .ok => some (s.bytes a 64)
  | .poison => some (List.replicate 64 0)
  | _ => none

/-- A bucket before those of a group, where all of them have answered. -/
def consBucket (b : Nat) : Option (List Byte) → Option (List (Nat × List Byte)) → Option (List (Nat × List Byte))
  | some bs, some g => some ((b, bs) :: g)
  | _, _ => none

/-- The buckets of a probe group read, in order, each with what error correction finds; nothing where one answers with an
error (R328). -/
def readGroup (s : State) (t : Nat) : List Nat → List Ecc → State × Option (List (Nat × List Byte))
  | [], _ => (s, some [])
  | b :: r, es =>
    let x := readBucket s t b (es.headD .ok)
    let y := readGroup x.1 t r (es.drop 1)
    (y.1, consBucket b x.2 y.2)

/-- A probe group as this arrival has read it before. -/
def peekGroup (s : State) (t : Nat) : List Nat → Option (List (Nat × List Byte))
  | [] => some []
  | b :: r => consBucket b (peekBucket s t b) (peekGroup s t r)

/-- A probe group read, or taken as this arrival has read it before (R324). -/
def groupOnce (s : State) (t : Nat) (bs : List Nat) (seen : Bool) (es : List Ecc) : State × Option (List (Nat × List Byte)) :=
  if seen then (s, peekGroup s t bs) else readGroup s t bs es

/-- The slots of buckets, in order: bucket, slot, and the entry in it. -/
def slotsOf (s : State) (t : Nat) (g : List (Nat × List Byte)) : List (Nat × Nat × Option HEntry) :=
  let v := s.tile t
  g.flatMap fun b => (List.range 4).map fun i => (b.1, i, slotEntry v.epoch v.gen ((b.2.drop (16 * i)).take 16))

/-! Orphans (R329 to R332). -/

/-- An entry's age in the tile's epoch (R329). -/
def ageOf (v : Tile) (e : HEntry) : Nat := (v.epoch + 256 - e.epoch % 256) % 256

/-- An orphan entry (R332). -/
def orphanBytes (s : State) (t : Nat) (v : Tile) (e : HEntry) (k : Token) (port reason : Nat) (spilled : Bool) : List Byte :=
  let ep := if reason = 1 then (if spilled then e.epoch + v.limit else v.epoch) else v.epoch
  tokenBytes k false (reason + port * 16 + e.fu * 64 + t * 4096 + ageOf v e * 2 ^ 18 + spilled.toNat * 2 ^ 26 +
    e.two.isSome.toNat * 2 ^ 27) (epochNum s ep).toNat

/-- An entry is evicted (R331): its tokens retire, and each becomes an entry of the tile's orphan queue. -/
def evict (s : State) (t : Nat) (e : HEntry) (reason : Nat) (spilled : Bool) : State :=
  let s := e.tokens.foldl (fun s k =>
    let s := (retire s k.1).count .HALL_ORPHAN_CNT 1 t
    match queueOfProd s 5 t none with
    | some q =>
      (putOutput s q (orphanBytes s t (s.tile t) e k.1 k.2 reason spilled) (holdFor s (tileDomain s t) (s.tile t).epoch)).1
    | none => s.count .HALL_ORPHAN_DROP 1 t) s
  hallCause s t 0

/-- The ageing pass (R329): entries on chip in ascending set and way. -/
def ageingPass (s : State) (t : Nat) : State :=
  let s := (s.tile t).ways.foldl (fun s e =>
    match e.2 with
    | .entry h => if (s.tile t).limit ≤ ageOf (s.tile t) h then evict (dropWay s t e.1) t h 1 false else s
    | _ => s) s
  let v := s.tile t
  let due := v.stamps.any fun e => decide (v.limit ≤ (v.epoch + 256 - e.1) % 256)
  s.setTile t { v with scanning := due, scanAt := if v.scanning then v.scanAt else 0 }

/-- A spilled entry of a matching key (R318), a miss where the group cannot be read (R328): aged ones are evicted at once
(R330), then the oldest, in probe-group order. -/
def spillFind (s : State) (t fu : Nat) (k : Token) (kind : Nat) (seen : Bool) (es : List Ecc) : State × Option HEntry :=
  let g := groupOnce s t (probeGroup s t fu k) seen es
  let hits := (slotsOf g.1 t (g.2.getD [])).filterMap fun x =>
    match x.2.2 with
    | some e => if e.kind == kind && sameKey e fu k then some (x.1, x.2.1, e) else none
    | none => none
  let v := g.1.tile t
  let aged := hits.filter fun x => decide (v.limit ≤ ageOf v x.2.2)
  let fresh := hits.filter fun x => !decide (v.limit ≤ ageOf v x.2.2)
  let s := aged.foldl (fun s x => evict (removeSlot s t x.1 x.2.1 v.epoch x.2.2) t x.2.2 1 true) g.1
  let best := fresh.foldl (fun (b : Option (Nat × Nat × HEntry)) x =>
    match b with
    | some y => if x.2.2.epoch < y.2.2.epoch then some x else b
    | none => some x) none
  match best with
  | some x => ((removeSlot s t x.1 x.2.1 k.epoch x.2.2).count .HALL_SPILL_HIT 1 t, some x.2.2)
  | none => (s.count .HALL_SPILL_MISS 1 t, none)

/-- An entry stored in the first free slot of its probe group (R320): whether it found room. The change is one of the tile's
present epoch, so that a snapshot of an earlier one, whose image holds a late entry, does not find it twice (R471, R475). -/
def spillStore (s : State) (t : Nat) (e : HEntry) (seen : Bool) (es : List Ecc) : State × Bool :=
  let g := groupOnce s t (probeGroup s t e.fu e.one) seen es
  match (slotsOf g.1 t (g.2.getD [])).find? fun x => x.2.2.isNone with
  | none => (g.1, false)
  | some x =>
    let r := writeSlot g.1 t x.1 x.2.1 (g.1.tile t).epoch (slotBytes (g.1.tile t).gen e) false
    if r.2 then ((spillCount r.1 t e true).count .HALL_SPILL_OUT 1 t, true) else (r.1, false)

/-! Snapshots that are still being taken (R471, R639). -/

/-- A snapshot's image when a token of its epoch or an earlier one arrives, as if no later token had. -/
def imageArrive (img : List HEntry) (fu p n : Nat) (k : Token) : List HEntry :=
  let find (kind : Nat) (l : List HEntry) : Option HEntry := l.find? fun e => e.kind == kind && sameKey e fu k
  let single : HEntry := { fu := fu, kind := p, one := k }
  if n = 2 ∨ p = 2 then
    match find (if n = 2 then 1 - p else 3) img with
    | some e => img.erase e
    | none => img ++ [single]
  else
    match find (1 - p) img with
    | none => img ++ [single]
    | some e =>
      let img := img.erase e
      match find 2 img with
      | some c => img.erase c
      | none => img ++ [if p = 0 then pairOf fu k e.one else pairOf fu e.one k]

/-- The open snapshots follow a late arrival, one that meets a spilled entry `far` where that is in the image; one whose image
would pass 2,048 entries is lost (R639). -/
def noteArrival (s : State) (t fu p n : Nat) (k : Token) (far : Option HEntry) : State :=
  let v := s.tile t
  if v.epoch ≤ k.epoch then s else
  let snaps := v.snaps.map fun x =>
    if decide (x.epoch < k.epoch) || (match far with
        | some e => decide (e.epoch ≤ x.epoch) && !x.image.contains e
        | none => false) then x
    else { x with image := imageArrive x.image fu p n k }
  let full := snaps.any fun x => decide (2048 < x.image.length)
  let s := if full && !v.snapOver then s.evt .epochs 3 else s
  s.setTile t { v with snaps := snaps, snapOver := v.snapOver || full }

/-! Arrivals (R314 to R319, R327). -/

/-- What an arrival finds. -/
inductive Found where
  | none | chip (w : Nat) (e : HEntry) | spilled (e : HEntry)
  deriving DecidableEq, Repr

/-- A lookup of a key goes on into spill (R319, R322). -/
def spillLooks (s : State) (t fu : Nat) (k : Token) : Bool :=
  spillEn s t && (s.tile t).spillReady && filterAt s t fu k != 0

/-- A partner looked up on chip, then in spill where `deep` allows; `true` where spill would have to be read first. -/
def lookup (s : State) (t fu : Nat) (k : Token) (kind : Nat) (deep seen : Bool) (es : List Ecc) : State × Found × Bool :=
  match findWay (s.tile t) (hallIndex s t fu k) fu k kind with
  | some (w, e) => (s, .chip w e, false)
  | none =>
    if spillLooks s t fu k = false then (s, .none, false)
    else if deep = false then (s, .none, true)
    else match spillFind s t fu k kind seen es with
      | (s, some e) => (s, .spilled e, false)
      | (s, none) => (s, .none, false)

/-- What was found, taken out of its place; a spilled one has left its slot. -/
def takeFound (s : State) (t : Nat) : Found → State
  | .chip w _ => dropWay s t w
  | _ => s

/-- The entry found. -/
def Found.entry : Found → Option HEntry
  | .none => Option.none
  | .chip _ e => some e
  | .spilled e => some e

/-- An entry found in spill. -/
def Found.far : Found → Option HEntry
  | .spilled e => some e
  | _ => Option.none

/-- How an arrival ends: its operands are complete, it is stored or evicted, it has to read spill, or the store of its single
or of the pair that it forms is held. -/
inductive Arrived where
  | fires (a b c : Option Token) | stored | deep | held (pair : Option HEntry)
  deriving DecidableEq, Repr

/-- An entry stored on chip, else in spill, else handled as `FULLPOL` says (R319, R327). -/
def storeEntry (s : State) (t : Nat) (e : HEntry) (deep seen : Bool) (es : List Ecc) : State × Arrived :=
  match storeWay (noteTwin s t e) t e with
  | some s => (s, .stored)
  | none =>
    if spillEn s t && !deep then (s, .deep) else
    let r := if spillEn s t then spillStore s t e seen es else (s, false)
    if r.2 then (noteTwin r.1 t e, .stored)
    else
      let s := hallCause r.1 t 1
      if bit (s.rd .HALL_CTRL t) 9 then (evict s t e 3 false, .stored) else (s, .held none)

/-- One match (R337). -/
def countMatch (s : State) (t : Nat) : State := s.count .HALL_MATCH_CNT 1 t

/-- A pair that has formed (R314): with a waiting C operand it fires, else it is stored. -/
def pairUp (s : State) (t : Nat) (e : HEntry) (deep seen : Bool) (es : List Ecc) : State × Arrived :=
  let y := lookup s t e.fu e.one 2 deep seen es
  if y.2.2 then (s, .deep) else
  match y.2.1.entry with
  | some c => (countMatch (takeFound y.1 t y.2.1) t, .fires (some e.one) e.two (some c.one))
  | none =>
    let r := storeEntry y.1 t e deep (seen || spillLooks s t e.fu e.one) es
    match r.2 with
    | .deep => (s, .deep)
    | .held _ => (r.1, .held (some e))
    | _ => r

/-- The handling of an arrival at port `p` under a context with `n` port operands (R314, R319). Without `deep` it leaves
everything as it is where spill has to be read. -/
def arrive (s0 : State) (t fu p n : Nat) (k : Token) (deep : Bool) (es : List Ecc) : State × Arrived :=
  let seen := spillLooks s0 t fu k
  let x := lookup s0 t fu k (if p = 2 then 3 else 1 - p) deep false es
  if x.2.2 then (s0, .deep) else
  match x.2.1.entry with
  | none =>
    let r := storeEntry x.1 t { fu := fu, kind := p, one := k } deep seen es
    match r.2 with
    | .deep => (s0, .deep)
    | .held _ => r
    | _ => (noteArrival r.1 t fu p n k none, r.2)
  | some e =>
    if n = 2 then
      let s := noteArrival (countMatch (takeFound x.1 t x.2.1) t) t fu p n k x.2.1.far
      (s, if p = 0 then .fires (some k) (some e.one) none else .fires (some e.one) (some k) none)
    else if p = 2 then
      let s := noteArrival (countMatch (takeFound x.1 t x.2.1) t) t fu p n k x.2.1.far
      (s, .fires (some e.one) e.two (some k))
    else
      let pair := if p = 0 then pairOf fu k e.one else pairOf fu e.one k
      let r := pairUp (countMatch (takeFound x.1 t x.2.1) t) t pair deep x.2.1.far.isSome es
      match r.2 with
      | .deep => (s0, .deep)
      | .fires _ _ c =>
        (noteArrival r.1 t fu p n k x.2.1.far, if p = 0 then .fires (some k) (some e.one) c else .fires (some e.one) (some k) c)
      | _ => (noteArrival r.1 t fu p n k x.2.1.far, r.2)

/-! Ports (R256 to R258, R317). -/

/-- A port. -/
def portOf (s : State) (t pk : Nat) : Port := tget {} (s.tile t).ports pk
/-- A port set. -/
def setPortOf (s : State) (t pk : Nat) (v : Port) : State :=
  s.setTile t { s.tile t with ports := tset id {} (s.tile t).ports pk v }

/-- A token of a source enters a channel buffer: it is delivered (R264), across domains perhaps (R469). -/
def enter (s : State) (t pk src : Nat) (k : Sent) : State :=
  let s := if k.op.isSome then crossing s k.frm t k.tok.epoch else s
  let s := delivered (dropSent s t src) k.frm k.op
  let v := portOf s t pk
  setPortOf s t pk { v with buf := v.buf ++ [k.tok] }

/-- Source `src` of tile `t` has a token for port `pk` of its tile. -/
def asksPort (s : State) (t pk src : Nat) : Bool :=
  match sentHead s t src with
  | some k => decide (k.kind ≤ 3) && k.tile == t && 3 * k.fu + k.port == pk
  | none => false

/-- The request that an arbiter grants next: the lowest source number of those that wait (R253). -/
def grantNext (l : List Nat) : Option Nat := l.min?

/-- A request may be granted: its token is of no epoch whose marker the tile still awaits (R470), and a rotation that drains the
tile does not stop it (R570). -/
def maySend (s : State) (t src : Nat) : Bool :=
  !(deliveryStopped s t && decide (128 ≤ src) && decide (src < 136)) &&
  match sentHead s t src with
  | some k => decide (k.tok.epoch ≤ (s.tile t).epoch)
  | none => false

/-- A waiting request of a port takes the place that is free. -/
def takeRequest (s : State) (t pk : Nat) : State :=
  let v := portOf s t pk
  let asks := v.waiting.filter (asksPort s t pk)
  match grantNext (asks.filter (maySend s t)) with
  | none => setPortOf s t pk { v with waiting := asks }
  | some src =>
    match sentHead s t src with
    | some k => enter (setPortOf s t pk { v with waiting := asks.erase src }) t pk src k
    | none => s

/-- The head of a port has gone: a waiting request takes the place. -/
def popHead (s : State) (t pk : Nat) : State :=
  let v := portOf s t pk
  let s := s.setTile t { s.tile t with waits := (s.tile t).waits.erase pk }
  takeRequest (setPortOf s t pk { v with buf := v.buf.drop 1, head := .fresh }) t pk

/-- Waiting requests take the free places of a port. -/
def fillPort (s : State) (t pk : Nat) : State :=
  (List.range (4 - (portOf s t pk).buf.length)).foldl (fun s _ => takeRequest s t pk) s

/-- Waiting requests take the free places of a tile's ports: its marker has passed, or delivery goes on. -/
def fillPorts (s : State) (t : Nat) : State := ((s.tile t).ports.map Prod.fst).foldl (fun s pk => fillPort s t pk) s

/-- A head whose store is held (R327). -/
def Head.isHeld : Head → Bool
  | .held _ => true
  | _ => false

/-- Pending spill slots in use (R324): arrivals that wait for spill, and held stores. -/
def pendingSlots (v : Tile) : Nat :=
  (v.ports.filter fun e => e.2.head == .spill || e.2.head.isHeld).length + v.returning.length

/-- A head waits to be served, behind those that came before it (R315). -/
def waitHead (s : State) (t pk : Nat) : State :=
  let v := s.tile t
  if v.waits.contains pk then s else s.setTile t { v with waits := v.waits ++ [pk] }

/-- An arrival that could not be completed without spill, or whose store is held, waits at the head (R317, R327). -/
def settleHead (s : State) (t pk : Nat) (r : State × Arrived) (pctx : Nat) : State × Bool :=
  match r.2 with
  | .fires a b c => (setPortOf r.1 t pk { portOf r.1 t pk with head := .ready pctx a b c }, false)
  | .stored => (popHead r.1 t pk, true)
  | .deep =>
    if pendingSlots (s.tile t) < 16 then
      let s := setPortOf s t pk { portOf s t pk with head := .spill }
      (s.setTile t { s.tile t with spills := (s.tile t).spills ++ [pk] }, false)
    else (waitHead s t pk, false)
  | .held pair =>
    if pendingSlots (s.tile t) < 16 then (setPortOf r.1 t pk { portOf r.1 t pk with head := .held pair }, false)
    else (waitHead s t pk, false)

/-- The head of a port is served (R248, R256 to R258, R314): a token behind the marker waits, a stray goes, an operand is
presented, an operand of two or three goes through the hall. -/
def serve (t pk : Nat) : Nat → State → State
  | 0, s => s
  | n + 1, s =>
    let v := portOf s t pk
    match v.buf, v.head with
    | k :: _, .fresh =>
      if (s.tile t).epoch < k.epoch then waitHead s t pk else
      let f := pk / 3
      let p := pk % 3
      let x := remapOf s t k.ctx
      let w := ctxWord s t f x
      if cOp w = 0 ∨ cSel w p ≠ 1 then serve t pk n (popHead (stray s t 0 f p k) t pk)
      else if cPorts w = 1 then setPortOf s t pk { v with head := .ready x (some k) none none }
      else
        let r := settleHead s t pk (arrive s t f p (cPorts w) k false []) x
        if r.2 then serve t pk n r.1 else r.1
    | _, _ => s

/-- A port served as far as it goes; a buffer holds 4 tokens and takes waiting ones. -/
def servePort (s : State) (t pk : Nat) : State := serve t pk (4 + (portOf s t pk).waiting.length) s

/-- Heads served one after the other in the order in which they came: a token behind a head comes after those that wait (R315). -/
def serveInTurn (t : Nat) : Nat → List Nat → State → State
  | 0, _, s => s
  | _, [], s => s
  | n + 1, pk :: r, s =>
    let s := serve t pk 1 s
    let v := portOf s t pk
    serveInTurn t n (if v.head = .fresh ∧ v.buf ≠ [] ∧ (s.tile t).waits.contains pk = false then r ++ [pk] else r) s

/-- Every port of a tile served, those whose heads wait in the order in which they came (R315). -/
def serveTile (s : State) (t : Nat) : State :=
  let v := s.tile t
  let rest := (v.ports.map Prod.fst).filter fun pk => !v.waits.contains pk
  let n := (v.ports.map fun e => 5 + e.2.waiting.length).sum
  serveInTurn t n (v.waits ++ rest) (s.setTile t { v with waits := [] })

/-- An entry that has left the hall goes back into it; one that finds no room waits for it. -/
def giveBack (s : State) (t : Nat) (e : HEntry) : State :=
  let r := storeEntry s t e true false []
  match r.2 with
  | .held _ => r.1.setTile t { r.1.tile t with returning := (r.1.tile t).returning ++ [e] }
  | _ => r.1

/-- A pending spill operation, or a held store that is retried, is carried out (R319, R325, R327). -/
def finishHead (s : State) (t pk : Nat) (es : List Ecc) : State :=
  let v := portOf s t pk
  match v.buf with
  | [] => s
  | k :: _ =>
    let x := remapOf s t k.ctx
    let w := ctxWord s t (pk / 3) x
    let s := s.setTile t { s.tile t with spills := (s.tile t).spills.erase pk }
    let s := setPortOf s t pk { v with head := .fresh }
    let n := cPorts w
    let deep := !spillEn s t || (s.tile t).spillReady
    if cOp w = 0 ∨ cSel w (pk % 3) ≠ 1 ∨ n < 2 then servePort s t pk
    else
      let r := match v.head with
        | .held (some pair) => pairUp s t pair deep false es
        | _ => arrive s t (pk / 3) (pk % 3) n k deep es
      match v.head, r.2 with
      | .held (some _), .deep => setPortOf s t pk v
      | _, _ => servePort (settleHead s t pk r x).1 t pk

/-- The probe groups of two ports' heads overlap (R324). -/
def groupsMeet (s : State) (t a b : Nat) : Bool :=
  match (portOf s t a).buf, (portOf s t b).buf with
  | x :: _, y :: _ => (probeGroup s t (a / 3) x).any fun i => (probeGroup s t (b / 3) y).contains i
  | _, _ => false

/-- An earlier pending operation of overlapping buckets stands before `pk` (R324). -/
def spillBlocked (s : State) (t pk : Nat) : Bool :=
  ((s.tile t).spills.takeWhile fun x => x != pk).any fun x => groupsMeet s t x pk

/-! Filling the region, and what a reset leaves (R322). -/

/-- Zeros over a region: nothing is listed there. -/
def zeroRegion (s : State) (a n : Nat) : State :=
  let out (x : Nat) : Bool := decide (x < a) || decide (a + n ≤ x)
  { s with mem := s.mem.filter (fun e => out e.1), bad := s.bad.filter fun e => out e.1 }

/-- The generation advances; at 0 the region is filled again (R322). Nothing spilled counts any more. -/
def nextGen (s : State) (t : Nat) : State :=
  let v := s.tile t
  let g := (v.gen + 1) % 16
  s.setTile t { v with
    gen := g, spillReady := v.spillReady && g != 0, filter := [], stamps := [], spills := [], scanning := false,
    returning := [] }

/-- `SPILL_EN` written 1 where it was 0 (R320, R322, R337): the fill starts, or the region is refused. -/
def spillOn (s : State) (t : Nat) : State :=
  let a := spillBase s t
  let n := spillSize s t
  if a % n ≠ 0 ∨ ddrBytes s < a + n then
    (s.fault (tileB t) 0x0203).wrf .HALL_CTRL 8 1 0 t
  else (s.wrf .HALL_CTRL 8 1 1 t).setTile t { s.tile t with spillReady := false }

/-! Held groups and the stall sentinel (R333 to R335). -/

/-- The token at the head of an entry port, with the position of a queue's entry. -/
def entryHead (s : State) (n : Nat) : Option (Token × Bool) :=
  if bit (s.rd .TILE_EP_CFG (portTile n) (n % 4)) 1 then
    match queueOfCons s 1 n with
    | none => none
    | some q =>
      if gqRead s q = gqWrite s q then none
      else match (readEntry s q).2 with
        | some (bs, _) => some (tokenOf bs (posEpoch s q (gqRead s q)))
        | none => none
  else (tget [] s.hthOut n).head?.map fun k => ({ k with epoch := epochNow s }, false)

/-- Entry port `n` holds a token for lack of credit (R269, R333): its group. -/
def heldGroup (s : State) (n : Nat) : Option Nat :=
  let c := s.rd .TILE_EP_CFG (portTile n) (n % 4)
  if bit c 0 = false ∨ bit c 2 = true then none
  else match entryHead s n with
    | some (k, false) => if creditFree s (creditGroup k.tag) then none else some (creditGroup k.tag)
    | _ => none

/-- `HALL_HELD_GRP` as it reads (R333). -/
def heldGroups (s : State) : DWord :=
  (List.range 64).foldl (fun a n =>
    match heldGroup s n with
    | some g => setBit a g true
    | none => a) 0

/-- An entry of a held group. -/
def entryHeld (h : DWord) (e : HEntry) : Bool := bit h (creditGroup e.one.tag)

/-- The spilled entries of a tile in scan order: bucket, slot, entry (R330). -/
def spilled (s : State) (t : Nat) : List (Nat × Nat × HEntry) :=
  let v := s.tile t
  let a := spillBase s t
  let n := spillSize s t
  if spillEn s t = false ∨ v.spillReady = false then [] else
  s.mem.filterMap fun c =>
    if a ≤ c.1 ∧ c.1 < a + n ∧ c.1 % 16 = 15 then
      (slotEntry v.epoch v.gen (s.bytes (c.1 - 15) 16)).map fun e => ((c.1 - a) / 64, (c.1 - a) / 16 % 4, e)
    else none

/-- Entries of held groups, as STALL eviction takes them (R335): on chip first, then the oldest stamp, then in order. -/
def heldEntries (s : State) (t : Nat) (h : DWord) : List (Option (Nat × Nat) × Nat × HEntry) :=
  let v := s.tile t
  let chip := v.ways.filterMap fun e =>
    match e.2 with
    | .entry x => if entryHeld h x then some ((none : Option (Nat × Nat)), e.1, x) else none
    | _ => none
  let far := (spilled s t).filterMap fun x => if entryHeld h x.2.2 then some (some (x.1, x.2.1), 0, x.2.2) else none
  sortBy (fun x => x.2.2.epoch) chip ++ far

/-- The lowest FU with a port head that waits for a full output register, where one does (R334). -/
def outputBlocked (s : State) (t : Nat) : Option Nat :=
  ((s.tile t).ports.find? fun e =>
    match e.2.head with
    | .ready x _ _ _ =>
      let w := ctxWord s t (e.1 / 3) x
      [0, 1].any fun o => cKind w o != 0 && !(tget [] (s.tile t).sent (2 * (e.1 / 3) + o)).isEmpty
    | _ => false).map fun e => e.1 / 3

/-- The lowest FU with a held store. -/
def storeHeld (s : State) (t : Nat) : Option Nat :=
  ((s.tile t).ports.find? fun e => e.2.head.isHeld).map fun e => e.1 / 3

/-- The stall condition that holds and its FU, first of the list of R334. -/
def stallCondition (s : State) (t : Nat) : Option (Nat × Nat) :=
  let es := heldEntries s t (heldGroups s)
  let far := es.filter fun x => x.1.isSome
  match es with
  | x :: _ =>
    -- among spilled entries the oldest stamp comes first
    let y := if x.1.isSome then far.foldl (fun a b => if b.2.2.epoch < a.2.2.epoch then b else a) x else x
    some (1, y.2.2.fu)
  | [] =>
    match outputBlocked s t with
    | some f => some (2, f)
    | none => (storeHeld s t).map fun f => (3, f)

/-- `HALL_STATUS` as it reads (R337). -/
def hallStatus (s : State) (t : Nat) : DWord :=
  let v := s.tile t
  BitVec.ofNat 64 (onchip v + 65536 * v.stalled.toNat + 2 ^ 17 * v.scanning.toNat + 2 ^ 18 * (v.spillReady && spillEn s t).toNat +
    2 ^ 20 * min 15 (pendingSlots v))

end Sys2Proof.Machine
end

