-- ==== Sys2Proof/Machine/Epochs.lean ====
section
/-! DEFINITION. Epochs, snapshots and recovery (chapter 16): domains and their inputs, exit ports that hold outputs, markers,
commits, recoveries and what cannot be recovered. -/

namespace Sys2Proof.Machine

/-! Exit ports (R270, R271, R280). -/

/-- Exit port `n`'s store. -/
def exitStore (s : State) (n : Nat) : List (Token × Option Nat) := tget [] (s.tile (portTile n)).store (n % 4)
/-- Exit port `n`'s store set. -/
def setExitStore (s : State) (n : Nat) (l : List (Token × Option Nat)) : State :=
  let v := s.tile (portTile n)
  s.setTile (portTile n) { v with store := tset id [] v.store (n % 4) l }

/-- A store in the order in which its tokens leave: those released, in release order, before those held (R271). -/
def releasedFirst (l : List (Token × Option Nat)) : List (Token × Option Nat) :=
  l.filter (fun k => k.2.isNone) ++ l.filter fun k => k.2.isSome

/-- A parity error found on the way of token `k` (R245, R278); at an exit port `DETAIL` names the port (log 139). -/
def parityError (s : State) (k : Sent) : Parity → State
  | .good => s
  | .port => tileDetected s (sentTile k) 0x0101 (k.fu + 64 * k.port) 0
  | .express t dir => tileDetected s t 0x0101 (k.fu + 64 * 3 + 256 * dir.val) 0

/-- An entry of a token or item queue that exit port tokens feed (R195, R196). -/
def exitBytes (s : State) (q : Nat) (k : Token) : List Byte :=
  if gqKind s q = 2 then List.replicate 16 0 ++ tokenBytes k false 0 0 else tokenBytes k false 0 0

/-- An epoch of domain `d` failed: its outputs are never released (R33, R483). -/
def failedEpoch (s : State) (d ep : Nat) : Bool := decide (ep < (s.domain d).floor)

/-- A token at exit port `n`: the state, and whether the port took it or discarded it. -/
def exitTake (s : State) (n : Nat) (k : Token) : State × Bool :=
  let t := portTile n
  let c := s.rd .TILE_XP_CFG t (n % 4)
  let q := if bit c 1 then queueOfProd s 3 n none else none
  let hold := holdFor s (tileDomain s t) k.epoch
  if failedEpoch s (tileDomain s t) k.epoch then (retire s k, true)
  else if bit c 0 = false ∨ (bit c 1 = true ∧ q = none) then (stray s t 1 n 0 k, true)
  else match q with
    | none =>
      if (exitStore s n).length < 512 then
        (retire (setExitStore s n (releasedFirst (exitStore s n ++ [(k, hold)]))) k, true)
      else (s, false)
    | some q =>
      let r := putOutput s q (exitBytes s q k) hold
      match r.2 with
      | .stalled => (r.1, false)
      | _ => (retire r.1 k, true)

/-- Source `src` of tile `t` has a token for exit port `n` of the tile. -/
def asksExit (s : State) (t n src : Nat) : Bool :=
  match sentHead s t src with
  | some k => k.kind == 4 && k.fu == n
  | none => false

/-- The first token of a source may leave the array at exit port `n`: no older one may come there still (R470). -/
def mayLeave (s : State) (t n src : Nat) : Bool :=
  match sentHead s t src with
  | some k => !waveHolds s k.tok.epoch fun _ x => x.kind == 4 && x.fu == n
  | none => false

/-- Requests that wait for exit port `n` are granted while it takes them (R253, R264, R270, R470). -/
def exitResume (n : Nat) : Nat → State → State
  | 0, s => s
  | m + 1, s =>
    let t := portTile n
    let w := (tget [] (s.tile t).exitWait (n % 4)).filter (asksExit s t n)
    let keep (s : State) (w : List Nat) : State :=
      s.setTile t { s.tile t with exitWait := tset id [] (s.tile t).exitWait (n % 4) w }
    match grantNext (w.filter (mayLeave s t n)) with
    | none => keep s w
    | some src =>
      match sentHead s t src with
      | none => s
      | some k =>
        let r := exitTake s n k.tok
        if r.2 then
          let s := if k.op.isSome then crossing r.1 k.frm t k.tok.epoch else r.1
          exitResume n m (delivered (dropSent (keep s (w.erase src)) t src) k.frm k.op)
        else keep r.1 w

/-- Every waiting request of exit port `n` tried. -/
def exitRetry (s : State) (n : Nat) : State :=
  exitResume n (tget [] (s.tile (portTile n)).exitWait (n % 4)).length s

/-- The token that source `src` of tile `t` has for an exit port asks there, with the requests that wait (R253, R270). -/
def exitArrive (s : State) (t src : Nat) (parity : Parity) : State :=
  match sentHead s t src with
  | none => s
  | some k =>
    if k.kind ≠ 4 ∨ sentTile k ≠ t ∨ recovering s (tileDomain s t) = true then s else
    let s := parityError s k parity
    let w := tget [] (s.tile t).exitWait (k.fu % 4)
    exitRetry (if w.contains src then s
      else s.setTile t { s.tile t with exitWait := tset id [] (s.tile t).exitWait (k.fu % 4) (w ++ [src]) }) k.fu

/-- `TILE_XP_CFG.EN` falls (R271): every token in the store is discarded and counted; they retired on acceptance. -/
def exitOff (s : State) (n : Nat) : State :=
  let t := portTile n
  let s := (exitStore s n).foldl (fun s k =>
    ((s.count .TILE_STRAY_CNT 1 t).fault (tileB t) 0x0103 (2 ^ 14 + n % 64 + k.1.ctx.toNat * 256)).evt (tileB t) 0) s
  exitRetry { setExitStore s n [] with
    discOut := tset id [] s.discOut n ((tget [] s.discOut n).map fun x => (x.1, x.2.1, 0)) } n

/-! Domains (R467 to R469). -/

/-- The tiles of a domain. -/
def domTiles (s : State) (d : Nat) : List Nat := (List.range 48).filter fun t => tileDomain s t == d

/-- The enabled entry ports of a domain (R468). -/
def domPorts (s : State) (d : Nat) : List Nat :=
  (List.range 64).filter fun n => bit (epCfg s n) 0 && tileDomain s (fld (epCfg s n) 8 6) == d

/-- The token queues that are inputs of a domain: their consumer is one of its entry ports, enabled or not (R468). -/
def domTokenQueues (s : State) (d : Nat) : List Nat :=
  (List.range 64).filterMap fun n => if tileDomain s (fld (epCfg s n) 8 6) = d then queueOfCons s 1 n else none

/-- The item queues that are inputs of a domain (R468). -/
def domItemQueues (s : State) (d : Nat) : List Nat := (itemQueues s).filter fun q => (itemDomains s q).contains d

/-- The input queues of a domain. -/
def domInputs (s : State) (d : Nat) : List Nat := domTokenQueues s d ++ domItemQueues s d

/-- A domain is direct (R468). -/
def domDirect (s : State) (d : Nat) : Bool :=
  ((domPorts s d).any fun n => !bit (epCfg s n) 1 || (match queueOfCons s 1 n with
    | some q => !gqEpochMark s q
    | none => false)) ||
  (domItemQueues s d).any fun q => !gqEpochMark s q

/-- A domain is non-recoverable (R474, R475, R639). -/
def domNorec (s : State) (d : Nat) : Bool :=
  (s.domain d).norec || (domTiles s d).any fun t =>
    (s.tile t).undoOver || (s.tile t).snapOver || (spillEn s t && !(bit (s.rd .EPO_CTRL) 2))

/-- The queues that a domain's exit ports, halls and cores feed (R468, R473). -/
def domOutputs (s : State) (d : Nat) : List Nat :=
  (enabledQueues s).filter fun q =>
    match gqProd s q with
    | (3, n) => tileDomain s (portTile n) == d
    | (4, k) => coreDomain s k == d
    | (5, t) => tileDomain s t == d
    | _ => false

/-- `EPO_STATUS` as it reads (R488). -/
def epoStatus (s : State) : DWord :=
  let b (f : Nat → Bool) (lo : Nat) : Nat := (List.range 4).foldl (fun a d => a + (f d).toNat * 2 ^ (lo + d)) 0
  BitVec.ofNat 64 (b (recovering s) 0 + b (domNorec s) 4 + b (domDirect s) 8 + s.rdf .EPO_STATUS 12 2 * 4096 +
    s.rdf .EPO_STATUS 16 8 * 65536)

/-- Two domains are coupled in an epoch from `lo` on (R469). -/
def coupledIn (s : State) (lo a b : Nat) : Bool :=
  (s.epo.pairs.any fun p => decide (lo ≤ p.1) && ((p.2.1 == a && p.2.2 == b) || (p.2.1 == b && p.2.2 == a))) ||
  (itemQueues s).any fun q => (itemDomains s q).contains a && (itemDomains s q).contains b

/-- The domains that recover together with `d`: coupled with it, directly or through others, in an epoch that one of them
replays (R469, R478). -/
def coupled (s : State) (d : Nat) : List Nat :=
  let grow (g : List Nat) : List Nat := (List.range 4).filter fun x =>
    g.contains x || g.any fun y => coupledIn s (s.domain y).next x y
  grow (grow (grow [d]))

/-! Marker, snapshot, commit (R470 to R474). -/

/-- The entries on chip, in ascending set and way. -/
def chipEntries (v : Tile) : List HEntry :=
  v.ways.filterMap fun e =>
    match e.2 with
    | .entry h => some h
    | _ => none

/-- The `FLAGS` of a tile's contexts. -/
def tileFlags (s : State) (t : Nat) : Tbl Nat (BitVec 4) :=
  s.regs.foldl (fun m e =>
    if e.1.reg = .CTX_WORD ∧ e.1.inst = t ∧ e.1.idx % 4 = 0 then tset id 0 m (e.1.idx / 4) (BitVec.ofNat 4 (fld e.2 0 4))
    else m) []

/-- The marker has passed all of a tile's input channels (R273, R274, R329, R471, R479): an armed map is swapped in, the
snapshot of the closing epoch is taken, the ageing pass runs, and tokens behind the marker are served. `late` says that an
`ARM` written since the boundary came after the marker had reached the first of the channels; the swap then waits. -/
def markerPass (s : State) (t : Nat) (late : Bool) : State :=
  let v := s.tile t
  let n := v.epoch
  let d := tileDomain s t
  let held := s.en (tileB t) && bit (s.rd .TILE_CTRL t) 0
  if epochNow s ≤ n ∨ frozen s d = true ∨ held = true ∨ buffered v n = true ∨
      mayCome s n (fun _ k => k.toTile t) = true then s
  else
    let s := if n < v.hi then
        match v.swaps.find? fun x => x.1 == n with
        | some x => s.wr .TILE_REMAP_ACT x.2 t
        | none => s
      else if bit (s.rd .TILE_REMAP_CTRL t) 0 && !(late && decide (n < v.armAt)) then
        let m := s.rd .TILE_REMAP_NEXT t
        let s := (s.wr .TILE_REMAP_ACT m t).wrf .TILE_REMAP_CTRL 0 1 0 t
        s.setTile t { v with swaps := v.swaps ++ [(n, m)] }
      else s
    let v := s.tile t
    let snap : Snap := { epoch := n, image := chipEntries v, flags := tileFlags s t, map := s.rd .TILE_REMAP_ACT t }
    let s := s.setTile t { v with
      epoch := n + 1, hi := max v.hi (n + 1), limit := s.rdf .HALL_CTRL 0 8 t
      snaps := if n < (s.domain d).floor then v.snaps else v.snaps ++ [snap] }
    express (serveTile (fillPorts (ageingPass s t) t) t)

/-- The items of epochs up to `n` in a queue have reached DONE or been abandoned (R472). -/
def itemsDone (s : State) (q n : Nat) : Bool :=
  match markPos s q n with
  | none => true
  | some p => decide (p ≤ gqRead s q) && !(s.sched.items.any fun i => i.queue == q && decide (i.pos < p) && inService i)

/-- Domain `d`'s snapshot of its next epoch is complete (R472). -/
def snapComplete (s : State) (d : Nat) : Bool :=
  let n := (s.domain d).next
  decide (n < epochNow s) && !frozen s d &&
  ((domTiles s d).all fun t =>
    let v := s.tile t
    (v.snaps.any fun x => x.epoch == n) && !buffered v n && !toward s t n &&
    !(v.ops.any fun e => (match e.2 with
      | some f => decide (f.epoch ≤ n)
      | none => false))) &&
  (domItemQueues s d).all fun q => itemsDone s q n

/-- Outputs held for epochs up to `n` leave domain `d`'s exit ports, orphan outputs and cores (R33, R473). -/
def releaseOutputs (s : State) (d n : Nat) : State :=
  let s := (domOutputs s d).foldl (fun s q => releaseHeld s q n) s
  ((List.range 64).filter fun p => tileDomain s (portTile p) == d).foldl (fun s p =>
    setExitStore s p (releasedFirst ((exitStore s p).map fun k =>
      match k.2 with
      | some e => if e ≤ n then (k.1, none) else k
      | none => k))) s

/-- The mark of an input queue follows the commit of epoch `n`, and releases that waited for it are issued (R201, R419,
R473). -/
def commitQueue (s : State) (q n : Nat) : State :=
  let s := if gqEpochMark s q then
      (match markPos s q n with
      | some p => schRelease (advanceMark s q p) q
      | none => s)
    else s
  let v := s.queue q
  s.setQueue q { v with pend := v.pend.filter fun b => n ≤ b.1 }

/-- A tile's part of a commit of epoch `n` (R473, R475, R479). -/
def commitTile (s : State) (t n : Nat) : State :=
  let v := s.tile t
  s.setTile t { v with
    kept := v.snaps.find? fun x => x.epoch == n
    snaps := v.snaps.filter fun x => decide (n < x.epoch)
    swaps := v.swaps.filter fun x => decide (n < x.1)
    undo := v.undo.filter fun x => decide (n < x.2)
    undoOver := false, snapOver := false }

/-- `EPO_DOM_INFO` (R488). -/
def domInfo (tries outcome reason failed site : Nat) : DWord :=
  BitVec.ofNat 64 (min tries 15 + outcome * 16 + reason * 256 + min failed 15 * 4096 + site % 65536 * 65536)

/-- The commit of a domain's next epoch (R472, R473, R480). -/
def commit (s : State) (d : Nat) : State :=
  let n := (s.domain d).next
  let s := s.wr .EPO_COMMITTED (epochNum s n) 0 d
  let s := releaseOutputs s d n
  let s := (domInputs s d).foldl (fun s q => commitQueue s q n) s
  let s := (domTiles s d).foldl (fun s t => commitTile s t n) s
  let v := s.domain d
  let s := if v.replay then
      ((s.count .EPO_RECOVER_CNT).evt .epochs 1).wr .EPO_DOM_INFO (domInfo v.tries 1 0 0 v.site) 0 d
    else s
  let s := s.setDomain d { v with next := n + 1, kept := true, norec := false, tries := 0, replay := false }
  let low := (List.range 4).foldl (fun a d => min a (s.domain d).next) (n + 1)
  { s with epo := { s.epo with pairs := s.epo.pairs.filter fun p => decide (low ≤ p.1) } }

/-! What a reset or a recovery destroys (R277, R478). -/

/-- The results of a firing that its credit count already holds (R268): every enabled output of a division, the
unconditional ones of a memory operation. -/
def countedOuts (f : Firing) (p : Option Bool) : Nat :=
  ([0, 1].filter fun o => match p with
    | some b => outOn f.word o b
    | none => cKind f.word o != 0 && cOen f.word o == 0).length

/-- The predicate of a division (R294). -/
def divP (f : Firing) : Bool := (aluOp (cOp f.word) (cFn f.word) f.a f.b f.c (cK f.word)).p

/-- Every token of a tile's buffers and hall: none of those in spill, in exit port stores or on their way (R478). -/
def tileTokens (v : Tile) : List Token :=
  (v.ports.flatMap fun e =>
    e.2.buf ++ (match e.2.head with
      | .ready _ a b c => ([a, b, c].filterMap id).erase (e.2.buf.headD {})
      | .held (some x) => (x.tokens.map Prod.fst).erase (e.2.buf.headD {})
      | _ => [])) ++
  (chipEntries v).flatMap (fun e => e.tokens.map Prod.fst) ++ v.returning.flatMap fun e => e.tokens.map Prod.fst

/-- The tokens on their way that `p` names by tile, source and token are destroyed and retired; their operations' entries go
with them. -/
def dropSources (s : State) (p : Nat → Nat → Sent → Bool) : State :=
  s.tiles.foldl (fun s e => e.2.sent.foldl (fun s l =>
    let s := (l.2.filter (p e.1 l.1)).foldl (fun s k => delivered (retire s k.tok) k.frm k.op) s
    let v := s.tile e.1
    s.setTile e.1 { v with sent := tset id [] v.sent l.1 (l.2.filter fun k => !p e.1 l.1 k) }) s) s

/-- Requests of tokens that are gone leave every arbiter. -/
def dropRequests (s : State) : State :=
  { s with tiles := s.tiles.map fun e => (e.1, { e.2 with
      ports := e.2.ports.map fun p => (p.1, { p.2 with waiting := p.2.waiting.filter (asksPort s e.1 p.1) })
      exitWait := e.2.exitWait.map fun w => (w.1, w.2.filter (asksExit s e.1 (portNum e.1 w.1))) }) }

/-- Every token of tile `t` but those in spill is destroyed and retired (R277, R478), with those on their way that its in-flight
table holds; requests from elsewhere take the room. In a recovery (`keep`) memory operations that are issued are performed
still, and what they answer is discarded (R478). -/
def destroyTokens (s : State) (keep : Bool) (t : Nat) : State :=
  let s := dropSources s fun _ _ k => k.frm == t
  let v := s.tile t
  let s := (tileTokens v).foldl retire s
  let s := ((v.divs.filterMap fun x => x.2) ++ v.divWait).foldl (fun s f =>
    credit s (creditGroup f.tag) (-(countedOuts f (some (divP f)) : Int))) s
  let s := (v.mems.filter fun f => !f.gone).foldl (fun s f =>
    credit s (creditGroup f.tag) (-(countedOuts f none : Int))) s
  let s := dropRequests s
  let u := s.tile t
  let s := s.setTile t { u with
    ports := (u.ports.map fun p => (p.1, ({ waiting := p.2.waiting } : Port))).filter fun p => p.2 != {}
    mems := if keep then ((v.mems.take (s.rdf .TILE_MEM_CFG 0 7 t)).filter fun f => !f.lost).map fun f => { f with gone := true }
      else []
    ops := [], divs := [], divWait := [], store := [], ways := [], spills := [], returning := [], waits := [] }
  let s := fillPorts s t
  express (if portTileB t then (List.range 4).foldl (fun s i => exitRetry s (portNum t i)) s else s)

/-- The tokens of other tiles in the express switches of the tiles that `p` names are destroyed and retired (R277). -/
def dropSwitches (s : State) (p : Nat → Bool) : State :=
  dropSources s fun a src k => p a && decide (128 ≤ src) && decide (src < 132) && !p k.frm

/-- The kept snapshot of a domain is discarded (R479); remap tables swapped in stay known until their epochs commit. -/
def dropKept (s : State) (d : Nat) : State :=
  let s := (domTiles s d).foldl (fun s t => s.setTile t { s.tile t with kept := none }) s
  s.setDomain d { s.domain d with kept := false }

/-- Reset K of a tile (R277, R322, R479): its tokens, spill and all, are destroyed and retired. -/
def tileResetK (s : State) (t : Nat) : State :=
  let s := (spilled s t).foldl (fun s e => e.2.2.tokens.foldl (fun s k => retire s k.1) s) s
  let s := destroyTokens (dropSwitches s fun a => a == t) false t
  let s := nextGen (clearRegs s .K (fun b => b == tileB t)) t
  let v := s.tile t
  let s := s.setTile t { v with
    stalled := false, orphanIn := none, lost := [], undo := [], snaps := v.snaps.map fun x => { x with image := [] } }
  dropKept s (tileDomain s t)

/-- Reset B, E or W, Standby and a power-down leave nothing in a tile but its spill generation, which advances, and the region
that is filled for it (R277, R322, R485; log 140). -/
def tileClear (s : State) (t : Nat) : State :=
  let g := ((s.tile t).gen + 1) % 16
  s.setTile t { gen := g, spillReady := (s.tile t).spillReady && g != 0 }

/-- The tiles that `p` names lose their power: what they hold is gone, and a token of theirs elsewhere no longer stands for an
entry of an in-flight table (R275, R581). -/
def tilesOff (s : State) (p : Nat → Bool) : State :=
  let s := dropSwitches s p
  let s := ((List.range 48).filter p).foldl (fun s t => tileClear (dropKept s (tileDomain s t)) t) s
  { s with tiles := s.tiles.map fun e => (e.1, { e.2 with
      sent := e.2.sent.map fun l => (l.1, l.2.map fun k => if p k.frm then { k with op := none } else k) }) }

/-! Recovery (R477 to R485). -/

/-- The held outputs of a domain are discarded (R33, R478, R483). -/
def discardOutputs (s : State) (d : Nat) : State :=
  let s := (domOutputs s d).foldl discardHeld s
  ((List.range 64).filter fun p => tileDomain s (portTile p) == d).foldl (fun s p =>
    setExitStore s p ((exitStore s p).filter fun k => k.2.isNone)) s

/-- Each token queue and Heath entry port that a failed domain feeds receives a discontinuity token, as soon as it has room, and
each item queue marks its next item (R484). -/
def discontinuity (s : State) (d first count : Nat) : State :=
  let s := (domOutputs s d).foldl (fun s q =>
    if gqKind s q = 1 then payGaps (s.setQueue q { s.queue q with gaps := (s.queue q).gaps ++ [(first, count)] }) q
    else s.setQueue q { s.queue q with discont := true }) s
  ((List.range 64).filter fun p =>
    tileDomain s (portTile p) == d && fld (s.rd .TILE_XP_CFG (portTile p) (p % 4)) 0 2 == 1).foldl (fun s p =>
    let l := tget [] s.discOut p
    let ahead := (exitStore s p).length - (l.map fun x => x.2.2).sum
    { s with discOut := tset id [] s.discOut p (l ++ [(first, count, ahead)]) }) s

/-- UNRECOVERABLE for one domain (R483, R484, R488). What makes it non-recoverable lasts until its next commit (R474, R475,
R639). A second result before the boundary fails no epoch more, and the discontinuity token of the first stands (DESIGN CHOICE,
log 157). -/
def failDomain (s : State) (d reason : Nat) : State :=
  let v := s.domain d
  let now := epochNow s
  let n := now + 1 - v.next
  let s := s.wrf .EPO_STATUS d 1 0
  let s := discardOutputs s d
  let s := (domTiles s d).foldl tileResetK s
  let s := (domTiles s d).foldl (fun s t =>
    s.setTile t { s.tile t with epoch := now, hi := now, snaps := [] }) s
  let s := ((s.fault .epochs 0x0100 (d + 16 * reason)).count .EPO_UNRECOV_CNT).evt .epochs 2
  let s := s.wr .EPO_DOM_INFO (domInfo v.tries 2 reason n v.site) 0 d
  let s := s.setDomain d { next := now + 1, waits := true, floor := now + 1, site := v.site, norec := v.norec }
  if n = 0 then s else discontinuity s d v.next n

/-- UNRECOVERABLE for the domains of a recovery. -/
def failAll (s : State) (g : List Nat) (reason : Nat) : State := g.foldl (fun s d => failDomain s d reason) s

/-- The reason for which a recovery of domain `d` is not attempted (R481, R482). -/
def noAttempt (s : State) (d : Nat) : Option Nat :=
  if bit (s.rd .EPO_DOM_CTRL 0 d) 0 = false then some 5
  else if domDirect s d then some 3
  else if domNorec s d then some 4
  else if (s.domain d).kept = false then some 6
  else if (domInputs s d).any fun q => (gqMark s q).isNone then some 2
  else if s.rdf .EPO_RETRY_MAX 0 4 ≤ (s.domain d).tries then some 0
  else none

/-- Steps 1 and 2 of a recovery, or what stands in its place (R478, R481 to R483). -/
def startRecovery (s : State) (d site : Nat) : State :=
  let g := coupled s d
  let s := g.foldl (fun s x => s.setDomain x { s.domain x with site := site }) s
  match g.findSome? (noAttempt s) with
  | some r => failAll s g r
  | none =>
    let s := g.foldl (fun s x =>
      let v := s.domain x
      (s.setDomain x { v with tries := v.tries + 1, replay := false }).wrf .EPO_STATUS x 1 1) (s.count .EPO_RETRY_CNT)
    let s := dropSources s fun _ _ k => k.op.isNone && g.contains (tileDomain s k.tile)
    (g.flatMap (domTiles s)).foldl (fun s t => destroyTokens s true t) s

/-- Delivery to a tile goes on: what waits upstream comes in (R570). -/
def resumeTile (s : State) (t : Nat) : State := serveTile (fillPorts s t) t

/-- A rotation under way is given up: delivery to its candidate goes on unchanged (R571). -/
def abandonRotation (s : State) : State :=
  match s.health.rot with
  | some (x, _) =>
    resumeTile ({ s.wrf .HLT_ROT_STATUS 0 3 0 with health := { s.health with rot := none } }.fault .health 0x0106 x) x
  | none => s

/-- A detected fault starts its domain's recovery, and ends a rotation of one of its tiles (R477, R571). -/
def faultDetected (s : State) (d site : Nat) : State :=
  startRecovery (if (s.health.rot.map fun r => tileDomain s r.1) = some d then abandonRotation s else s) d site

/-- The copies `a` and `b` of position `i` of a queue differ (R209, R477): the queue is reset as by RESET, and an input queue's
domains recover. Where the copies are those of the write position, to which RESET sets them all, neither is chosen: the position
is open. -/
def positionMismatch (s : State) (q i : Nat) (a b : DWord) : State :=
  let ds := (List.range 4).filter fun d => (domInputs s d).contains q
  let s := if i = 0 then putPos s.draw.1 q 0 s.draw.2 else putPos s q i a
  let s := (queueResetOp s q).orIn .GQ_STATUS 4 q
  let s := ((s.wr .GAL_MISMATCH_A a).wr .GAL_MISMATCH_B b).count .GAL_MISMATCH_CNT
  let s := s.fault .gallery 0x0100 (q + 4096 * i) (fld a 0 16 + 65536 * fld b 0 16)
  ds.foldl (fun s d => detect s d (0x400 + q)) s

/-- What a command has found takes its effect. -/
def resolveOne (s : State) (x : Finding) : State :=
  match x with
  | .fault d site => faultDetected s d site
  | .clash q i a b => positionMismatch s q i a b

/-- What a command has found so far takes its effect (R209, R477). -/
def resolveFound (s : State) : State :=
  s.epo.detected.foldl resolveOne { s with epo := { s.epo with detected := [] } }

/-- All that a command has found takes its effect: a queue's reset may find more copies that differ, and then a domain's
fault. -/
def resolve (s : State) : State := resolveFound (resolveFound (resolveFound s))

/-- The outcome of a command that may detect a fault. -/
def finish (s : State) : Host.Outcome State Fault Refusal := done (resolve s)

/-- One undo entry applied (R478 step 3): `false` where it reads uncorrectable. -/
def undoOne (s : State) (t i : Nat) : State × Bool :=
  let a := undoAddr s t i
  let r := memRead s (hallReq t) a 32
  if r.2.1 ≠ .ok then (undoError r.1 t i, false)
  else
    let s := r.1
    let bs := r.2.2
    let b := leNat ((bs.drop 16).take 4)
    let j := leNat ((bs.drop 20).take 1) % 4
    let p := spillBase s t + 64 * b + 16 * j
    let v := s.tile t
    let s := match slotEntry v.epoch v.gen (s.bytes p 16) with
      | some e => e.tokens.foldl (fun s k => retire s k.1) (spillCount s t e false)
      | none => s
    let s := (memWrite s (hallReq t) p (bs.take 16)).1
    (match slotEntry v.epoch v.gen (bs.take 16) with
      | some e => e.tokens.foldl (fun s k => credit s (creditGroup k.1.tag) 1) (spillCount s t e true)
      | none => s, true)

/-- A tile's undo log applied, newest first. -/
def undoAll (t : Nat) : List (Nat × Nat) → State → State × Bool
  | [], s => (s, true)
  | u :: r, s =>
    let x := undoAll t r s
    if x.2 then undoOne x.1 t u.1 else x

/-- A restored entry put into its set, or handled as an arrival that finds no way (R639). -/
def restoreEntry (s : State) (t : Nat) (e : HEntry) : State :=
  let s := e.tokens.foldl (fun s k => credit s (creditGroup k.1.tag) 1) s
  giveBack s t e

/-- Step 4 in one tile (R478): hall, `FLAGS`, map and counts as the kept snapshot has them. -/
def restoreTile (s : State) (t : Nat) (x : Snap) : State :=
  let s := (s.tile t).lost.foldl (fun s l => credit s l.1 (-(l.2 : Int))) s
  let v := s.tile t
  let s := s.setTile t { v with ways := [], lost := [], epoch := x.epoch + 1, snaps := [], undo := [], snapOver := false }
  let s := (tileFlags s t).foldl (fun s f => s.wrf .CTX_WORD 0 4 0 t (4 * f.1)) s
  let s := x.flags.foldl (fun s f => s.wrf .CTX_WORD 0 4 f.2.toNat t (4 * f.1)) s
  let s := s.wr .TILE_REMAP_ACT x.map t
  (sortBy HEntry.epoch x.image).foldl (fun s e => restoreEntry s t e) s

/-- Steps 3 to 6 for the domains `g` (R478): `lostStore` are tiles whose snapshot store reads uncorrectable. -/
def completeRecovery (s : State) (g : List Nat) (lostStore : List Nat) : State :=
  let ts := g.flatMap (domTiles s)
  match ts.find? fun t => lostStore.contains t with
  | some t =>
    let s := (s.fault .epochs 0x0101 t).evt .epochs 0
    let s := g.foldl (fun s x => s.setDomain x { s.domain x with site := t }) s
    failAll s g 1
  | none =>
    let u := ts.foldl (fun (x : State × Bool) t => if x.2 then undoAll t (x.1.tile t).undo x.1 else x) (s, true)
    if u.2 = false then
      let site := (u.1.epo.detected.findSome? fun x => match x with
        | .fault _ k => some k
        | _ => none).getD 0
      let s := g.foldl (fun s x => s.setDomain x { s.domain x with site := site }) u.1
      failAll { s with epo := { s.epo with detected := s.epo.detected.filter fun x => match x with
        | .fault _ _ => false
        | _ => true } } g 1
    else
      let s := ts.foldl (fun s t =>
        match (s.tile t).kept with
        | some x => restoreTile s t x
        | none => s) u.1
      let qs := g.flatMap (domInputs s)
      if qs.any fun q => (gqMark s q).isNone then failAll s g 2
      else
        let s := qs.foldl (fun s q =>
          match gqMark s q with
          | some m => cancelFrom (setRead s q m) q m
          | none => s) s
        let s := g.foldl discardOutputs s
        let s := g.foldl (fun s x => (s.setDomain x { s.domain x with replay := true }).wrf .EPO_STATUS x 1 0) s
        ts.foldl (fun s t => serveTile (ageingPass s t) t) s

/-! Boundaries (R462, R463, R474, R483). -/

/-- A boundary as the epoch machinery sees it: number, marks, markers, lateness, domains that run again. -/
def boundaryCore (s : State) (realign : Bool) : State :=
  let n := epochNow s
  let s := s.wr .EPO_NUMBER (s.rd .EPO_NUMBER + 1)
  let s := { s with
    bounds := ⟨n + 1, s.rd .PWR_TB, realign⟩ :: s.bounds
    epo := { s.epo with placed := none, period := s.rdf .EPO_PERIOD 0 24 } }
  let s := (enabledQueues s).foldl (fun s q =>
    if (gqCons s q).1 = 1 ∨ (gqCons s q).1 = 2 then
      s.setQueue q { s.queue q with pend := (s.queue q).pend ++ [(n, gqWrite s q)] }
    else s) s
  (List.range 4).foldl (fun s d =>
    let v := s.domain d
    let s := if v.next < n then (s.count .EPO_SNAP_LATE_CNT).evt .epochs 7 else s
    let s := if v.next + 3 ≤ n ∧ v.norec = false then (s.setDomain d { v with norec := true }).evt .epochs 3 else s
    let v := s.domain d
    if v.waits then s.setDomain d { v with waits := false } else s) s

/-- A slip (R464, R465). -/
def slip (s : State) : State :=
  let s := (s.count .EPO_SLIP_CNT).evt .epochs 4
  let n := min 255 (s.rdf .EPO_STATUS 16 8 + 1)
  let s := s.wrf .EPO_STATUS 16 8 n
  if s.rdf .EPO_STATUS 12 2 = 1 ∧ bit (s.rd .EPO_CTRL) 1 = true ∧ s.rdf .EPO_SLIP_LIMIT 0 8 ≤ n then
    s.wrf .EPO_STATUS 12 2 2
  else s

/-- `EPO_CTRL.SYNC_EN` written (R465). -/
def syncSwitch (s : State) (on : Bool) : State :=
  if on then
    if s.rdf .EPO_STATUS 12 2 = 0 then (s.wrf .EPO_STATUS 12 2 1).wrf .EPO_STATUS 16 8 0 else s
  else { s.wrf .EPO_STATUS 12 2 0 with epo := { s.epo with placed := none } }

end Sys2Proof.Machine
end

