-- ==== Sys2Proof/Machine/Meadow.lean ====
section
/-! DEFINITION. What the Meadow does (chapters 08 to 10): arrivals, firings, dividers, admission, exit ports, markers, spill,
stalls; and the epoch machinery's commits and recoveries. -/

namespace Sys2Proof.Machine

/-- A token reaches an FU port of its tile, from a source of the tile or from an express input (R253, R257, R314); it waits at
the arbiter while the port is full, or while one before it does. -/
def tokenArrival (s : State) (t src : Nat) (parity : Parity) (way : Option (Fin 4)) : State :=
  match sentHead s t src with
  | none => s
  | some k =>
    if 3 < k.kind ∨ k.tile ≠ t ∨ recovering s (tileDomain s t) = true then s
    else
      let pk := 3 * k.fu + k.port
      let s := parityError s k parity
      let s := match way with
        | some w =>
          let i := 4 * hallIndex s t k.fu k.tok + w
          if (s.tile t).way i = .free then s else loseWay s t i
        | none => s
      let v := portOf s t pk
      if v.buf.length < 4 ∧ v.waiting.all (fun x => !maySend s t x) = true ∧ maySend s t src = true then
        servePort (enter s t pk src k) t pk
      else
        let w := if v.waiting.contains src then v.waiting else v.waiting ++ [src]
        servePort (fillPort (setPortOf s t pk { v with waiting := w }) t pk) t pk

/-- `TOKEN_ARRIVAL` (R314). -/
def execTokenArrival (t : Fin 48) (src : Fin 141) (parity : Parity) (way : Option (Fin 4)) (s : State) :
    Host.Outcome State Fault Refusal :=
  finish (tokenArrival s t src parity way)

/-! Firing (R256, R292 to R301). -/

/-- The output registers that a context writes are all empty (R256, R292). -/
def outputsEmpty (s : State) (t f : Nat) (w : BitVec 128) : Bool :=
  [0, 1].all fun o => cKind w o == 0 || (tget [] (s.tile t).sent (2 * f + o)).isEmpty

/-- The value of operand `p` (R288). -/
def operand (w : BitVec 128) (p : Nat) (k : Option Token) : Word :=
  match cSel w p with
  | 1 => (k.getD {}).data
  | 2 => cK w
  | _ => 0

/-- A firing as an operation holds it. -/
def firingOf (w : BitVec 128) (f x op : Nat) (a b c : Option Token) : Firing :=
  let ks := [a, b, c].filterMap id
  { fu := f, pctx := x, word := w, a := operand w 0 a, b := operand w 1 b, c := operand w 2 c
    tag := (a.getD {}).tag, ctx := (a.getD {}).ctx, last := ks.any (·.last), err := ks.any (·.err),
    poison := ks.any (·.poison), epoch := ks.foldl (fun e k => max e k.epoch) 0, op := op }

/-- The tag of a result token (R292, R294). -/
def resultTag (f : Firing) : BitVec 28 :=
  match cOp f.word with
  | 0x70 => BitVec.ofNat 28 f.b.toNat
  | 0x71 => BitVec.ofNat 28 (f.tag.toNat / 65536 * 65536 + f.b.toNat % 65536)
  | _ => f.tag

/-- The ALU's part of a firing (R294); TAGGET reads the tag. -/
def fuAlu (f : Firing) : Alu :=
  if cOp f.word = 0x72 then plain (BitVec.ofNat 32 f.tag.toNat)
  else aluOp (cOp f.word) (cFn f.word) f.a f.b f.c (cK f.word)

/-- A result's V or DZ sets `ERR` (R292). -/
def errOf (f : Firing) (r : Alu) : Bool := bit f.word 106 && (r.v || r.dz)

/-- The first free divider (R259). -/
def freeDivider (v : Tile) : Option Nat := (List.range 4).find? fun d => (tget none v.divs d).isNone

/-- A division enters the first free divider, or waits (R259, log 17). -/
def divide (s : State) (t : Nat) (f : Firing) : State :=
  let v := s.tile t
  match freeDivider v with
  | some d => if v.divWait = [] then s.setTile t { v with divs := tset id none v.divs d (some f) }
    else s.setTile t { v with divWait := v.divWait ++ [f] }
  | none => s.setTile t { v with divWait := v.divWait ++ [f] }

/-- The size of a memory operation (R298). -/
def memSize (f : Firing) : Nat := 2 ^ (cFn f.word % 4)
/-- The address of a memory operation (R298). -/
def memAddr (f : Firing) : Nat := ((cK f.word).toNat * 65536 + f.a.toNat) % 2 ^ 48

/-- A memory operation at its firing (R260, R299): issued, or not issued with its result at once. -/
def memFire (s : State) (t : Nat) (f : Firing) (bad : Bool) : State :=
  let mis := memAddr f % memSize f != 0
  if mis || bad then
    let s := raiseFlags s t f.fu f.pctx f.epoch 8
    let s := credit s (creditGroup f.tag) (countedOuts f (some false) : Nat)
    produce s t f (fun _ => 140) 0 0 false f.tag mis bad
  else
    let s := credit s (creditGroup f.tag) (countedOuts f none : Nat)
    s.setTile t { s.tile t with mems := (s.tile t).mems ++ [f] }

/-- A context fires (R256, R268, R291 to R294). -/
def fire (s : State) (t : Nat) (f : Firing) (bad : Bool) : State :=
  let s := (s.count .TILE_FIRE_CNT 1 t).raiseTo .TILE_INFLIGHT_HWM (inflight s t) t
  let s := raiseFlags s t f.fu f.pctx f.epoch (if f.err || f.poison then 4 else 0)
  let op := cOp f.word
  if 0x90 ≤ op then memFire s t f bad
  else
    let r := fuAlu f
    let s := raiseFlags s t f.fu f.pctx f.epoch (r.v.toNat + 2 * r.dz.toNat)
    let tag := resultTag f
    let s := credit s (creditGroup tag) (countedOuts f (some r.p) : Nat)
    if 0x28 ≤ op ∧ op ≤ 0x2D then divide s t f
    else produce s t f (fun o => 2 * f.fu + o) r.r r.r2 r.p tag (errOf f r) false

/-- The operands that a head presents are those that the word takes (R256). -/
def fits (w : BitVec 128) (a b c : Option Token) : Bool :=
  cOp w != 0 && (cSel w 0 == 1) == a.isSome && (cSel w 1 == 1) == b.isSome && (cSel w 2 == 1) == c.isSome

/-- Operands that the hall has let go return to it as what they were: a single, or the pair that met a C operand. -/
def rejoin (s : State) (t f p : Nat) (a b c : Option Token) : State :=
  match p, a, b, c with
  | 2, some a, some b, _ => giveBack s t (pairOf f a b)
  | 0, _, b, c => [(b, 1), (c, 2)].foldl (fun s x => match x.1 with
    | some k => giveBack s t { fu := f, kind := x.2, one := k }
    | none => s) s
  | _, a, _, c => [(a, 0), (c, 2)].foldl (fun s x => match x.1 with
    | some k => giveBack s t { fu := f, kind := x.2, one := k }
    | none => s) s

/-- A load has changed the context that port `p`'s head was about to fire (R345): the operands that the new context does not
take are strays (R258), and the others meet again under it. -/
def refit (s : State) (t f p : Nat) (w : BitVec 128) (a b c : Option Token) : State :=
  let pk := 3 * f + p
  let all : List (Nat × Option Token) := [(0, a), (1, b), (2, c)]
  let takes (i : Nat) : Bool := cOp w != 0 && cSel w i == 1 && cSel w p == 1
  let s := all.foldl (fun s x => match x.2 with
    | some k => if takes x.1 then s else stray s t 0 f x.1 k
    | none => s) s
  if takes p then
    let kept (i : Nat) (k : Option Token) : Option Token := if takes i && i != p then k else none
    let s := rejoin s t f p (kept 0 a) (kept 1 b) (kept 2 c)
    servePort (setPortOf s t pk { portOf s t pk with head := .fresh }) t pk
  else servePort (popHead s t pk) t pk

/-- An operation of FU `f` has not issued yet, the memory port having all its requests outstanding (R260). -/
def issueWaits (s : State) (t f : Nat) : Bool :=
  ((s.tile t).mems.drop (s.rdf .TILE_MEM_CFG 0 7 t)).any fun g => g.fu == f

/-- FU `f` fires what port `p` presents, where its outputs are empty, an in-flight entry is free and no operation of its own
waits to issue (R256, R260, R265, R276). -/
def fuFire (s : State) (t f p : Nat) (e : Ecc) : State :=
  let pk := 3 * f + p
  match (portOf s t pk).head with
  | .ready x a b c =>
    let w := ctxWord s t f x
    if tileRuns s t = false ∨ issueWaits s t f = true then s
    else if fits w a b c = false then refit s t f p w a b c
    else if outputsEmpty s t f w = false ∨ flightCap t ≤ inflight s t then s
    else
      let ks := [a, b, c].filterMap id
      let s := ks.foldl retire s
      match secDed e with
      | .uncorrectable => servePort (popHead (tileDetected s t 0x0100 (f + 256 * x) 0) t pk) t pk
      | _ =>
        let s := activity (if e.flips = [] then s else s.count .TILE_CTX_CE_CNT 1 t) t
        let i := freeFlight (s.tile t) (flightCap t)
        let g := firingOf w f x i a b c
        let bad := (a.getD {}).poison || (cOp w != 0x90 && (b.getD {}).poison)
        let s := setFlight s t i (some ⟨g.epoch, 1⟩)
        servePort (popHead (fire s t g bad) t pk) t pk
  | _ => s

/-- `FU_FIRE` (R256). -/
def execFuFire (t : Fin 48) (f : Fin 64) (p : Fin 3) (e : Ecc) (s : State) : Host.Outcome State Fault Refusal :=
  finish (fuFire s t f p e)

/-- A divider delivers its result (R259). -/
def dividerResult (s : State) (t d : Nat) (bad : Bool) : State :=
  let v := s.tile t
  match tget none v.divs d with
  | none => s
  | some f =>
    let s := s.setTile t { v with divs := tset id none v.divs d v.divWait.head?, divWait := v.divWait.drop 1 }
    let r := fuAlu f
    let s := produce s t f (fun _ => 136 + d) r.r r.r2 r.p f.tag (errOf f r || bad) false
    if bad then tileDetected s t 0x0102 d 0 else s

/-- `DIVIDER_RESULT` (R259). -/
def execDividerResult (t : Fin 48) (d : Fin 4) (bad : Bool) (s : State) : Host.Outcome State Fault Refusal :=
  finish (dividerResult s t d bad)

/-! Admission and exit (R267 to R271). -/

/-- A token enters the array at port `n` (R247, R267, R268). -/
def takeIn (s : State) (n : Nat) (k : Token) : State :=
  let t := portTile n
  let c := epCfg s n
  let s := (credit s (creditGroup k.tag) 1).count .TILE_EP_ADMIT 1 t (n % 4)
  launch (activity s t) t (132 + n % 4) { tok := k, kind := 3, tile := fld c 8 6, fu := fld c 14 6, port := fld c 20 2, frm := t }

/-- A port admits a token of a group (R269). -/
def admits (s : State) (n : Nat) (k : Token) : Bool := bit (epCfg s n) 2 || creditFree s (creditGroup k.tag)

/-- Port `n` holds whatever its credits: disabled, its tile disabled, paused or off (R269, R275), the domain that it feeds in
recovery (R478), or its buffer at the switch full (R247). -/
def portStands (s : State) (n : Nat) : Bool :=
  let t := portTile n
  !bit (epCfg s n) 0 || !s.live (tileB t) || bit (s.rd .TILE_CTRL t) 0 || frozen s (tileDomain s (fld (epCfg s n) 8 6)) ||
    !roomAt s t (132 + n % 4)

/-- The head token of port `n` is admitted, passed over, or held (R267, R269, R470). -/
def entryAdmit (s : State) (n : Nat) : State :=
  if portStands s n then s
  else if bit (epCfg s n) 1 then
    match queueOfCons s 1 n with
    | none => s
    | some q =>
      if gqRead s q = gqWrite s q then s else
      let r := readEntry s q
      match r.2 with
      | none => s
      | some (bs, z) =>
        let d := tileDomain s (fld (epCfg s n) 8 6)
        let k := tokenOf bs (max (posEpoch s q (gqRead s q)) (s.domain d).floor)
        let past (s : State) : State := (let s := setRead s q (gqRead s q + z); releaseTo s q (gqRead s q))
        if k.2 then past r.1
        else if admits s n k.1 then takeIn (past r.1) n k.1
        else s
  else
    match tget [] s.hthOut n with
    | [] => s
    | k :: l =>
      if admits s n k then takeIn { s with hthOut := tset id [] s.hthOut n l } n { k with epoch := epochNow s } else s

/-- `ENTRY_ADMIT` (R269). -/
def execEntryAdmit (n : Fin 64) (s : State) : Host.Outcome State Fault Refusal := finish (entryAdmit s n)

/-- `EXIT_ACCEPT` (R270). -/
def execExitAccept (t : Fin 48) (x : ExitToken) (s : State) : Host.Outcome State Fault Refusal :=
  finish (exitArrive s t x.src x.parity)

/-- `TILE_MARKER_PASS` (R273, R329, R471). -/
def execTileMarkerPass (m : MarkerPass) (s : State) : Host.Outcome State Fault Refusal := finish (markerPass s m.tile m.late)

/-! Spill (R322 to R330). -/

/-- The zero fill of a region completes (R322). -/
def spillFilled (s : State) (t : Nat) : State :=
  if spillEn s t = false ∨ (s.tile t).spillReady = true ∨ s.up (tileB t) = false ∨
      (memStatus s (hallReq t) (spillBase s t) 64 true != .ok) = true then s
  else
    let s := zeroRegion s (spillBase s t) (spillSize s t)
    s.setTile t { s.tile t with spillReady := true }

/-- `SPILL_FILL_DONE` (R322). -/
def execSpillFillDone (t : Fin 48) (s : State) : Host.Outcome State Fault Refusal := finish (spillFilled s t)

/-- The lookup on chip of the token at the head of a port finds a way uncorrectable (R328). -/
def wayFound (s : State) (t pk : Nat) (e : Ecc) : State :=
  match e.way, (portOf s t pk).buf with
  | some w, k :: _ =>
    let i := 4 * hallIndex s t (pk / 3) k + w.val
    if (s.tile t).way i = .free then s else loseWay s t i
  | _, _ => s

/-- `SPILL_OPERATION_DONE` (R319, R324, R325). -/
def execSpillOperationDone (t : Fin 48) (f : Fin 64) (p : Fin 3) (e0 e1 e2 e3 : Ecc) (s : State) :
    Host.Outcome State Fault Refusal :=
  let pk := 3 * f.val + p.val
  let s := wayFound s t pk e0
  finish (if (portOf s t pk).head = .spill ∧ ((s.tile t).spillReady = true ∨ spillEn s t = false) ∧
    spillBlocked s t pk = false then
    serveTile (finishHead s t pk [e0, e1, e2, e3]) t else s)

/-- Restored entries that wait for room are tried again (R639). -/
def retryReturning (s : State) (t : Nat) : State :=
  let l := (s.tile t).returning
  l.foldl (fun s e => giveBack s t e) (s.setTile t { s.tile t with returning := [] })

/-- `HELD_STORE_RETRY` (R327). -/
def execHeldStoreRetry (t : Fin 48) (f : Fin 64) (p : Fin 3) (e0 e1 e2 e3 : Ecc) (s : State) :
    Host.Outcome State Fault Refusal :=
  let pk := 3 * f.val + p.val
  let s := wayFound (retryReturning s t) t pk e0
  finish (if (portOf s t pk).head.isHeld then serveTile (finishHead s t pk [e0, e1, e2, e3]) t else s)

/-- A spilled entry counts as due at the age limit (R330). -/
def stampsDue (v : Tile) : Bool := v.stamps.any fun e => decide (v.limit ≤ (v.epoch + 256 - e.1) % 256)

/-- The scan reads one bucket, evicts what is due in it, and stops when nothing is (R330). -/
def spillScan (s : State) (t : Nat) (e : Ecc) : State :=
  let v := s.tile t
  if v.scanning = false ∨ spillEn s t = false ∨ v.spillReady = false then s
  else
    let b := v.scanAt
    let r := readBucket s t b e
    let due := (slotsOf r.1 t (match r.2 with
      | some bs => [(b, bs)]
      | none => [])).filterMap fun x => match x.2.2 with
        | some h => if v.limit ≤ ageOf v h then some (x.2.1, h) else none
        | none => none
    let s := due.foldl (fun s x => evict (removeSlot s t b x.1 v.epoch x.2) t x.2 1 true) r.1
    s.setTile t { s.tile t with scanAt := (b + 1) % buckets s t, scanning := stampsDue (s.tile t) }

/-- `SPILL_SCAN` (R330). -/
def execSpillScan (t : Fin 48) (e : Ecc) (s : State) : Host.Outcome State Fault Refusal := finish (spillScan s t e)

/-- Up to `n` spilled entries of the groups `h` in one bucket evicted with reason STALL, as a spill read shows them (R328, R335):
how many may go still. -/
def stallBucket (s : State) (t : Nat) (h : DWord) (n b : Nat) : State × Nat :=
  if n = 0 then (s, 0) else
  let r := readBucket s t b .ok
  let due := ((slotsOf r.1 t (match r.2 with
    | some bs => [(b, bs)]
    | none => [])).filterMap fun x => match x.2.2 with
      | some e => if entryHeld h e then some (x.2.1, e) else none
      | none => none).take n
  (due.foldl (fun s x => evict (removeSlot s t b x.1 (s.tile t).epoch x.2) t x.2 2 true) r.1, n - due.length)

/-- Entries of held groups evicted with reason STALL (R335). -/
def stallEvict (s : State) (t : Nat) : State :=
  let h := heldGroups s
  let n := s.rdf .HALL_STALL_EVICT 0 12 t
  let es := heldEntries s t h
  let chip := (es.filter fun x => x.1.isNone).take n
  let far := (es.filterMap fun x => x.1.map Prod.fst).eraseDups
  let s := chip.foldl (fun s x => evict (dropWay s t x.2.1) t x.2.2 2 false) s
  (far.foldl (fun x b => stallBucket x.1 t h x.2 b) (s, n - chip.length)).1

/-- The stall sentinel's interval expires with a condition held (R334, R335). -/
def stallDetected (s : State) (t : Nat) : State :=
  if s.rd .HALL_STALL_INT t = 0 ∨ (s.tile t).stalled = true ∨ s.ready (tileB t) = false then s
  else match stallCondition s t with
    | none => s
    | some (c, f) =>
      let s := (s.setTile t { s.tile t with stalled := true }).count .HALL_STALL_CNT 1 t
      let s := hallCause (s.wr .HALL_STALL_INFO (BitVec.ofNat 64 (c + 256 * f)) t) t 2
      if s.rdf .HALL_CTRL 10 2 t = 1 then serveTile (stallEvict s t) t else s

/-- `STALL_DETECTED` (R334). -/
def execStallDetected (t : Fin 48) (s : State) : Host.Outcome State Fault Refusal := finish (stallDetected s t)

/-! Epochs (R464, R465, R472, R478). -/

/-- `EPOCH_COMMIT` (R472, R473). -/
def execEpochCommit (d : Fin 4) (s : State) : Host.Outcome State Fault Refusal :=
  finish (if snapComplete s d then commit s d else s)

/-- `EPOCH_SYNC_EDGE` (R464, R465). -/
def execEpochSyncEdge (since : Nat) (s : State) : Host.Outcome State Fault Refusal :=
  finish (
    let p := s.epo.period
    let place (s : State) (r : Bool) : State :=
      { (s.wrf .EPO_STATUS 12 2 1).wrf .EPO_STATUS 16 8 0 with epo := { s.epo with placed := some r } }
    match s.rdf .EPO_STATUS 12 2 with
    | 1 =>
      if 8 * since ≤ 9 * p ∧ 7 * p ≤ 8 * since then
        (place s false).wr .EPO_SYNC_OFS (BitVec.ofNat 64 (toBits 32 ((since : Int) - p)))
      else slip s
    | 2 => if p ≤ 2 * (since + 4) then (place s true).evt .epochs 5 else slip s
    | _ => s)

end Sys2Proof.Machine
end

