-- ==== Sys2Proof/Machine/Crypto.lean ====
section
/-! DEFINITION. The digest and the signature that the boot and security controller uses (R537, R539, R552): SHA-512 as
FIPS 180-4 gives it and pure Ed25519 as RFC 8032 gives it. -/

namespace Sys2Proof.Machine

/-! SHA-512. -/

/-- The primes below `n`, in order. -/
def primesBelow (n : Nat) : List Nat :=
  (List.range n).filter fun p => decide (2 ≤ p) && (List.range p).all fun d => decide (d < 2) || p % d != 0

/-- The greatest number of `b` bits at most whose `k`-th power does not exceed `n`. -/
def rootFloor (k n : Nat) : Nat → Nat
  | 0 => 0
  | b + 1 =>
    let r := 2 * rootFloor k (n / 2 ^ k) b
    if (r + 1) ^ k ≤ n then r + 1 else r

/-- The first 64 bits of the fractional part of the `k`-th root of `p`, from which FIPS 180-4 takes the constants. -/
def rootFraction (k p : Nat) : DWord := BitVec.ofNat 64 (rootFloor k (p * 2 ^ (64 * k)) 72)

/-- The constants of the 80 steps: cube roots of the first 80 primes, the last of which is 409. -/
def shaConstants : List DWord := (primesBelow 410).map (rootFraction 3)

/-- The exclusive or of a word's rotations by each of `rs`. -/
def turns (rs : List Nat) (x : DWord) : DWord := rs.foldl (fun y r => y ^^^ x.rotateRight r) 0

/-- The eight working variables as two histories, the newest value first, with the 16 schedule words from the present one on. -/
structure Digest where
  left : List DWord
  right : List DWord
  words : List DWord
  deriving DecidableEq, Repr

/-- Word `i` of a history. -/
def past (l : List DWord) (i : Nat) : DWord := l.getD i 0

/-- One step with the constant `c`: both histories gain a word, and the window of the schedule moves on by one. -/
def Digest.advance (d : Digest) (c : DWord) : Digest :=
  let pick := past d.right 2 ^^^ (past d.right 0 &&& (past d.right 1 ^^^ past d.right 2))
  let most := (past d.left 0 &&& (past d.left 1 ||| past d.left 2)) ||| (past d.left 1 &&& past d.left 2)
  let sum := past d.right 3 + turns [14, 18, 41] (past d.right 0) + pick + c + past d.words 0
  let far := turns [1, 8] (past d.words 1) ^^^ (past d.words 1 >>> 7)
  let near := turns [19, 61] (past d.words 14) ^^^ (past d.words 14 >>> 6)
  { left := (sum + turns [28, 34, 39] (past d.left 0) + most) :: d.left.take 3
    right := (past d.left 3 + sum) :: d.right.take 3
    words := d.words.drop 1 ++ [past d.words 0 + far + past d.words 9 + near] }

/-- The number that bytes spell, the highest first. -/
def beNat (bs : List Byte) : Nat := bs.foldl (fun a b => a * 256 + b.toNat) 0

/-- The `n` bytes of a number, the highest first. -/
def beBytes (n x : Nat) : List Byte := (leBytes n x).reverse

/-- The words of `n` times 8 bytes. -/
def beWords : Nat → List Byte → List DWord
  | 0, _ => []
  | n + 1, bs => BitVec.ofNat 64 (beNat (bs.take 8)) :: beWords n (bs.drop 8)

/-- The hash `h`, of eight words, after the blocks of 128 bytes of a padded message. -/
def digestFrom : Nat → List DWord → List Byte → List DWord
  | 0, h, _ => h
  | n + 1, h, bs =>
    let d := shaConstants.foldl Digest.advance ⟨h.take 4, h.drop 4, beWords 16 bs⟩
    digestFrom n (List.zipWith (· + ·) h (d.left ++ d.right)) (bs.drop 128)

/-- SHA-512: 64 bytes. It starts from the square roots of the first 8 primes; the message is filled up to whole blocks with a
1 bit, zeros and its length in bits. -/
def sha512 (bs : List Byte) : List Byte :=
  let n := (bs.length + 17 + 127) / 128
  let p := bs ++ 0x80 :: List.replicate (128 * n - bs.length - 17) 0 ++ beBytes 16 (8 * bs.length)
  (digestFrom n ((primesBelow 20).map (rootFraction 2)) p).flatMap fun w => beBytes 8 w.toNat

/-! Ed25519. -/

/-- The field's prime. -/
def edP : Nat := 2 ^ 255 - 19
/-- The group's order. -/
def edL : Nat := 2 ^ 252 + 27742317777372353535851937790883648493

/-- A power modulo `m`, over `n` bits of the exponent. -/
def powMod (m : Nat) : Nat → Nat → Nat → Nat
  | 0, _, _ => 1
  | n + 1, b, e =>
    let r := powMod m n (b * b % m) (e / 2)
    if e % 2 = 1 then r * b % m else r

/-- The inverse in the field. -/
def edInv (x : Nat) : Nat := powMod edP 255 (x % edP) (edP - 2)
/-- The difference in the field. -/
def edSub (a b : Nat) : Nat := (a + (edP - b % edP)) % edP
/-- The curve's constant d. -/
def edD : Nat := (edP - 121665) * edInv 121666 % edP

/-- A point in extended coordinates. -/
structure EdPoint where
  x : Nat
  y : Nat
  z : Nat
  t : Nat
  deriving DecidableEq, Repr

/-- The neutral point. -/
def edZero : EdPoint := ⟨0, 1, 1, 0⟩

/-- The sum of two points. -/
def edAdd (p q : EdPoint) : EdPoint :=
  let a := edSub p.y p.x * edSub q.y q.x % edP
  let b := (p.y + p.x) * (q.y + q.x) % edP
  let c := 2 * p.t * q.t % edP * edD % edP
  let d := 2 * p.z * q.z % edP
  let e := edSub b a
  let f := edSub d c
  let g := (d + c) % edP
  let h := (b + a) % edP
  ⟨e * f % edP, g * h % edP, f * g % edP, e * h % edP⟩

/-- A multiple of a point, over `n` bits of the factor. -/
def edMul : Nat → Nat → EdPoint → EdPoint
  | 0, _, _ => edZero
  | n + 1, k, p =>
    let r := edMul n (k / 2) (edAdd p p)
    if k % 2 = 1 then edAdd r p else r

/-- Two points are equal. -/
def edSame (p q : EdPoint) : Bool :=
  p.x * q.z % edP == q.x * p.z % edP && p.y * q.z % edP == q.y * p.z % edP

/-- The x coordinate with a sign for a y coordinate, if there is one. -/
def edRecover (y sign : Nat) : Option Nat :=
  if edP ≤ y then none
  else
    let xx := edSub (y * y) 1 * edInv (edD * (y * y % edP) + 1) % edP
    let x := powMod edP 255 xx ((edP + 3) / 8)
    let x := if x * x % edP = xx then x else x * powMod edP 255 2 ((edP - 1) / 4) % edP
    if x * x % edP ≠ xx then none
    else if x = 0 ∧ sign = 1 then none
    else some (if x % 2 = sign then x else edP - x)

/-- The base point. -/
def edBase : EdPoint :=
  let y := 4 * edInv 5 % edP
  let x := (edRecover y 0).getD 0
  ⟨x, y, 1, x * y % edP⟩

/-- A point as 32 bytes. -/
def edEncode (p : EdPoint) : List Byte :=
  let z := edInv p.z
  leBytes 32 (p.y * z % edP + p.x * z % edP % 2 * 2 ^ 255)

/-- The point that 32 bytes spell. -/
def edDecode (bs : List Byte) : Option EdPoint :=
  let n := leNat (bs.take 32)
  let y := n % 2 ^ 255
  (edRecover y (n / 2 ^ 255)).map fun x => ⟨x, y, 1, x * y % edP⟩

/-- The secret scalar and the prefix of a 32-byte secret. -/
def edSecret (seed : List Byte) : Nat × List Byte :=
  let h := sha512 seed
  (leNat (h.take 32) % 2 ^ 254 / 8 * 8 + 2 ^ 254, h.drop 32)

/-- The public key of a secret. -/
def edPublic (seed : List Byte) : List Byte := edEncode (edMul 256 (edSecret seed).1 edBase)

/-- The signature of a message by a secret. -/
def edSign (seed msg : List Byte) : List Byte :=
  let s := edSecret seed
  let r := leNat (sha512 (s.2 ++ msg)) % edL
  let rb := edEncode (edMul 256 r edBase)
  let k := leNat (sha512 (rb ++ edPublic seed ++ msg)) % edL
  rb ++ leBytes 32 ((r + k * s.1) % edL)

/-- A signature of a message verifies under a public key. -/
def edVerify (key msg sig : List Byte) : Bool :=
  match edDecode key, edDecode (sig.take 32) with
  | some a, some r =>
    let s := leNat ((sig.drop 32).take 32)
    let k := leNat (sha512 (sig.take 32 ++ key.take 32 ++ msg)) % edL
    decide (s < edL) && edSame (edMul 256 s edBase) (edAdd r (edMul 256 k a))
  | _, _ => false

end Sys2Proof.Machine
end

