-- ==== Sys2Proof/Machine/Security.lean ====
section
/-! DEFINITION. Boot and security (chapter 19): fuses, manifests, the measurement log, boot, security commands. -/

namespace Sys2Proof.Machine

/-! Fuses (R540 to R543). -/

/-- What a fuse word holds before anything is programmed: both copies of word 40 carry the grades (log 3, log 18). -/
def fuseDef (k : Nat) : Word := if k = 40 ∨ k = 104 then 0x00120000 else 0
/-- Copy A of fuse word `w`. -/
def fuseA (s : State) (w : Nat) : Word := tget (fuseDef w) s.fuses w
/-- Copy B of fuse word `w`. -/
def fuseB (s : State) (w : Nat) : Word := tget (fuseDef (64 + w)) s.fuses (64 + w)
/-- A copy of a word set. -/
def setFuse (s : State) (k : Nat) (v : Word) : State := { s with fuses := tset id (fuseDef k) s.fuses k v }
/-- The copies of a word differ. -/
def fuseDiff (s : State) (w : Nat) : Bool := fuseA s w != fuseB s w
/-- Some of `n` words from `w` differ. -/
def fuseDiffs (s : State) (w n : Nat) : Bool := (List.range n).any fun i => fuseDiff s (w + i)
/-- The words that differ. -/
def fuseMismatches (s : State) : List Nat := (List.range 55).filter (fuseDiff s)
/-- The bytes of `n` words from `w`, copy A. -/
def fuseBytes (s : State) (w n : Nat) : List Byte := (List.range n).flatMap fun i => leBytes 4 (fuseA s (w + i)).toNat

/-- The vendor root key, where it is usable (R541). -/
def vendorKey (s : State) : Option (List Byte) := if fuseDiffs s 0 8 then none else some (fuseBytes s 0 8)
/-- Owner slot `i` is programmed (R540). -/
def slotProgrammed (s : State) (i : Nat) : Bool :=
  (List.range 8).any fun j => fuseA s (8 + 8 * i + j) != 0 || fuseB s (8 + 8 * i + j) != 0
/-- Owner slot `i` is revoked (R541). -/
def slotRevoked (s : State) (i : Nat) : Bool :=
  fuseDiffs s (8 + 8 * i) 8 || bit (fuseA s 40 ||| fuseB s 40) i
/-- `DEBUG_LOCK` (R541). -/
def debugLock (s : State) : Bool := bit (fuseA s 40 ||| fuseB s 40) 8
/-- A thermometer's bits: words `w` and `w + 1`, the OR of the copies (R541). -/
def thermo (s : State) (w : Nat) : Nat :=
  (fuseA s w ||| fuseB s w).toNat + 2 ^ 32 * (fuseA s (w + 1) ||| fuseB s (w + 1)).toNat
/-- The boot count (R540). -/
def bootCount (s : State) : Nat := popc 64 (thermo s 41)
/-- The configuration count (R540). -/
def cfgCount (s : State) : Nat := popc 64 (thermo s 43)
/-- The identity seed, where it is usable (R541). -/
def idSeed (s : State) : Option (List Byte) := if fuseDiffs s 45 8 then none else some (fuseBytes s 45 8)
/-- The device serial number (R541). -/
def serialNo (s : State) : DWord := join32 (fuseA s 54 &&& fuseB s 54) (fuseA s 53 &&& fuseB s 53)

/-- The grades as `DEV_GRADE` reports them (R4, R541): the lower speed grade, and C where the copies differ. -/
def fuseGrade (s : State) : Nat :=
  let a := fuseA s 40
  let b := fuseB s 40
  min (fld a 16 4) (fld b 16 4) + 16 * (if fld a 16 8 = fld b 16 8 then fld a 20 4 else 1)

/-- Words of a register array set from bytes. -/
def putWords (s : State) (r : Reg) (n : Nat) (bs : List Byte) : State :=
  (List.range n).foldl (fun s j => s.wr r (BitVec.ofNat 64 (leNat ((bs.drop (4 * j)).take 4))) 0 j) s

/-- What follows from the fuses' present values: `SEC_FUSE_STATUS`, the counts, the grades, and the lock of the debug port
(R541, R550). -/
def fuseView (s : State) : State :=
  let f (p : Nat → Bool) (lo : Nat) : Nat := (List.range 4).foldl (fun a i => a + (p i).toNat * 2 ^ (lo + i)) 0
  let s := s.wr .SEC_FUSE_STATUS (BitVec.ofNat 64 (f (slotProgrammed s) 0 + f (slotRevoked s) 4 +
    256 * (debugLock s).toNat + 512 * (vendorKey s).isSome.toNat + 1024 * (idSeed s).isSome.toNat +
    65536 * (fuseMismatches s).length))
  let s := (s.wrf .SEC_BOOT_STATUS 16 7 (bootCount s)).wrf .SEC_BOOT_STATUS 24 7 (cfgCount s)
  let s := s.wr .DEV_GRADE (BitVec.ofNat 64 (fuseGrade s))
  if debugLock s then s.wr .SEC_DBG_STATUS 0 else s

/-- FUSE_MISMATCH is recorded (R541). -/
def fuseMismatch (s : State) (w : Nat) : State := (s.fault .security 0x0100 w).evt .security 2

/-- The fuses are sensed (R540, R541). -/
def senseFuses (s : State) : State :=
  let s := fuseView s
  let s := s.wr .SEC_SERIAL (serialNo s)
  let s := putWords s .SEC_ID_PUB 8 (match idSeed s with
    | some x => edPublic x
    | none => [])
  let s := if debugLock s then s else s.wrf .SEC_DBG_STATUS 0 2 1
  match fuseMismatches s with
  | [] => s
  | w :: _ => fuseMismatch s w

/-- Both copies of words given further bits. -/
def burnFuses (s : State) (ws : List (Nat × Word)) : State :=
  ws.foldl (fun s x => setFuse (setFuse s x.1 (fuseA s x.1 ||| x.2)) (64 + x.1) (fuseB s x.1 ||| x.2)) s

/-- Both copies of words programmed with further bits, and read back (R542): the state and the command's error. A copy that
reads back wrong holds what it held and the bits read: no fuse falls (R543). -/
def programFuses (s : State) (ws : List (Nat × Word)) (r : FuseStep) : State × Nat :=
  if s.hold then (s, 5)
  else match r with
  | .noSupply => (s.fault .security 0x0102 ((ws.headD (0, 0)).1), 7)
  | .wrong w copyB v =>
    let copy (s : State) : Word := if copyB then fuseB s w else fuseA s w
    let got := copy s ||| v
    let s := burnFuses s ws
    if (ws.any fun x => x.1 == w.val) && copy s != got then
      let s := (setFuse s (if copyB then 64 + w.val else w.val) got).fault .security 0x0102 w
      (fuseView (if fuseDiff s w then fuseMismatch s w else s), 7)
    else (fuseView s, 0)
  | .done => (fuseView (burnFuses s ws), 0)

/-- The lowest unset bits of `v` set until `n` bits are: the steps that raise a thermometer. -/
def fillTo (n v : Nat) : Nat → Nat
  | 0 => v
  | k + 1 => let u := fillTo n v k; if popc 64 u < n ∧ (u >>> k) % 2 = 0 then u + 2 ^ k else u

/-- A thermometer raised to a count (R543). -/
def raiseCount (s : State) (w n : Nat) (r : FuseStep) : State × Nat :=
  if n ≤ popc 64 (thermo s w) then (s, 0)
  else
    let v := fillTo n (thermo s w) 64
    programFuses s [(w, BitVec.ofNat 32 v), (w + 1, BitVec.ofNat 32 (v / 2 ^ 32))] r

/-! Manifests (R537 to R539). -/

/-- Word `i` of some bytes. -/
def word (bs : List Byte) (i : Nat) : Nat := leNat ((bs.drop (4 * i)).take 4)
/-- Bytes `[a, b)`. -/
def cut (bs : List Byte) (a b : Nat) : List Byte := (bs.drop a).take (b - a)
/-- `KIND`. -/
def mKind (m : List Byte) : Nat := word m 2 % 256
/-- Security version. -/
def mVersion (m : List Byte) : Nat := word m 3 % 128
/-- `COMMIT`. -/
def mCommit (m : List Byte) : Bool := word m 3 / 256 % 2 == 1
/-- `SIGNER`. -/
def mSigner (m : List Byte) : Nat := word m 5 % 8
/-- Payload length. -/
def mLength (m : List Byte) : Nat := word m 4
/-- The signer's public key. -/
def mKey (m : List Byte) : List Byte := cut m 0x60 0x80
/-- The payload limit of a kind (R538). -/
def kindLimit (k : Nat) : Nat :=
  match k with
  | 1 => 262144 | 2 => 4517440 | 3 => 1180096 | _ => 48

/-- The stepping of the device (R5). -/
def stepping : Nat := 0xB1

/-- Format, kind, stepping and length are right for a use of kind `k` whose object is `len` bytes (R537 to R539). -/
def manifestForm (k len : Nat) (m : List Byte) : Bool :=
  m.length == 256 && word m 0 == 0x4D414E46 && word m 1 == 1 && word m 2 < 65536 && mKind m == k &&
  (word m 2 / 256 == 0 || word m 2 / 256 == stepping) &&
  word m 3 < 512 && mVersion m ≤ 64 && word m 3 / 128 % 2 == 0 && (k == 1 || !mCommit m) &&
  mLength m ≤ kindLimit k && mLength m + 256 == len && word m 5 ≤ 4 && word m 6 == 0 && word m 7 == 0 &&
  (cut m 0x80 0xC0).all (· == 0)

/-- The signer's key is one that the fuses admit (R539). -/
def keyOk (s : State) (m : List Byte) : Bool :=
  match mSigner m with
  | 0 => vendorKey s == some (mKey m)
  | i => slotProgrammed s (i - 1) && !slotRevoked s (i - 1) && (sha512 (mKey m)).take 32 == fuseBytes s (8 * i) 8

/-- The signature verifies (R537). -/
def signatureOk (m : List Byte) : Bool := edVerify (mKey m) (sha512 (m.take 0xC0)) (cut m 0xC0 0x100)

/-- The security version is at least the count of the kind (R538). -/
def versionOk (s : State) (m : List Byte) : Bool :=
  match mKind m with
  | 1 => bootCount s ≤ mVersion m
  | 2 | 3 => cfgCount s ≤ mVersion m
  | _ => true

/-- The payload's digest is the manifest's (R539). -/
def digestOk (m payload : List Byte) : Bool := sha512 payload == cut m 0x20 0x60

/-- The first check of a manifest that fails, by the error numbers of R548, 0 for none; `key` says whether its signer is
admitted. -/
def manifestError (s : State) (k len : Nat) (m : List Byte) (key : Bool) : Nat :=
  if manifestForm k len m = false then 1
  else if key = false then 4
  else if signatureOk m = false then 2
  else if versionOk s m = false then 3
  else 0

/-- VERIFY_FAIL (R554). -/
def verifyFail (s : State) (k err : Nat) : State := (s.fault .security 0x0101 (k + 256 * err)).evt .security 1

/-- The log entry of a manifest (R551). -/
def logEntry (s : State) (m : List Byte) : List Byte :=
  leBytes 4 (mKind m + 256 * mSigner m + 65536 * mVersion m) ++ leBytes 4 s.sec.log.length ++
  leBytes 8 (s.rd .EPO_NUMBER).toNat ++ List.replicate 16 0 ++ sha512 m

/-- An accepted manifest enters the log (R551): the state, and 8 where the log is full. -/
def logAppend (s : State) (m : List Byte) : State × Nat :=
  if s.sec.log.any fun e => e.drop 32 == sha512 m then (s, 0)
  else if 256 ≤ s.sec.log.length then (s.fault .security 0x0103, 8)
  else
    let s := { s with sec := { s.sec with log := s.sec.log ++ [logEntry s m] } }
    (s.wr .SEC_LOG_COUNT (BitVec.ofNat 64 s.sec.log.length), 0)

/-- A manifest and its payload verified and measured (R539, R551, R554): the state and the error, 0 where accepted. -/
def acceptImage (s : State) (k len : Nat) (m payload : List Byte) : State × Nat :=
  let e := manifestError s k len m (keyOk s m)
  let e := if e = 0 ∧ digestOk m payload = false then 2 else e
  if e ≠ 0 then (verifyFail s k e, e)
  else
    let l := logAppend s m
    (if l.2 = 0 ∧ (k = 2 ∨ k = 3) then { l.1 with sec := { l.1.sec with cfgHigh := max l.1.sec.cfgHigh (mVersion m) } }
      else l.1, l.2)

/-! Reading images. -/

/-- `n` bytes of memory in packets of up to 256 bytes, as requester `q`: the first response that is not OK ends it. -/
def readImage (q : Requester) : Nat → Nat → Nat → State → State × Status × List Byte
  | 0, _, _, s => (s, .ok, [])
  | k + 1, a, n, s =>
    if n = 0 then (s, .ok, []) else
    let m := min n 256
    let r := memRead s q a ((m + 15) / 16 * 16)
    if r.2.1 ≠ .ok then (r.1, r.2.1, [])
    else
      let t := readImage q k (a + 256) (n - m) r.1
      (t.1, t.2.1, r.2.2.take m ++ t.2.2)

/-- An object of `len` bytes at an address: manifest and payload, the payload no longer than `lim`. -/
def readObject (s : State) (q : Requester) (a len lim : Nat) : State × Status × List Byte × List Byte :=
  let r := readImage q 1 a (min len 256) s
  if r.2.1 ≠ .ok then (r.1, r.2.1, [], [])
  else
    let n := min (len - 256) lim
    let t := readImage q ((n + 255) / 256) (a + 256) n r.1
    (t.1, t.2.1, r.2.2, t.2.2)

/-! Boot (R544 to R546). -/

/-- `SEC_BOOT_STATUS.STATE`. -/
def bootState (s : State) : Nat := s.rdf .SEC_BOOT_STATUS 0 3

/-- A boot state is entered (R546). -/
def bootTo (s : State) (st : Nat) : State :=
  let s := s.wrf .SEC_BOOT_STATUS 0 3 st
  if 3 ≤ st then s.evt .security 0 else s

/-- An image accepted as boot image runs (R543, R546): its count is raised first where it commits; the error of the fuse
step, if one failed (log 19). -/
def runImage (s : State) (m : List Byte) (copyB link : Bool) (r : FuseStep) : State × Nat :=
  let p := if mCommit m then raiseCount s 41 (mVersion m) r else (s, 0)
  let s := ((p.1.wrf .SEC_BOOT_STATUS 3 1 copyB.toNat).wrf .SEC_BOOT_STATUS 4 1 link.toNat).wrf .SEC_BOOT_STATUS 8 7 (mVersion m)
  (bootTo { s with sec := { s.sec with copies := none } } 5, p.2)

/-- A flash copy verified but for its payload (R545): the state with a failure recorded, and the copy where it is valid. -/
def flashManifest (s : State) (c : Option FlashCopy) : State × Option FlashCopy :=
  match c with
  | none => (verifyFail s 1 0x0A, none)
  | some x =>
    let e := manifestError s 1 (256 + mLength x.manifest) x.manifest (keyOk s x.manifest)
    if e = 0 then (s, some x) else (verifyFail s 1 e, none)

/-- Neither copy is left (R545, R546). -/
def noFlash (s : State) : State := bootTo s (if s.sec.bootSel = 2 then 2 else 4)

/-- What is wrong with a selected copy's payload: READ where flash returned less than its length, SIGNATURE where the digest
differs, 0 for nothing (R539). -/
def payloadError (x : FlashCopy) : Nat :=
  if x.payload.length < mLength x.manifest then 0x0A
  else if digestOk x.manifest (x.payload.take (mLength x.manifest)) then 0 else 2

/-- A selected copy's payload is checked and the copy runs; where it fails, that is recorded and `other` goes on. -/
def flashRun (s : State) (x : FlashCopy) (copyB : Bool) (r : FuseStep) (other : State → State) : State :=
  let e := payloadError x
  if e ≠ 0 then other (verifyFail s 1 e)
  else
    let l := logAppend s x.manifest
    if l.2 = 0 then (runImage l.1 x.manifest copyB false r).1 else noFlash l.1

/-- The boot from flash (R545): `a` and `b` are the copies as flash returns them. -/
def flashBoot (s : State) (a b : Option FlashCopy) (r : FuseStep) : State :=
  let x := flashManifest s a
  let y := flashManifest x.1 b
  let s := y.1
  match x.2, y.2 with
  | none, none => noFlash s
  | some x, none => flashRun s x false r noFlash
  | none, some y => flashRun s y true r noFlash
  | some x, some y =>
    let same := mVersion x.manifest == mVersion y.manifest
    if same && cut x.manifest 0x20 0x60 != cut y.manifest 0x20 0x60 then
      bootTo { s with sec := { s.sec with copies := some (x, y) } } 3
    else if mVersion x.manifest < mVersion y.manifest then
      flashRun s y true r fun s => flashRun s x false r noFlash
    else flashRun s x false r fun s => flashRun s y true r noFlash

/-- `FLASH_BOOT` (R545). -/
def execFlashBoot (a b : Option FlashCopy) (r : FuseStep) (s : State) : Host.Outcome State Fault Refusal :=
  done (if bootState s = 1 then flashBoot s a b r else s)

/-- The BSC boots after its fuses are sensed (R544, R546). -/
def bootStart (s : State) (sel : BitVec 2) : State :=
  bootTo { s with sec := { s.sec with bootSel := sel } } (if sel = 0 ∨ sel = 2 then 1 else 2)

/-! Security commands (R546 to R552). -/

/-- `SEC_CMD_STATUS` at a state and an error. -/
def cmdStatus (s : State) (st err : Nat) : State := s.wr .SEC_CMD_STATUS (BitVec.ofNat 64 (st + 256 * err))

/-- A write of `v` to `SEC_CMD` (R548). -/
def secCommand (s : State) (v : Word) : State :=
  if s.sec.cmd.isSome then s.refuse .security 0x044 v
  else if fld v 0 4 = 0 then s
  else cmdStatus { s with sec := { s.sec with cmd := some (fld v 0 4, fld v 8 7) } } 1 0

/-- A command fails with an error that the spec does not name: which of the ten errors it shows is a free value (log 20). -/
def openError (s : State) : State × Nat := (s.draw.1, 1 + s.draw.2.toNat % 10)

/-- The object of a command read as requester BSC. -/
def cmdObject (s : State) (a l : Reg) (lim : Nat) : State × Status × List Byte × List Byte :=
  readObject s .bsc (s.rd a).toNat (s.rd l).toNat lim

/-- BOOT_LINK (R546). -/
def doBootLink (s : State) (r : FuseStep) : State × Nat :=
  if bootState s = 2 ∨ bootState s = 3 ∨ bootState s = 4 then
    let o := cmdObject s .SEC_BOOT_ADDR .SEC_BOOT_LEN (kindLimit 1)
    if o.2.1 ≠ .ok then (verifyFail o.1 1 0x0A, 0x0A)
    else
      let x := acceptImage o.1 1 (s.rd .SEC_BOOT_LEN).toNat o.2.2.1 o.2.2.2
      if x.2 ≠ 0 then x else runImage x.1 o.2.2.1 false true r
  else (s, 6)

/-- BOOT_COPY_A and BOOT_COPY_B (R546). -/
def doBootCopy (s : State) (copyB : Bool) (r : FuseStep) : State × Nat :=
  match s.sec.copies with
  | none => (s, 6)
  | some (a, b) =>
    if bootState s ≠ 3 then (s, 6) else
    let x := if copyB then b else a
    let e := payloadError x
    if e ≠ 0 then (verifyFail s 1 e, e)
    else
      let l := logAppend s x.manifest
      if l.2 ≠ 0 then l else runImage l.1 x.manifest copyB false r

/-- The first owner enrols itself (R547). -/
def enrols (s : State) (m p : List Byte) : Bool :=
  (List.range 4).all (fun i => !slotProgrammed s i) && word p 0 == 1 && 1 ≤ mSigner m && word p 1 + 1 == mSigner m &&
  (sha512 (mKey m)).take 32 == cut p 8 40

/-- KEY_COMMAND (R547). -/
def doKeyCommand (s : State) (r : FuseStep) : State × Nat :=
  let o := cmdObject s .SEC_CMD_ADDR .SEC_CMD_LEN (kindLimit 4)
  let s := o.1
  let m := o.2.2.1
  let p := o.2.2.2
  if o.2.1 ≠ .ok then (verifyFail s 4 0x0A, 0x0A)
  else
    let e := manifestError s 4 (s.rd .SEC_CMD_LEN).toNat m (keyOk s m || enrols s m p)
    let e := if e = 0 ∧ digestOk m p = false then 2 else e
    let op := word p 0
    let i := word p 1
    if e ≠ 0 then (verifyFail s 4 e, e)
    else if p.length ≠ 48 ∨ op = 0 ∨ 2 < op ∨ 3 < i ∨ (op = 2 ∧ (cut p 8 40).any (· != 0) = true) then (verifyFail s 4 1, 1)
    else if leNat (cut p 40 48) ≠ 0 ∧ leNat (cut p 40 48) ≠ (serialNo s).toNat then openError s
    else if slotRevoked s i = true ∨ (op = 1 ∧ slotProgrammed s i = true) then (s, 6)
    else if s.hold then (s, 5)
    else
      let l := logAppend s m
      if l.2 ≠ 0 then l
      else if op = 1 then
        programFuses l.1 ((List.range 8).map fun j => (8 + 8 * i + j, BitVec.ofNat 32 (word p (2 + j)))) r
      else programFuses l.1 [(40, BitVec.ofNat 32 (2 ^ i))] r

/-- DEBUG_OPEN (R550). -/
def doDebugOpen (s : State) : State × Nat :=
  if s.rdf .SEC_DBG_STATUS 0 2 ≠ 1 then (s, 6) else
  let o := cmdObject s .SEC_CMD_ADDR .SEC_CMD_LEN (kindLimit 5)
  let s := o.1
  let m := o.2.2.1
  let p := o.2.2.2
  if o.2.1 ≠ .ok then (verifyFail s 5 0x0A, 0x0A)
  else
    let e := manifestError s 5 (s.rd .SEC_CMD_LEN).toNat m (keyOk s m)
    let e := if e = 0 ∧ digestOk m p = false then 2 else e
    if e ≠ 0 then (verifyFail s 5 e, e)
    else if p.length < 44 then (verifyFail s 5 1, 1)
    else if s.sec.fresh = false ∨ ((List.range 8).any fun j => word p j != (s.rd .SEC_DBG_CHAL 0 j).toNat) = true then (s, 9)
    else
      let s := { s with sec := { s.sec with fresh := false } }
      if leNat (cut p 32 40) ≠ (serialNo s).toNat then openError s
      else
        let l := logAppend s m
        if l.2 ≠ 0 then l
        else ((l.1.wr .SEC_DBG_STATUS (BitVec.ofNat 64 (2 + 16 * (word p 10 % 8)))).evt .security 3, 0)

/-- DEBUG_CLOSE (R548, R550). -/
def doDebugClose (s : State) : State × Nat :=
  if s.rdf .SEC_DBG_STATUS 0 2 = 2 then (s.wr .SEC_DBG_STATUS 1, 0) else (s, 0)

/-- DEBUG_CHALLENGE (R548). -/
def doChallenge (s : State) (chal : BitVec 256) : State × Nat :=
  (putWords { s with sec := { s.sec with fresh := true } } .SEC_DBG_CHAL 8 (leBytes 32 chal.toNat), 0)

/-- QUOTE (R552). -/
def doQuote (s : State) : State × Nat :=
  match idSeed s with
  | none => openError s
  | some x =>
    let nonce := (List.range 8).flatMap fun j => leBytes 4 (s.rd .SEC_NONCE 0 j).toNat
    let d := sha512 (s.sec.log.flatten ++ nonce)
    (putWords (putWords (s.wr .SEC_QUOTE_COUNT (BitVec.ofNat 64 s.sec.log.length)) .SEC_QUOTE_DIGEST 16 d)
      .SEC_QUOTE_SIG 16 (edSign x d), 0)

/-- CFG_ROLLBACK (R543). -/
def doCfgRollback (s : State) (v : Nat) (r : FuseStep) : State × Nat :=
  if 64 < v then (s, 1)
  else if v ≤ cfgCount s then (s, 0)
  else if s.sec.cfgHigh < v then (s, 3)
  else raiseCount s 43 v r

/-- The command under way performed: the state and its error. -/
def performCommand (s : State) (c v : Nat) (chal : BitVec 256) (r : FuseStep) : State × Nat :=
  match c with
  | 1 => doBootLink s r
  | 2 => doBootCopy s false r
  | 3 => doBootCopy s true r
  | 4 => doKeyCommand s r
  | 5 => doDebugOpen s
  | 6 => doDebugClose s
  | 7 => doChallenge s chal
  | 8 => doQuote s
  | 9 => doCfgRollback s v r
  | _ => (s, 0)

/-- `SEC_COMMAND_DONE` (R548). -/
def execSecCommandDone (chal : BitVec 256) (r : FuseStep) (s : State) : Host.Outcome State Fault Refusal :=
  done (match s.sec.cmd with
    | none => s
    | some (c, v) =>
      let x := performCommand { s with sec := { s.sec with cmd := none } } c v chal r
      cmdStatus x.1 (if x.2 = 0 then 2 else 3) x.2)

/-- Resets B, E and W clear the log and what the controller holds (R546, R551). -/
def secReset (s : State) : State := { s with sec := {} }

/-- Word `j` of `SEC_LOG_ENTRY` as it reads; what an entry that is not there reads is open (log 21). -/
def secLogWord (s : State) (j : Nat) : DWord :=
  match s.sec.log[s.rdf .SEC_LOG_IDX 0 8]? with
  | some e => BitVec.ofNat 64 (word e j)
  | none => (Config.logWord (s.rdf .SEC_LOG_IDX 0 8) j).setWidth 64

/-! The identity certificate. -/

/-- Byte `i` of `SEC_CERT`: the length, at most 510, in bytes 0 and 1, the certificate behind it, then zeros. -/
def certAt (i : Nat) : Byte :=
  let n := min 510 Config.certLength
  if i < 2 then BitVec.ofNat 8 (n / 256 ^ i) else if i < n + 2 then Config.certByte (i - 2) else 0

/-- Word `j` of `SEC_CERT`. -/
def certWord (j : Nat) : DWord :=
  BitVec.ofNat 64 (leNat [certAt (4 * j), certAt (4 * j + 1), certAt (4 * j + 2), certAt (4 * j + 3)])

end Sys2Proof.Machine
end

