-- ==== Sys2Proof/Machine/Health.lean ====
section
/-! DEFINITION. Health monitors, the margin ledger, the regulator and self-test (chapter 20). -/

namespace Sys2Proof.Machine

/-- A fault of the health page. -/
def healthFault (s : State) (code detail : Nat) : State := s.fault .health code detail

/-! Sensors (R556 to R558). -/

/-- A monitor marked failed, with its fault where it was not (R558). -/
def markFailed (s : State) (r : Reg) (i kind : Nat) (out : Bool) : State :=
  if out && !bit (s.rd r 0 i) 15 then healthFault (s.wrf r 15 1 1 0 i) 0x0102 (i + 256 * kind) else s

/-- A temperature reading stored, the highest one kept in whole degrees (R557; log 31). -/
def takeTemp (s : State) (i : Nat) (v : BitVec 12) : State :=
  let t := sgn 12 v.toNat
  let s := s.wrf .HLT_TEMP 0 12 v.toNat 0 i
  let s := markFailed s .HLT_TEMP i 0 (decide (t < -320) || decide (1200 < t))
  let deg := min (t / 8) 127
  if !s.health.seen || decide (sgn 8 (s.rdf .HLT_TEMP_MAX 0 8) < deg) then
    { s with health := { s.health with seen := true } }.wr .HLT_TEMP_MAX (BitVec.ofNat 64 (toBits 8 deg + 256 * i))
  else s

/-- The sensors' readings, in 0.125 °C. -/
def temps (s : State) : List Int := (List.range 32).map fun i => sgn 12 (s.rdf .HLT_TEMP 0 12 0 i)

/-- A threshold reached, and armed again once every sensor is 2 °C below it (R557). -/
def tempAlarm (s : State) (was : Bool) (thr evt : Nat) : State × Bool :=
  if (temps s).any fun t => decide ((8 * thr : Int) ≤ t) then ((if was then s else s.evt .health evt), true)
  else if (temps s).all fun t => decide (t ≤ 8 * ((thr : Int) - 2)) then (s, false)
  else (s, was)

/-- `TEMP_SAMPLE` (R557, R558). -/
def execTempSample (ts : List (BitVec 12)) (s : State) : Host.Outcome State Fault Refusal :=
  done <|
    let s := (ts.take 32).zipIdx.foldl (fun s e => takeTemp s e.2 e.1) s
    let a := tempAlarm s s.health.high (s.rdf .HLT_TEMP_HIGH 0 8) 1
    let b := tempAlarm a.1 s.health.crit (s.rdf .HLT_TEMP_CRIT 0 8) 2
    { b.1 with health := { b.1.health with high := a.2, crit := b.2 } }

/-- The operating range of a voltage monitor's supply, in mV (R556, R617); `VPP_FUSE` has one only while a security command
programs fuses; before the first setpoint `VDD_CORE` has the range of R568. -/
def supplyRange (s : State) (j : Nat) : Option (Nat × Nat) :=
  if j < 4 then
    let v := s.rdf .HLT_AVS_SET 0 10
    if v = 0 then some (750, 850) else some (v, v + 30)
  else if j < 6 then some (760, 840)
  else if j < 8 then some (825, 875)
  else if j = 8 then some (1164, 1236)
  else if j < 17 then some (1140, 1260)
  else if j = 17 then some (2375, 2750)
  else if j = 18 then some (1710, 1890)
  else if j < 23 then if s.rdf .GPIO_BANK 0 1 0 (j - 19) = 1 then some (3135, 3465) else some (1710, 1890)
  else if s.sec.cmd.isSome then some (1710, 1890) else none

/-- A bank's supply lies within the range of its `VSEL`, as its monitor last read (R603). -/
def bankSupplyOk (s : State) (b : Nat) : Bool := s.rdf .HLT_VMON 12 2 0 (19 + b) == 0

/-- A voltage reading (R558): the bits show the last reading, and a supply that leaves its range sets the event; a GPIO bank's
supply records BANK_SUPPLY (R603). -/
def takeVolt (s : State) (j : Nat) (v : BitVec 12) : State :=
  let mv := v.toNat
  let r := (supplyRange s j).getD (0, 4095)
  let low := decide (mv < r.1)
  let high := decide (r.2 < mv)
  let old := s.rd .HLT_VMON 0 j
  let left := (low && !bit old 12) || (high && !bit old 13)
  let s := s.wrf .HLT_VMON 0 14 (mv + 4096 * low.toNat + 8192 * high.toNat) 0 j
  let s := markFailed s .HLT_VMON j 1 (decide (mv < 200) || decide (4000 < mv))
  let s := if left then s.evt .health 3 else s
  if left && 19 ≤ j && j < 23 then s.fault .gpio 0x0100 (j - 19) else s

/-- `VMON_SAMPLE` (R558, R603). -/
def execVmonSample (vs : List (BitVec 12)) (s : State) : Host.Outcome State Fault Refusal :=
  done ((vs.take 24).zipIdx.foldl (fun s e => takeVolt s e.2 e.1) s)

/-! The margin ledger (R559 to R568). -/

/-- A quotient rounded to the nearest integer, halves up. -/
def roundDiv (a b : Int) : Int := (2 * a + b) / (2 * b)

/-- A sentinel's baseline: the shorter of its two copies (R559). -/
def baselineOf (i : Nat) : Nat := min (Config.baseline i false) (Config.baseline i true)

/-- The reading of the nearest temperature sensor that has not failed, in 0.125 °C (R558, R560); where all have, the value is
free (DESIGN CHOICE, log 32). -/
def nearTempOf (s : State) (i : Nat) : Int :=
  match (List.range 32).find? fun r => !bit (s.rd .HLT_TEMP 0 (Config.nearTemp i r)) 15 with
  | some r => sgn 12 (s.rdf .HLT_TEMP 0 12 0 (Config.nearTemp i r))
  | none => Config.lostTemp i
/-- The reading of the nearest `VDD_CORE` monitor that has not failed, in mV; where all have, the value is free. -/
def nearVoltOf (s : State) (i : Nat) : Int :=
  match (List.range 4).find? fun r => !bit (s.rd .HLT_VMON 0 (Config.nearVolt i r)) 15 with
  | some r => (s.rdf .HLT_VMON 0 12 0 (Config.nearVolt i r) : Nat)
  | none => Config.lostVolt i

/-- The wear that a period shows, in 0.01 % (R560): normalised to 60 °C and 0.75 V, rounded to the nearest step (log 32). -/
def wearOf (s : State) (i p : Nat) : Int :=
  let a : Int := 8000000 + (Config.kT : Int) * (nearTempOf s i - 480)
  let b : Int := 10000000 + (Config.kV : Int) * (750 - nearVoltOf s i)
  let d := (baselineOf i : Int) * a * b
  if d = 0 then Config.wear i p else roundDiv ((p : Int) * 80000000000000 * 10000) d - 10000

/-- A 16-bit signed field, clamped. -/
def clamp16 (x : Int) : Nat := toBits 16 (max (-32768) (min 32767 x))

/-- The domain in which sentinel `i` lies has power (R559); the rings of the Corridor and of the SRAM always do. -/
def sentinelOn (s : State) (i : Nat) : Bool :=
  if i < 48 then s.up (tileB i) else if i < 64 then s.up (.core ⟨2 * (i - 48) % 32, Nat.mod_lt _ (by decide)⟩)
  else if i < 80 then true else s.up .heath

/-- A sentinel measured (R560, R575); a baseline whose copies differ is recorded (R559). One that has power and gives no period
has failed (R578; DESIGN CHOICE, log 32). -/
def measure (s : State) (i : Nat) (p : Option (BitVec 16)) : State :=
  match p with
  | none => if sentinelOn s i then healthFault s 0x0102 (i + 256 * 2) else s
  | some p =>
    let s := if Config.baseline i false = Config.baseline i true then s else healthFault s 0x0103 i
    s.wr .HLT_SENT (BitVec.ofNat 64 (clamp16 (wearOf s i p.toNat) + 65536 * p.toNat)) 0 i

/-- The wear of a sentinel as last measured, in 0.01 %. -/
def wear (s : State) (i : Nat) : Int := sgn 16 (s.rdf .HLT_SENT 0 16 0 i)

/-- `pred` of a sentinel at a setpoint (R560), in units of 10⁻¹⁷ × 0.1 ps. -/
def predOf (s : State) (vs : Int) (i : Nat) : Int :=
  (baselineOf i : Int) * (10000 + wear s i) * (1000000 + 45 * (Config.kT : Int)) * (10000000 + (Config.kV : Int) * (750 - vs))

/-- The worst `pred` of a range of sentinels. -/
def worstPred (s : State) (vs : Int) (a b : Nat) : Int :=
  ((List.range (b - a)).map fun i => predOf s vs (a + i)).foldl max 0

/-- A margin of `room` over `limit` written in steps of 0.01 %, with MARGIN_LOW where it is below 0 (R561); where the limit is 0
the spec states no value, and it is a free one (log 33). -/
def putMargin (s : State) (d : Nat) (room limit : Int) : State :=
  let free := limit = 0
  let m := if free then sgn 16 s.draw.2.toNat else roundDiv (room * 10000) limit
  let s := (if free then s.draw.1 else s).wr .HLT_MARGIN (BitVec.ofNat 64 (clamp16 m)) 0 d
  if (if free then m else room) < 0 then s.evt .health 4 else s

/-- The `HLT_AVS_TARGET` in the units of `predOf`. -/
def targetOfCore (s : State) : Int := (s.rdf .HLT_AVS_TARGET 0 12 : Nat) * 10 * 100000000000000000

/-- The CORE re-plan (R562); where no setpoint that `HLT_AVS_REQ` can show meets the target, its value is free (log 33). -/
def planCore (s : State) : State :=
  let req := ((List.range 280).map fun k => 650 + 5 * k).find? fun (vs : Nat) =>
    decide (worstPred s vs 0 72 ≤ targetOfCore s)
  let s := if req.isNone then s.draw.1 else s
  let req := req.getD (s.draw.2.toNat % 2048)
  let most := s.rdf .HLT_AVS_MAX 0 10
  let new := min req most
  let old := s.rdf .HLT_AVS_SET 0 10
  let set := if s.health.mayFall then new else max old new
  let s := { (s.wr .HLT_AVS_REQ (BitVec.ofNat 64 req)).wr .HLT_AVS_SET (BitVec.ofNat 64 set) with
    health := { s.health with mayFall := false } }
  let s := putMargin s 0 (targetOfCore s - worstPred s set 0 72) (targetOfCore s)
  if most < req then s.evt .health 4 else s

/-- The SRAM margin (R561). -/
def planSram (s : State) : State :=
  let lim : Int := (Config.sramLimit : Int) * 100000000000000000
  putMargin s 1 (lim - worstPred s 800 72 80) lim

/-- Enabled lanes with an eye estimate. -/
def ledgerLanes (s : State) : List Nat :=
  ((List.finRange 24).filter fun l => s.live (.lane l) && (s.lane l).adaptDone).map (·.val)

/-- The smaller of two margins, each a room over a limit. -/
def lessMargin (a b : Int × Int) : Int × Int := if b.1 * a.2 < a.1 * b.2 then b else a

/-- The LANES plan (R561, R564). -/
def planLanes (s : State) : State :=
  let low := (ledgerLanes s).filter fun l =>
    bit (s.rd .HLT_CTRL) 2 && s.rdf .LANE_ADAPT 0 2 l == 0 && decide ((s.lane l).eye.toNat < s.rdf .LANE_MARGIN_THR 0 8 l)
  let ms : List (Int × Int) := (ledgerLanes s).filterMap fun l =>
    let thr : Int := (s.rdf .LANE_MARGIN_THR 0 8 l : Nat)
    if thr = 0 then none else some ((s.lane l).eye.toNat - thr, thr)
  let m := ms.foldl lessMargin (ms.headD (0, 0))
  putMargin { s with health := { s.health with
    readapt := low.foldl (fun b l => b ||| (1#24 <<< l)) 0 } } 2 m.1 m.2

/-- The MEMORY plan of one channel (R565). -/
def planChannel (s : State) (c : Fin 8) : State :=
  let v := s.mc c
  let t := s.rdf .MC_TRACK_INT 0 16 c
  if 2 < v.moved then (s.setMc c { v with moved := 0, calm := 0 }).wrf .MC_TRACK_INT 0 16 (max 125 (t / 2)) c
  else if 0 < v.moved then s.setMc c { v with moved := 0, calm := 0 }
  else if v.calm < 15 then s.setMc c { v with calm := v.calm + 1 }
  else (s.setMc c { v with calm := 0 }).wrf .MC_TRACK_INT 0 16 (min 8000 (2 * t)) c

/-- The MEMORY plan (R561, R565): delays move in steps of 1/64 UI. -/
def planMemory (s : State) : State :=
  let most := (List.range 8).foldl (fun m c => max m (s.mc c).moved) 0
  putMargin ((List.finRange 8).foldl planChannel s) 3 (8 - most) 8

/-- The HEATH plan (R561, R566). -/
def planHeath (s : State) : State :=
  let w := ((List.range 16).map fun i => wear s (80 + i)).foldl max 0
  let derate : Nat := min 255 ((w + 9) / 10).toNat
  let lim := s.rdf .HLT_HEATH_DLIM 0 8
  let s := if s.up .heath then s.wr .HTH_DERATE (BitVec.ofNat 64 derate) else s
  let s := if lim < derate then s.evt .health 4 else s
  putMargin s 4 ((lim : Int) - derate) lim

/-- The plans of the ledger, to see whether a pass changes one (R561). -/
def plans (s : State) : List DWord :=
  [s.rd .HLT_AVS_REQ, s.rd .HLT_AVS_SET, s.rd .HTH_DERATE, s.health.readapt.setWidth 64] ++
  (List.range 8).map fun c => s.rd .MC_TRACK_INT c

/-- The worst sentinel (R575). -/
def planWear (s : State) : State :=
  let i := (List.range 96).foldl (fun b i => if wear s b < wear s i then i else b) 0
  s.wr .HLT_WEAR_MAX (BitVec.ofNat 64 (clamp16 (wear s i) + 65536 * i))

/-- `LEDGER_PASS` (R561, R567, R568). -/
def execLedgerPass (ps : List (Option (BitVec 16))) (s : State) : Host.Outcome State Fault Refusal :=
  done <|
    if bit (s.rd .HLT_CTRL) 0 ∧ s.hold = false ∧ bootState s = 5 then
      let t := (ps.take 96).zipIdx.foldl (fun s e => measure s e.2 e.1) s
      let t := planHeath (planMemory (planLanes (planSram (planCore (planWear t)))))
      let t := t.countf .HLT_LEDGER_STATUS 0 16
      if plans t = plans s ∧ t.health.readapt = 0 then t else t.evt .health 7
    else s

/-! The regulator (R563, R567). -/

/-- A PMBus transaction failed for good. -/
def avsFail (s : State) (cmd : BitVec 8) : State :=
  (((s.wrf .HLT_AVS_STATUS 0 2 0)).fault .health 0x0100 cmd.toNat).evt .health 5

/-- `AVS_STEP`: 5 mV toward `HLT_AVS_SET`. -/
def execAvsStep (start : Nat) (fail : Option (BitVec 8)) (s : State) : Host.Outcome State Fault Refusal :=
  done <|
    let set := s.rdf .HLT_AVS_SET 0 10
    let cur := s.health.vout.getD (start / 5 * 5)
    if bit (s.rd .HLT_CTRL) 1 = false ∨ s.hold = true ∨ set = 0 ∨ s.health.vout = some set then s
    else match fail with
      | some c => avsFail s c
      | none =>
        let next := if cur < set then min set (cur + 5) else max set (cur - 5)
        { s with health := { s.health with vout := some next } }.wrf .HLT_AVS_STATUS 0 2 1

/-- `AVS_CONFIRM`. -/
def execAvsConfirm (reading : Nat) (fail : Option (BitVec 8)) (s : State) : Host.Outcome State Fault Refusal :=
  done <|
    let set := s.rdf .HLT_AVS_SET 0 10
    if bit (s.rd .HLT_CTRL) 1 = false ∨ s.hold = true ∨ set = 0 ∨ s.health.vout ≠ some set ∨
      bit (s.rd .HLT_AVS_STATUS) 0 = false then s
    else match fail with
      | some c => avsFail s c
      | none =>
        let s := s.wrf .HLT_AVS_STATUS 16 10 (min reading 1023)
        if set + 15 < reading ∨ reading + 15 < set then
          ((s.wrf .HLT_AVS_STATUS 0 2 0).fault .health 0x0101 (min reading 1023)).evt .health 5
        else s.wrf .HLT_AVS_STATUS 0 2 2

/-! Tile rotation and logic BIST (R569 to R572). -/

/-- The physical tile of a logical tile (R569). -/
def physOf (s : State) (t : Nat) : Nat := s.rdf .HLT_TILE_PHYS (8 * (t % 4)) 6 0 (t / 4)
/-- A logical tile named to a physical one. -/
def setPhys (s : State) (t p : Nat) : State := s.wrf .HLT_TILE_PHYS (8 * (t % 4)) 6 p 0 (t / 4)
/-- A logical tile is named as a spare. -/
def isSpare (s : State) (t : Nat) : Bool := 8 ≤ t && t < 40 && bit (s.rd .HLT_ROT_SPARE) (t - 8)
/-- A spare can host: disabled, nothing in flight, its hall empty, its physical tile not bad (R570). -/
def spareReady (s : State) (t : Nat) : Bool :=
  isSpare s t && !(s.en (tileB t)) && inflight s t == 0 && (s.tile t).ways.isEmpty &&
  !bit (s.rd .HLT_TILE_BAD) (physOf s t) && s.up (tileB t)

/-- The candidate of the next rotation: a tile that failed a gap test, or the next working tile in cyclic order. -/
def candidate (s : State) : Option Nat :=
  (s.health.urgent ++ (List.range 32).map fun i => 8 + (s.health.last - 8 + 1 + i) % 32).find? fun t => !isSpare s t

/-- `ROTATION_START` (R570 step 1). -/
def execRotationStart (s : State) : Host.Outcome State Fault Refusal :=
  done <|
    if bit (s.rd .HLT_ROT_CTRL) 0 = false ∨ s.rdf .HLT_ROT_STATUS 0 3 ≠ 0 ∨
        epochNow s < s.health.rotEpoch + s.rdf .HLT_ROT_CTRL 8 16 then s else
    match candidate s, ((List.range 32).map (8 + ·)).find? (spareReady s) with
    | some x, some p =>
      if s.up (tileB x) && !recovering s (tileDomain s x) &&
        (s.rdf .TILE_LDR_STATUS 0 3 == 0 || 5 ≤ s.rdf .TILE_LDR_STATUS 0 3) then
        { s with health := { s.health with
            rot := some (x, p), rotEpoch := epochNow s, last := x,
            urgent := s.health.urgent.filter (· != x) } }.wrf .HLT_ROT_STATUS 0 3 1
      else s
    | _, _ => s

/-- A tile holds no token but in its hall (R570 step 3). -/
def drained (s : State) (t : Nat) : Bool :=
  let v := s.tile t
  v.ports.all (fun p => p.2.buf.isEmpty) && v.ops.isEmpty && v.divs.isEmpty && v.divWait.isEmpty && v.mems.isEmpty

/-- `ROTATION_DRAINED` (R570 steps 3 to 7): the logical numbers change physical tiles; what a logical tile holds follows it. -/
def execRotationDrained (s : State) : Host.Outcome State Fault Refusal :=
  finish <|
    match s.health.rot with
    | some (x, p) =>
      if deliveryStopped s x && drained s x then
        let old := physOf s x
        let s := setPhys (setPhys s x (physOf s p)) p old
        let s := (s.wrf .HLT_ROT_STATUS 0 3 3).wrf .HLT_ROT_STATUS 8 6 old
        resumeTile { s.countf .HLT_ROT_STATUS 16 16 with health := { s.health with rot := none, slices := 0 } } x
      else s
    | none => s

/-- `ROTATE_ABANDONED` (R571). -/
def execRotateAbandoned (s : State) : Host.Outcome State Fault Refusal :=
  finish (abandonRotation s)

/-- `BIST_SLICE` (R572). -/
def execBistSlice (fails : Bool) (s : State) : Host.Outcome State Fault Refusal :=
  done <|
    if s.rdf .HLT_ROT_STATUS 0 3 = 3 then
      let p := s.rdf .HLT_ROT_STATUS 8 6
      let s := if fails then
          ((s.orIn .HLT_TILE_BAD (BitVec.ofNat 64 (2 ^ p))).fault .health 0x0104 p).evt .health 6 else s
      let n := s.health.slices + 1
      let s := { s with health := { s.health with slices := if n = 256 then 0 else n } }
      if n = 256 then s.wrf .HLT_ROT_STATUS 0 3 0 else s
    else s

/-! FU gap tests (R573). -/

/-- An FU has no token at a port head and empty output registers. -/
def fuIdle (s : State) (t f : Nat) : Bool :=
  [0, 1, 2].all (fun p => ((tget {} (s.tile t).ports (3 * f + p)).buf).isEmpty) &&
  [0, 1].all (fun o => (tget [] (s.tile t).sent (2 * f + o)).isEmpty)

/-- A tile becomes the next rotation candidate, where tiles of its number rotate (R569, R573). -/
def rotateFirst (s : State) (t : Nat) : State :=
  if 8 ≤ t ∧ t < 40 ∧ s.health.urgent.contains t = false then
    { s with health := { s.health with urgent := s.health.urgent ++ [t] } }
  else s

/-- `GAP_VECTOR` (R573). -/
def execGapVector (t : Fin 48) (f : Fin 64) (good : Bool) (s : State) : Host.Outcome State Fault Refusal :=
  done <|
    if bit (s.rd .HLT_CTRL) 3 && s.ready (.tile t) && fuIdle s t f then
      let k := 64 * t.val + f.val
      let n := tget 0 s.health.gaps k + 1
      let s := { s with health := { s.health with gaps := tset id 0 s.health.gaps k (if n = 4096 then 0 else n) } }
      if n = 4096 then
        let s := s.count .HLT_GAP_STATUS
        if good then s else ((healthFault (rotateFirst s t) 0x0105 (f.val + 256 * t.val)).evt .health 6)
      else s
    else s

end Sys2Proof.Machine
end

