-- ==== Sys2Proof/Machine/Fabric.lean ====
section
/-! DEFINITION. The programmable logic of the Heath (R113 to R117, R122, R123): cells, carry chains, selector columns, routing
wires and embedded memories, as a configuration's logic frames set them. What a bit of a logic frame means is open (log 116). -/

namespace Sys2Proof.Machine

/-- Clusters of one half of the ring. -/
def halfClusters : Nat := 1920

/-- The live frames. -/
abbrev Frames := Tbl Nat (List Byte)

/-! Embedded memories (R122, R123). -/

/-- Bits of a word. -/
def formWidth : HeathForm → Nat
  | .x4 => 4
  | .x8 => 8
  | .x16 => 16
  | .x32 => 32
  | .x64 | .x64ecc => 64

/-- Words of a memory: 36,864 bits in all. -/
def formDepth (f : HeathForm) : Nat := 36864 / formWidth f

/-- The bits of word `a` of memory `m`: rows lie in address order from bit 0 of word 0, and an address at or above the depth
reads 0. -/
def memWord (b : Fabric) (m : Nat) (f : HeathForm) (a : Nat) : Nat :=
  let o := a * formWidth f
  if a < formDepth f then (tget 0 b.rows (36 * m + o / 1024)).toNat / 2 ^ (o % 1024) % 2 ^ formWidth f else 0

/-- Word `a` of memory `m` written; an address at or above the depth ignores writes. -/
def memPut (b : Fabric) (m : Nat) (f : HeathForm) (a x : Nat) : Fabric :=
  let w := formWidth f
  let o := a * w % 1024
  let k := 36 * m + a * w / 1024
  let r := (tget 0 b.rows k).toNat
  if a < formDepth f then
    { b with rows := tset id 0 b.rows k (BitVec.ofNat 1024 (r - r / 2 ^ o % 2 ^ w * 2 ^ o + x % 2 ^ w * 2 ^ o)) }
  else b

/-- What the optional code makes of a stored word: its data, and whether it is corrected or uncorrectable. -/
def hthEcc (x : Nat) : Nat × Bool × Bool :=
  let good (y : Nat) : Bool := Config.heathCheck (BitVec.ofNat 56 y) == BitVec.ofNat 8 (y / 2 ^ 56)
  if good x then (x % 2 ^ 56, false, false)
  else match ((List.range 64).map fun i => x ^^^ 2 ^ i).find? good with
    | some y => (y % 2 ^ 56, true, false)
    | none => (x % 2 ^ 56, false, true)

/-- A word as the form stores it: with its check bits where it has them. -/
def formStore (f : HeathForm) (x : Nat) : Nat :=
  if f = .x64ecc then x % 2 ^ 56 + 2 ^ 56 * (Config.heathCheck (BitVec.ofNat 56 x)).toNat else x

/-- What a port asks in a cycle: its address, the data it writes or none, and whether it reads. -/
structure MemAsk where
  addr : Nat
  put : Option Nat
  get : Bool
  deriving DecidableEq, Repr

/-- What port `p` of memory `m` reads: the data that it writes itself in this cycle, else the contents before it (R123). -/
def memGet (b old : Fabric) (m p : Nat) (f : HeathForm) (q : MemAsk) : Fabric :=
  if q.get = false then b else
  let stored := match q.put with
    | some x => if q.addr < formDepth f then formStore f x % 2 ^ formWidth f else 0
    | none => memWord old m f q.addr
  let r := if f = .x64ecc ∧ q.addr < formDepth f then hthEcc stored else (stored, false, false)
  { b with outs := tset id 0 b.outs (2 * m + p) (BitVec.ofNat 64 r.1)
           corrected := if r.2.1 then insertBy id m (b.corrected.filter (· != m)) else b.corrected.filter (· != m)
           wrong := if r.2.2 then insertBy id m (b.wrong.filter (· != m)) else b.wrong.filter (· != m) }

/-- One cycle of memory `m`: both ports read, then both write, port 1 last (log 128); `we` is the write enable of R139. -/
def memCycle (b : Fabric) (m : Nat) (f : HeathForm) (we : Bool) (q0 q1 : MemAsk) : Fabric :=
  let on (q : MemAsk) : MemAsk := if we then q else { q with put := none }
  let q0 := on q0
  let q1 := on q1
  let put (b : Fabric) (q : MemAsk) : Fabric := match q.put with
    | some x => memPut b m f q.addr (formStore f x)
    | none => b
  put (put (memGet (memGet b b m 0 f q0) b m 1 f q1) q0) q1

/-! Logic (R114 to R116). -/

/-- What the logic runs on: the live frames, whether flip-flops are released and memory write enables on (R139), and the trees
that run. -/
structure Logic where
  fr : Frames := []
  ffs : Bool := false
  we : Bool := false
  lit : List Nat := []
  deriving DecidableEq, Repr

/-- A flip-flop's stored level. -/
def ffLevel (b : Fabric) (c k : Nat) (f : HeathFf) : Bool := f.init != b.moved.contains (2 * c + k)

/-- Flip-flop `n` of the ring, two to a cell. -/
def ffAt (fr : Frames) (n : Nat) : HeathFf :=
  if n % 2 = 0 then (Config.heathCell fr (n / 2)).ff0 else (Config.heathCell fr (n / 2)).ff1

/-- What moves the flip-flops from their initial values where the frames change under them: no flip-flop's level does (R146). -/
def keepLevels (old fr : Frames) (moved : List Nat) : List Nat :=
  (List.range 122880).filter fun n => (ffAt old n).init != ((ffAt fr n).init != moved.contains n)

/-- The bit of a table that its inputs select, the first input the lowest. -/
def tableBit (t : BitVec 64) (ins : List Bool) : Bool := t.getLsbD (ins.foldr (fun b a => 2 * a + b.toNat) 0)

/-- A select of a cell input or of a column as a source of cluster `k`: 0 for constant 0, then 64 outputs, 48 input wires, and
its own selector column (R115, R116; the order is log 116's). -/
def localNet (k sel : Nat) : HeathNet :=
  if sel = 0 then .zero else if sel ≤ 64 then .cell k (sel - 1) else if sel ≤ 112 then .wire (48 * k + (sel - 65)) else .column k

/-- Cluster `k` is chained to the one before it in its half. -/
def chainLink (cl : Nat → HeathCluster) (k : Nat) : Bool := (cl k).chained && k % halfClusters != 0

/-- The cluster whose carry goes on into cluster `k`: the one before it in its half, where the configuration chains them and
the chain spans at most 32 clusters (R114). Of more than 32 chained in a row each from the 33rd on stands alone (DESIGN CHOICE,
log 128: R114 does not say how they part). -/
def carryFrom (cl : Nat → HeathCluster) (k : Nat) : Option Nat :=
  if chainLink cl k && !((List.range 32).all fun i => chainLink cl (k - i)) then some (k - 1) else none

/-- The level of a net, `fuel` nets deep; a loop that does not settle has an open level (R114 to R116). `hard` gives what hard
blocks present. A wire that takes a tree as data has an open level while the tree runs, and is low where it stands (R118; DESIGN
CHOICE, log 116). -/
def netLevel (g : Logic) (b : Fabric) (hard : Nat → Bool) : Nat → HeathNet → Bool
  | 0, n => Config.heathLoop n
  | fuel + 1, n =>
    let lv := netLevel g b hard fuel
    let table (k i o : Nat) : Bool :=
      let c := Config.heathCell g.fr (16 * k + i)
      let x := (c.sel.take 6).map fun x => lv (localNet k x)
      if c.split then tableBit (if o = 0 then c.table.setWidth 32 |>.setWidth 64 else c.table >>> 32) (x.take 5)
      else o == 0 && tableBit c.table x
    let column (k : Nat) : Bool :=
      let sel := (((Config.heathCluster g.fr k).column.take 5).map fun x => lv (localNet k x)).foldr (fun b a => 2 * a + b.toNat) 0
      table k (sel / 2) (sel % 2)
    match n with
    | .zero => false
    | .cell k o =>
      if o % 4 < 2 then table k (o / 4) (o % 4)
      else
        let c := 16 * k + o / 4
        let f := ffAt g.fr (2 * c + (o % 4 - 2))
        match f.force with
        | some r => if g.ffs && f.async && lv (.wire r) then f.set else ffLevel b c (o % 4 - 2) f
        | none => ffLevel b c (o % 4 - 2) f
    | .column k =>
      match (Config.heathCluster g.fr k).sixth with
      | some x => column (if k % halfClusters + 1 < halfClusters && lv (localNet k x) then k + 1 else k)
      | none => column k
    | .carry k i =>
      let cin := if i = 0 then (match carryFrom (Config.heathCluster g.fr) k with
          | some p => lv (.carry p 15)
          | none => false)
        else lv (.carry k (i - 1))
      Config.heathCarry (table k i 0) (table k i 1) cin
    | .wire w => if Config.heathSelect g.fr w = 0 then false else lv (Config.heathSource w (Config.heathSelect g.fr w))
    | .tree n => g.lit.contains n && Config.heathTree n b.edges
    | .memory m p i => (tget 0 b.outs (2 * m + p)).getLsbD i
    | .memoryError m u => if u then b.wrong.contains m else b.corrected.contains m
    | .hard h => hard h

/-- The level of a net: no path crosses more nets than the ring has cells and wires (log 128). -/
def level (g : Logic) (b : Fabric) (n : HeathNet) : Bool := netLevel g b (Config.heathHard b.edges) 1048576 n

/-- What a flip-flop holds after an edge of its tree. -/
def ffNext (g : Logic) (b : Fabric) (c k : Nat) (f : HeathFf) : Bool :=
  let lv := level g b
  let now := ffLevel b c k f
  let d := if f.direct then lv (localNet (c / 16) ((Config.heathCell g.fr c).sel.getD f.d 0))
    else lv (.cell (c / 16) (4 * (c % 16) + f.d % 2))
  let next := if (match f.enable with
      | some e => lv (.wire e)
      | none => true) then d else now
  match f.force with
  | some r => if lv (.wire r) then f.set else next
  | none => next

/-- The flip-flops that tree `i` clocks, and those that an asynchronous set or reset holds, take their next levels, all from the
levels before the edge. -/
def ffEdge (g : Logic) (b : Fabric) (i : Nat) : List Nat :=
  (List.range 122880).filter fun n =>
    let c := n / 2
    let f := ffAt g.fr n
    let u := Config.heathCluster g.fr (c / 16)
    let held : Bool := match f.force with
      | some r => f.async && level g b (.wire r)
      | none => false
    if held = true ∨ (if f.clock = 0 then u.clock0 else u.clock1) = i then
      f.init != ffNext g b c (n % 2) f else b.moved.contains n

/-- A number from the levels of its wires, the lowest bit first. -/
def wiresNat (g : Logic) (b : Fabric) (l : List Nat) : Nat :=
  l.foldr (fun n a => 2 * a + (level g b (.wire n)).toNat) 0

/-- What a memory port asks at an edge of tree `i`; in the 64-bit forms port 0 only reads and port 1 only writes. -/
def portAsk (g : Logic) (b : Fabric) (f : HeathForm) (p : Nat) (q : HeathPort) (i : Nat) : MemAsk :=
  let two := formWidth f != 64
  { addr := wiresNat g b q.addr
    put := if q.tree = i ∧ level g b (.wire q.write) = true ∧ (two = true ∨ p = 1) then some (wiresNat g b q.data) else none
    get := decide (q.tree = i) && level g b (.wire q.read) && (two || p == 0) }

/-- One edge of tree `i` (R139). -/
def fabricEdge (g : Logic) (b : Fabric) (i : Nat) : Fabric :=
  let moved := if g.ffs then ffEdge g b i else b.moved
  let after := (List.range 240).foldl (fun a m =>
    let c := Config.heathMemory g.fr m
    if c.port0.tree = i ∨ c.port1.tree = i then
      memCycle a m c.form g.we (portAsk g b c.form 0 c.port0 i) (portAsk g b c.form 1 c.port1 i)
    else a) b
  { after with moved := moved, edges := b.edges + 1 }

end Sys2Proof.Machine
end

