-- ==== Sys2Proof/Machine/Heath.lean ====
section
/-! DEFINITION. The Heath (chapter 04): clock trees, configuration loads and release, scrubbing, capture decisions, Heath
capture ports, exit and entry ports. -/

namespace Sys2Proof.Machine

/-! Clock trees (R118 to R120). -/

/-- `SRC` of a tree. -/
def treeSrc (s : State) (i : Nat) : Nat := s.rdf .HTH_CLK_CTRL 0 5 0 i
/-- A tree is enabled on some source. -/
def treeOn (s : State) (i : Nat) : Bool := bit (s.rd .HTH_CLK_CTRL 0 i) 7 && treeSrc s i != 0

/-- A source of R118 may run (R120); the pins' clocks are the environment's. -/
def sourceRuns (s : State) (n : Nat) : Bool :=
  if n = 0 then false
  else if n ≤ 6 then s.pll (n - 1) == .locked && s.powered (.dom (9 + (n - 1)))
  else if n ≤ 14 then mcState s (n - 7) != 0 && s.powered (.dom (15 + (n - 7)))
  else if n = 15 then s.rdf .RLK_STATUS 0 3 != 0 && s.powered (.dom 23)
  else n ≤ 18

/-- A tree's `ALIVE` bit, as it starts or stops to give edges. -/
def setAlive (s : State) (i : Nat) (b : Bool) : State :=
  let put (v : BitVec 8) : BitVec 8 := if b then v ||| (1#8 <<< i) else v &&& ~~~(1#8 <<< i)
  { s with heath := { s.heath with alive := put s.heath.alive, edging := put s.heath.edging } }

/-- Tree `i` gives edges. -/
def treeRuns (s : State) (i : Nat) : Bool :=
  bit s.heath.edging i && !s.heath.switching.contains i && treeOn s i && sourceRuns s (treeSrc s i)

/-- A value `v` written to `HTH_CLK_CTRL[i]` (R118, R119): the tree stops, to restart on what it now selects. -/
def treeWrite (s : State) (i : Nat) (v : DWord) : State :=
  let old := s.rd .HTH_CLK_CTRL 0 i
  let s := s.wr .HTH_CLK_CTRL v 0 i
  let others := s.heath.switching.filter (· != i)
  if treeOn s i = false then setAlive { s with heath := { s.heath with switching := others } } i false
  else if v = old then s
  else { s with heath := { s.heath with switching := others ++ [i], divs := tset id 0 s.heath.divs i 0 } }

/-- `TREE_RESTART` (R119, R120). -/
def execTreeRestart (i : Fin 8) (s : State) : Host.Outcome State Fault Refusal :=
  done (if s.ready .heath = true ∧ treeOn s i = true ∧ sourceRuns s (treeSrc s i) = true then
    setAlive { s with heath := { s.heath with switching := s.heath.switching.filter (· != i.val) } } i true
  else s)

/-- `TREE_STOPPED` (R120): an enabled tree has seen no edge for 1 µs, whether or not it ever had one. -/
def execTreeStopped (i : Fin 8) (s : State) : Host.Outcome State Fault Refusal :=
  done (if s.ready .heath = true ∧ treeOn s i = true ∧ treeSrc s i ≠ 17 ∧
      (sourceRuns s (treeSrc s i) = false ∨ s.heath.switching.contains i.val = true ∨ 16 ≤ treeSrc s i) then
    (setAlive s i false).evt .heath 7
  else s)

/-- `HTH_RUN_STATUS` as it reads (R147). -/
def hthRunStatus (s : State) : DWord := (s.rd .HTH_RUN_STATUS &&& 0x100) ||| s.heath.alive.setWidth 64

/-! Configuration (R135 to R144). -/

/-- `HTH_STATE.STATE`: 0 UNCONFIGURED, 1 LOADING, 2 CHECKING, 3 READY, 4 RELEASING, 5 RUNNING, 6 FAILED. -/
def hthState (s : State) : Nat := s.rdf .HTH_STATE 0 4
/-- A state entered. -/
def hthTo (s : State) (n : Nat) : State := s.wr .HTH_STATE (BitVec.ofNat 64 n)

/-- The design's outputs are enabled (R139, R140): after release stage 1. -/
def heathOut (s : State) : Bool :=
  s.ready .heath && (hthState s == 4 || hthState s == 5) && bit (s.rd .HTH_RELEASE) 0

/-- FAILED (R137). -/
def hthFail (s : State) : State := (hthTo { s with heath := { s.heath with body := [], manifest := [] } } 6).evt .heath 1
/-- FAILED with a fault (R148). -/
def hthFault (s : State) (code detail : Nat) : State := hthFail (s.fault .heath code detail)

/-- A read of a load fails: the check READ of R539 (R148, R554). -/
def hthUnread (s : State) (st : Status) : State := hthFault (verifyFail s 2 0x0A) 0x0107 st.code

/-- READY goes on to RELEASING where it may (R137, R142). -/
def hthReady (s : State) : State :=
  if hthState s = 3 ∧ s.hold = false ∧ (bit (s.rd .HTH_LOAD_CTRL) 0 = true ∨ s.heath.release = true) then
    hthTo { s.wr .HTH_RELEASE 0 with heath := { s.heath with release := false } } 4
  else s

/-- LOADING begins (R137, R139). -/
def hthStart (s : State) (addr len : Nat) (reload : Bool) : State :=
  let s := (s.wr .HTH_LOAD_PROG 0).wr .HTH_RELEASE 0
  hthTo { s with heath := { s.heath with
    release := false, loaded := true, reload := reload, addr := addr, len := len, manifest := [], body := [], total := 0,
    last := 0, frames := [], fab := {} } } 1

/-- A write that finds no power at the Heath's page: a LOAD leaves its refusal there (R138), and the write is answered DOMAIN_OFF
(R57). -/
def hthUnpowered (s : State) (a : Nat) (bs : List Byte) : State :=
  let cmd := regBase + 0xA00048
  if s.domSt 8 ≠ .draining ∧ s.powered (.dom 8) = false ∧ a ≤ cmd ∧ cmd + 4 ≤ a + bs.length ∧ (cmd - a) % 4 = 0 ∧
      (word bs ((cmd - a) / 4)) % 2 = 1 then s.refuse .heath 0x048 (BitVec.ofNat 32 (word bs ((cmd - a) / 4)))
  else s

/-- A write of `v` to `HTH_CMD` (R137, R138): ABORT acts first, then RELEASE, then LOAD (log 23). A LOAD that both its state and
HOLD refuse is refused for its state (DESIGN CHOICE, log 129). -/
def hthCommand (s : State) (v : Word) : State :=
  let refuse (s : State) : State := s.refuse .heath 0x048 v
  let s := if bit v 2 then (if hthState s = 1 then hthFail s else refuse s) else s
  let s := if bit v 1 then
      (if hthState s = 3 then hthReady { s with heath := { s.heath with release := true } } else refuse s)
    else s
  if bit v 0 then
    if hthState s = 1 ∨ hthState s = 2 ∨ hthState s = 4 then refuse s
    else if s.hold then s.fault .heath 0x0104
    else hthStart s (s.rd .HTH_LOAD_ADDR).toNat (s.rd .HTH_LOAD_LEN).toNat false
  else s

/-- `n` bytes from any address as a configuration reader reads them, in whole aligned 16-byte units of one packet. -/
def hthRead (s : State) (a n : Nat) : State × Status × List Byte :=
  let lo := a / 16 * 16
  let hi := (a + n + 15) / 16 * 16
  let mid := min hi ((lo / 256 + 1) * 256)
  let r := memRead s .heath lo (mid - lo)
  if r.2.1 ≠ .ok then r
  else if mid < hi then
    let t := memRead r.1 .heath mid (hi - mid)
    (t.1, t.2.1, ((r.2.2 ++ t.2.2).drop (a - lo)).take n)
  else (r.1, .ok, (r.2.2.drop (a - lo)).take n)

/-- The manifest and header of the body under way, read before its first frame. -/
def hthHeader (s : State) : State × Option Status :=
  let m := readImage .heath 1 s.heath.addr (min s.heath.len 256) s
  if m.2.1 ≠ .ok then (m.1, some m.2.1)
  else
    let h := hthRead m.1 (s.heath.addr + 256) 64
    if h.2.1 ≠ .ok then (h.1, some h.2.1)
    else ({ h.1 with heath := { h.1.heath with
      manifest := m.2.2, body := [h.2.2], total := 24576 + word h.2.2 3 } }, none)

/-- The header of a body is right for an image of `len` bytes (R135); of word 4 the rule gives [7:0] alone, and the rest is not
looked at (DESIGN CHOICE, log 129). -/
def hthHeaderOk (len : Nat) (h : List Byte) : Bool :=
  word h 0 == 0x48544843 && word h 1 == 1 && word h 2 == 24576 && word h 3 ≤ 8640 && word h 4 % 256 == stepping &&
  (cut h 20 64).all (· == 0) && len == 256 + 64 + 136 * (24576 + word h 3)

/-- The CRC of a frame record is right. -/
def frameCrcOk (r : List Byte) : Bool := crc32 (r.take 132) == word r 33

/-- Frame `i` of a load written: a logic frame keeps its record, a memory frame fills its 1,024 bits (R122, R135). -/
def putFrame (h : Heath) (i : Nat) (b : List Byte) : Heath :=
  if i < 24576 then { h with frames := tset id [] h.frames i b }
  else { h with fab := { h.fab with
    rows := tset id 0 h.fab.rows (i - 24576) (BitVec.ofNat 1024 (leNat ((b.drop 4).take 128))) } }

/-- The frame record at position `k` written (R135 to R137). -/
def hthFrame (s : State) (k : Nat) : State :=
  let r := hthRead s (s.heath.addr + 320 + 136 * k) 136
  let s := r.1
  let b := r.2.2
  let i := word b 0
  if r.2.1 ≠ .ok then hthUnread s r.2.1
  else if frameCrcOk b = false then hthFault s 0x0100 k
  else if !(if k < 24576 then i == k else s.heath.last < i && i < 33216) then hthFault s 0x0101 k
  else
    let s := { s with heath := putFrame { s.heath with body := b :: s.heath.body, last := i } i b }
    let s := s.wr .HTH_LOAD_PROG (BitVec.ofNat 64 (k + 1))
    if k + 1 = s.heath.total then hthTo s 2 else s

/-- The scratchpad banks that `n` bytes from address `a` lie in, from the lowest on. -/
def banksOf (a n : Nat) : List Nat :=
  (List.range 64).filter fun b => decide (a < bankBase + (b + 1) * 2 ^ 18) && decide (bankBase + b * 2 ^ 18 < a + n)

/-- A bank that holds a load's image is not ON, and a wake reload waits for it (R144). -/
def reloadWaits (s : State) : Bool :=
  s.heath.reload && (banksOf s.heath.addr s.heath.len).any fun b => s.rdf .SPB_STATUS 0 2 b != 0

/-- `LOAD_FRAME` (R136, R137, R142): one frame; a load pauses while HOLD is active. -/
def execLoadFrame (s : State) : Host.Outcome State Fault Refusal :=
  done (if hthState s ≠ 1 ∨ s.hold = true ∨ s.ready .heath = false ∨ reloadWaits s = true then s
    else
      let h := if s.heath.body = [] then hthHeader s else (s, none)
      match h.2 with
      | some st => hthUnread h.1 st
      | none =>
        let s := h.1
        if s.heath.body.length = 1 ∧ hthHeaderOk s.heath.len (s.heath.body.headD []) = false then hthFault s 0x0101 0xFFFF
        else hthFrame s (s.rd .HTH_LOAD_PROG).toNat)

/-- `LOAD_CHECK_DONE` (R137, R141). -/
def execLoadCheckDone (s : State) : Host.Outcome State Fault Refusal :=
  done (if hthState s ≠ 2 ∨ s.ready .heath = false then s
    else
      let x := acceptImage s 2 s.heath.len s.heath.manifest (s.heath.body.reverse.flatMap id)
      let s := x.1
      if x.2 = 0 then
        hthReady ((hthTo { s with heath := { s.heath with body := [], manifest := [] } } 3).evt .heath 0)
      else if x.2 = 1 then hthFault s 0x0101 0xFFFF
      else if x.2 = 3 then hthFault s 0x0103 0
      else hthFault s 0x0102 0)

/-- `RELEASE_STAGE` (R140, R143): the next stage completes at an edge of tree 0. -/
def execReleaseStage (s : State) : Host.Outcome State Fault Refusal :=
  done (if hthState s ≠ 4 ∨ s.ready .heath = false ∨ treeRuns s 0 = false then s
    else
      let n := if bit (s.rd .HTH_RELEASE) 1 then 2 else if bit (s.rd .HTH_RELEASE) 0 then 1 else 0
      let s := (s.orIn .HTH_RELEASE (BitVec.ofNat 64 (2 ^ n))).evt .heath (4 + n)
      if n < 2 then s
      else
        let s := hthTo s 5
        if s.heath.loaded then
          { (s.wr .HTH_GOLD_ADDR (s.rd .HTH_LOAD_ADDR)).wr .HTH_GOLD_LEN (s.rd .HTH_LOAD_LEN) with
            heath := { s.heath with loaded := false, reload := false } }
        else s)

/-- Reset K of the Heath (R137, R147): every flip-flop takes its initial value. While HOLD is active the release that follows
waits in READY for its end (R142; log 129). -/
def heathResetK (s : State) : State :=
  let s := clearRegs s .K (fun b => b == .heath)
  let s := { s with heath := { s.heath with alive := 0 } }
  match hthState s with
  | 1 | 2 => hthFail s
  | 4 | 5 =>
    let s := { s with heath := { s.heath with fab := { s.heath.fab with moved := [] } } }
    if s.hold then hthTo { s with heath := { s.heath with release := true } } 3 else hthTo s 4
  | _ => s

/-- The Heath is UNCONFIGURED and holds nothing (R137, R581). -/
def heathClear (s : State) : State := { hthTo s 0 with heath := {}, hthOut := [] }

/-- The wake reload (R144); `off` says that a bank was OFF in Standby. -/
def heathWake (s : State) (off : Nat → Bool) : State :=
  let a := (s.rd .HTH_GOLD_ADDR).toNat
  let n := (s.rd .HTH_GOLD_LEN).toNat
  if bit (s.rd .HTH_LOAD_CTRL) 1 = false ∨ n = 0 then s
  else
    match (banksOf a n).find? off with
    | some b => ((s.wr .HTH_GOLD_LEN 0).fault .heath 0x0106 b).evt .heath 1
    | none => hthStart s a n true

/-! Scrubbing (R145, R146). -/

/-- The frame that the scrubber checks next. -/
def scrubAt (s : State) : Nat := s.rdf .HTH_SCRUB_STATUS 0 16

/-- `HTH_SCRUB_LAST` for a frame with its flag bits. -/
def scrubLast (s : State) (k flags : Nat) : State := s.wr .HTH_SCRUB_LAST (BitVec.ofNat 64 (k + flags + 2 ^ 31))

/-- A live frame's record replaced while the design runs: no flip-flop changes (R146). -/
def reframe (h : Heath) (k : Nat) (b : List Byte) : Heath :=
  if tget [] h.frames k = b then h
  else
    let fr := tset id [] h.frames k b
    { h with frames := fr, fab := { h.fab with moved := keepLevels h.frames fr h.fab.moved } }

/-- One frame checked (R145). -/
def scrubFrame (s : State) (k : Nat) : State :=
  let g := hthRead s ((s.rd .HTH_GOLD_ADDR).toNat + 320 + 136 * k) 136
  let s := g.1
  let live := tget [] s.heath.frames k
  let goldOk := g.2.1 == .ok && frameCrcOk g.2.2
  match frameCrcOk live, goldOk with
  | true, true =>
    if live.take 132 = g.2.2.take 132 then s
    else (scrubLast (s.count .HTH_SCRUB_DIFF) k 0).evt .heath 3
  | false, true =>
    ({ s with heath := reframe s.heath k g.2.2 }.count .HTH_SCRUB_FIXED).evt .heath 2
  | true, false => (scrubLast s k (2 ^ 29)).evt .heath 3
  | false, false => ((scrubLast s k (2 ^ 30)).fault .heath 0x0105 k).evt .heath 3

/-- A live frame record whose data bits may have changed since its last check. -/
def upsetFrame (r : List Byte) (upset : Option (BitVec 1024)) : List Byte :=
  match upset with
  | some d => r.take 4 ++ leBytes 128 d.toNat ++ r.drop 132
  | none => r

/-- `SCRUB_FRAME_CHECK` (R145, R146): the frame is the one that `HTH_SCRUB_STATUS` shows, after a new load too (DESIGN CHOICE,
log 129); `upset` is its data where they have changed since its last check. -/
def execScrubFrameCheck (upset : Option (BitVec 1024)) (s : State) : Host.Outcome State Fault Refusal :=
  done (if hthState s ≠ 5 ∨ bit (s.rd .HTH_LOAD_CTRL) 2 = false ∨ s.hold = true ∨ s.ready .heath = false then s
    else
      let k := scrubAt s
      let s := { s with heath := reframe s.heath k (upsetFrame (tget [] s.heath.frames k) upset) }
      let s := scrubFrame s k
      if k + 1 < 24576 then s.wrf .HTH_SCRUB_STATUS 0 16 (k + 1)
      else (s.wrf .HTH_SCRUB_STATUS 0 16 0).countf .HTH_SCRUB_STATUS 16 16)

/-! Capture decisions (R125 to R128, R180, R189). -/

/-- The words of a group's members joined (R180): one after the other, or striped byte by byte. -/
def mergeWords (ws : List (List Byte)) (striped : Bool) : List Byte :=
  if striped then (List.range (64 * ws.length)).map fun k => (ws.getD (k % ws.length) []).getD (k / ws.length) 0
  else ws.flatMap id

/-- The decision for a held word among those present, with how many are discarded before it (R126). -/
def pickDecision (seq : BitVec 8) : List Decision → Nat × Option Decision
  | [] => (0, none)
  | d :: r => if d.seq = seq then (0, some d) else let x := pickDecision seq r; (x.1 + 1, x.2)

/-- The bytes of a member's word. -/
def wordBytes (w : HeldWord) : List Byte := leBytes 64 w.data.toNat

/-- A decision applied at port `p` to the words of `ls`, each at the head of its lane (R126, R189). -/
def applyDecision (s : State) (p : Nat) (ls : List (Fin 24)) (w : HeldWord) (d : Decision) : State :=
  let n := ls.length
  let ws := ls.map fun (l : Fin 24) => match (s.lane l).held with
    | x :: _ => wordBytes x
    | [] => []
  let kind := if p < 24 then 1 else 7
  let idx := if p < 24 then p else p - 24
  let form (slot : Nat) : List Byte :=
    if d.keep then mergeWords ws (match queueOfProd s kind idx (some slot) with
      | some q => s.rdf .GQ_BIND 14 2 q == 1
      | none => false) else []
  let old := match (s.port p).cur with
    | some r => form r.slot
    | none => []
  let rec_ : Rec := { stamp := byteStamp s (ls.headD 0) w.stamp d.sorOfs, typ := d.typ, slot := d.qsel, user := d.user
                      sbA := w.sbA, sbB := w.sbB, excursion := s.hold }
  assemble s p old (form d.qsel) (if d.sor then some (d.sorOfs * n, rec_) else none)
    (if d.eor then some ((d.eorOfs + 1) * n - 1) else none)

/-- The words at the heads of lanes leave the capture port's delay. -/
def popHeld (s : State) (ls : List (Fin 24)) : State :=
  ls.foldl (fun s (l : Fin 24) => s.setLane l { s.lane l with held := (s.lane l).held.drop 1 }) s

/-- The tree that serves the lane's copy, decision and transmit ports runs (R124). -/
def laneClk (s : State) (l : Nat) : Bool := treeRuns s (s.rdf .HTH_LANE_CLK 0 3 0 l)

/-- A word decided at port `p` by lane `l`'s decision port, which a tree that stands still brings no decision (R126, R128,
R139). -/
def decide_ (s : State) (p : Nat) (l : Fin 24) (ls : List (Fin 24)) (ds : List Decision) : State :=
  match (s.lane l).held with
  | [] => s
  | w :: _ =>
    let s' := if heathOut s then
        (let x := pickDecision (BitVec.ofNat 8 (fld w.sbA 24 8)) (if laneClk s l then ds else [])
        match x.2 with
        | some d => applyDecision (s.count .HTH_DEC_ERR_CNT x.1 0 l) p ls w d
        | none => ((s.count .HTH_DEC_ERR_CNT (x.1 + 1) 0 l).orIn .HTH_RUN_STATUS 0x100).evt .heath 7)
      else s
    popHeld s' ls

/-- `CAPTURE_DECISION` (R126, R180): the anchor decides a group word; a member of a group bound through its group port has
no decision of its own. -/
def execCaptureDecision (l : Fin 24) (ds : List Decision) (s : State) : Host.Outcome State Fault Refusal :=
  done (match groupPort s l with
    | none => decide_ s l l [l] ds
    | some g =>
      let ls := members s g
      if (s.group g).state ≠ .aligned then popHeld s [l]
      else if l = anchor s g ∧ (ls.all fun m => (s.lane m).held != []) = true then decide_ s (24 + g) l ls ds
      else s)

/-- `HEATH_CAPTURE_UNIT` (R129): a cycle of the tree that `HTH_HCAP_CLK[p]` names. -/
def execHeathCaptureUnit (p : Fin 8) (u : HeathUnit) (s : State) : Host.Outcome State Fault Refusal :=
  done (if heathOut s && treeRuns s (s.rdf .HTH_HCAP_CLK 0 3 0 p) then
    let bs := (leBytes 32 u.data.toNat).take (if u.eor then u.count + 1 else 32)
    let r : Rec := { stamp := s.rd .PWR_TB, typ := u.typ, slot := u.qsel, user := u.user, excursion := s.hold }
    assemble s (32 + p) bs bs (if u.sor then some (0, r) else none) (if u.eor then some u.count.val else none)
  else s)

/-! Exit and entry ports (R130 to R132, R271). -/

/-- A token as the array carries it. -/
def heathToken (k : HeathToken) : Token :=
  { data := k.data, tag := k.tag, ctx := k.ctx, last := k.last, err := k.err, poison := k.poison }

/-- `READY` of Heath exit port `n` (R130, R269): 0 while its FIFO is full, while the array entry port is bound to a queue,
and while that port holds the oldest token. DEDUCED, log 118. -/
def exitReady (s : State) (n : Nat) : Bool :=
  let f := tget [] s.hthOut n
  f.length < 8 && !bit (epCfg s n) 1 &&
  (match f with
  | [] => true
  | k :: _ => !portStands s n && admits s n k)

/-- A token passes Heath exit port `n` on the tree in [2:0] of `HTH_PORT_CLK[n]`, and entry port `n` on the one in [6:4]. -/
def portClk (s : State) (n lo : Nat) : Bool := treeRuns s (s.rdf .HTH_PORT_CLK lo 3 0 n)

/-- `HEATH_EXIT_TOKEN` (R130, R131). -/
def execHeathExitToken (n : Fin 64) (k : HeathToken) (s : State) : Host.Outcome State Fault Refusal :=
  done (if heathOut s = true ∧ portClk s n 0 = true ∧ k.idle = false ∧ exitReady s n = true then
    { s with hthOut := tset id [] s.hthOut n.val (tget [] s.hthOut n.val ++ [(heathToken k)]) } else s)

/-- The next token of exit port `n` enters its Heath entry port: a discontinuity token, or the oldest released one. -/
def entryDelivery (s : State) (n : Nat) : State :=
  match tget [] s.discOut n with
  | (_, _, 0) :: r => { s with discOut := tset id [] s.discOut n r }
  | l =>
    match exitStore s n with
    | (_, none) :: r =>
      let l := match l with
        | (a, b, c + 1) :: r => (a, b, c) :: r
        | l => l
      exitRetry { setExitStore s n r with discOut := tset id [] s.discOut n l } n
    | _ => s

/-- `HEATH_ENTRY_DELIVERY` (R132, R271, R484): the design's `READY` is the sender's to give. -/
def execHeathEntryDelivery (n : Fin 64) (s : State) : Host.Outcome State Fault Refusal :=
  finish (if heathOut s = true ∧ portClk s n 4 = true ∧ s.up (tileB (portTile n)) = true ∧
    bit (s.rd .TILE_XP_CFG (portTile n) (n % 4)) 1 = false then
    entryDelivery s n else s)

end Sys2Proof.Machine
end

