-- ==== Sys2Proof/Machine/Boundary.lean ====
section
/-! DEFINITION. What an epoch boundary does (R463 to R465), and the lane rows that follow it: transmit slots and the loss of
group alignment. -/

namespace Sys2Proof.Machine

/-! Lanes. -/

/-- `BOND_ALIGN_LOSS` (R96, R637): the group port discards its open record. -/
def execBondAlignLoss (g : Fin 4) (s : State) : Host.Outcome State Fault Refusal :=
  done (if (s.group g).state = .aligned then groupTo (discardOpen s (24 + g)) g .search else s)

/-- The marker on which a mode deskews; RAW has none (R95). -/
def markerOf (mode : Nat) : Option Marker :=
  match mode with
  | 2 => some .com
  | 4 => some .skp
  | 3 | 5 | 6 => some .alignment
  | _ => none

/-- The greatest difference among numbers. -/
def spread (l : List Nat) : Nat := l.foldl max 0 - l.foldl min (l.headD 0)

/-- Every member has its marker, within 64 UI of each other; a RAW group aligns on the stamps of its words, within one lane
word (R95, R96). -/
def markersMet (s : State) (g : Nat) (ms : List MarkerSeen) : Bool :=
  let mode := rxMode s (anchor s g)
  match markerOf mode with
  | some m =>
    (members s g).all (fun l => ms.any fun x => x.lane == l && x.marker == m) &&
    decide (spread ((ms.filter fun x => (members s g).contains x.lane && x.marker == m).map (·.at_)) ≤ 64)
  | none =>
    decide (spread ((members s g).map fun (l : Fin 24) => (s.lane l).last.toNat) ≤ (bitStamp s (anchor s g) 0 512).toNat)

/-- `BOND_ALIGNED` (R94 to R96): the markers also say which FEC or PCS lane each place carries, and
where the group's codewords begin. -/
def execBondAligned (m : BondSeen) (s : State) : Host.Outcome State Fault Refusal :=
  done (if (s.group m.group).state = .search ∧ ((members s m.group).all fun l => lockOf s l && s.up (.lane l)) = true ∧
      markersMet s m.group m.markers = true then
    let s := dropHeld (groupTo s m.group .aligned) m.group
    let s := if rxDist s m.group = 0 then s else (members s m.group).foldl (fun s (l : Fin 24) =>
      s.setLane l { s.lane l with rx := { (s.lane l).rx with parts := [] } }) s
    s.setGroup m.group { s.group m.group with out := [], turn := 0, order := m.order }
  else s)

/-- `LANE_LOCK_CHANGE` (R78, R96, R99, R637): a change of CDR lock or of symbol or block lock sets bit 0 (log 10); a member
without `LOCK` takes its group out of ALIGNED. -/
def execLaneLockChange (l : Fin 24) (cdr lock eidle : Bool) (ppm : BitVec 16) (s : State) :
    Host.Outcome State Fault Refusal :=
  done (if laneRuns s l then
    let v := s.lane l
    let c := cdr && ppmLocks ppm
    let k := lock && c
    let rx := if k && v.lock then v.rx else if k then { v.rx with parts := [] } else v.rx.restart
    let s := s.setLane l { v with cdr := c, lock := k, eidle := eidle, ppm := ppm, rx := rx }
    let s := if v.cdr = c ∧ v.lock = k then s else s.evt (.lane l) 0
    let g := groupOf s l
    if bonded s l && (s.group g).state == .aligned && !lockOf s l then groupTo (discardOpen s (24 + g)) g .search else s
  else s)

/-- A word slot for which a source has a word or, in a mode that sends its idle then, has none (R87). -/
def txTaken (s : State) (l : Fin 24) (w : Option TxWord) : State :=
  match w with
  | some w => txPop (txPush s l w) l
  | none => (txPop (txPush s l (idleWord (txMode s l))) l).count .LANE_TX_UNDERRUN 1 l

/-- What a transmit slot sends (R86, R87, R90, R106, R197, R210, R211). A far-end loop sends what the receiver has received;
while it has nothing, the slot is empty, or in the PCS loop the mode's idle (log 127). A Heath transmit port whose outputs are
held at 0 has no word ready (DESIGN CHOICE, log 151). -/
def txSlot (s : State) (l : Fin 24) (heath : Option TxWord) : State :=
  let v := s.lane l
  if laneRuns s l = false then s.setLane l { v with tx := .none }
  else
    match s.rdf .LOOP_CTRL 0 3 (pageOf (.lane l)) with
    | 3 =>
      match v.echo with
      | [] => s.setLane l { v with tx := .none }
      | x :: r => sendBits (s.setLane l { v with echo := r }) l x.n (fromLine s l x.n x.x)
    | 4 =>
      match v.echoWords with
      | [] => txPop (txPush s l (idleWord (txMode s l))) l
      | w :: r => txPop (txPush (s.setLane l { v with echoWords := r }) l w) l
    | _ =>
      match s.rdf .LANE_TX_CTRL 0 3 l with
      | 0 => s.setLane l { v with tx := .squelch }
      | 1 => sendPrbs s l
      | n =>
        if txMode s l = 0 then s.setLane l { v with tx := .none }
        else if n = 2 then txTaken s l (if heathOut s && laneClk s l then heath else none)
        else
          match queueOfCons s 3 l with
          | some q => let r := takePattern s q; txTaken r.1 l r.2
          | none => txTaken s l none

/-- `TX_WORD_SLOT` (R87). -/
def execTxWordSlot (l : Fin 24) (heath : Option TxWord) (s : State) : Host.Outcome State Fault Refusal :=
  finish (txSlot s l heath)

/-! Boundaries. -/

/-- Pattern queues with SYNC_START and a visible entry begin playback (R211). -/
def syncStarts (s : State) : State :=
  (enabledQueues s).foldl (fun s q =>
    if gqKind s q = 3 ∧ bit (s.rd .GQ_CTRL q) 10 = true ∧ gqRead s q ≠ gqWrite s q then
      s.setQueue q { s.queue q with started := true }
    else s) s

/-- The ledger writes `MODE` once to a frozen lane with a low eye (R53, R564). -/
def readaptLanes (s : State) : State :=
  let s := (List.finRange 24).foldl (fun s (l : Fin 24) =>
    if s.health.readapt.getLsbD l && s.up (.lane l) && s.rdf .LANE_ADAPT 0 2 l == 0 then
      adaptMode (s.wrf .LANE_ADAPT 0 2 1 l) l
    else s) s
  { s with health := { s.health with readapt := 0 } }

/-- A boundary (R463): the epoch machinery, and what other blocks do with it. In Standby only the count and `EPOCH_OUT`
go on (R462, R585). -/
def boundary (s : State) (realign : Bool) (upsets : List DetourUpset) : State :=
  let s := { s with gpio := { s.gpio with epochOut := true } }
  if s.asleep then
    let n := epochNow s + 1
    { s.wr .EPO_NUMBER (s.rd .EPO_NUMBER + 1) with
      bounds := ⟨n, s.rd .PWR_TB, realign⟩ :: s.bounds
      epo := { s.epo with placed := none, period := s.rdf .EPO_PERIOD 0 24 } }
  else
    let s := boundaryCore s realign
    let s := (List.finRange 24).foldl (fun s (l : Fin 24) =>
      if s.up (.lane l) then laneEpoch (fecSnapshot s l) l else s) s
    let s := readaptLanes (syncStarts s)
    (List.range 64).foldl detourCompare (upsets.foldl detourUpset s)

/-- `EPOCH_BOUNDARY` (R463): a realign where an edge placed it so (R465, R466). -/
def execEpochBoundary (upsets : List DetourUpset) (s : State) : Host.Outcome State Fault Refusal :=
  finish (if s.power.inReset then s else boundary s (s.epo.placed == some true) upsets)

/-- `EPOCH_OUT_END` (R601). -/
def execEpochOutEnd (s : State) : Host.Outcome State Fault Refusal :=
  done { s with gpio := { s.gpio with epochOut := false } }

/-- `SYNC_WINDOW_CLOSE` (R464, R465): a slip, and the boundary at the expected time. -/
def execSyncWindowClose (upsets : List DetourUpset) (s : State) : Host.Outcome State Fault Refusal :=
  finish (if s.rdf .EPO_STATUS 12 2 = 1 ∧ s.epo.placed = none ∧ s.power.inReset = false then
    boundary (slip s) false upsets else s)

/-- `REALIGN_TIMEOUT` (R465): an internal boundary. -/
def execRealignTimeout (upsets : List DetourUpset) (s : State) : Host.Outcome State Fault Refusal :=
  finish (if s.rdf .EPO_STATUS 12 2 = 2 ∧ s.epo.placed = none ∧ s.power.inReset = false then boundary s false upsets else s)

end Sys2Proof.Machine
end

