-- ==== Sys2Proof/Machine/Banks.lean ====
section
/-! DEFINITION. Scratchpad banks (chapter 15): the end of a handover, the bank DMA engines, power states, the background test. Each
function named for a register is what a write of that register does beside storing it. -/

namespace Sys2Proof.Machine

/-- The state in `SPB_STATUS` (R460): 0 ON, 1 RETENTION, 2 OFF, 3 changing. -/
def bankState (s : State) (b : Nat) : Nat := s.rdf .SPB_STATUS 0 2 b
/-- The state of a bank's DMA engine (R450): 0 IDLE, 1 BUSY, 2 DONE, 3 ERROR. -/
def dmaState (s : State) (b : Nat) : Nat := s.rdf .SPB_DMA_STATUS 0 2 b

/-- A bank lies within the range of an enabled ping-pong queue (R187, R448). -/
def bankPing (s : State) (b : Nat) : Bool :=
  s.regs.any fun e =>
    e.1.reg == .GQ_CTRL && gqEn s e.1.inst && gqPing s e.1.inst &&
    decide (gqBase s e.1.inst ≤ bankBase + b * 2 ^ 18) &&
    decide (bankBase + b * 2 ^ 18 < gqBase s e.1.inst + gqCap s e.1.inst)

/-- A bank DMA copy is under way. -/
def dmaBusy (s : State) (b : Nat) : Bool := dmaState s b == 1

/-- The fault offset of a bank register (R45, R460). -/
def spbOff (b o : Nat) : Nat := b * 256 + o

/-- The bytes of a bank are lost or filled with zeros (R451, R452). -/
def bankClear (s : State) (b : Nat) : State :=
  let lo := bankBase + b * 2 ^ 18
  let gone (a : Nat) : Bool := decide (lo ≤ a) && decide (a < lo + 2 ^ 18)
  { s with mem := s.mem.filter (fun e => !gone e.1), bad := s.bad.filter (fun e => !gone e.1) }

/-- What a bank holds beside its registers. -/
def State.spb (s : State) (b : Nat) : Spb := tget {} s.spbs b
/-- What a bank holds set. -/
def State.setSpb (s : State) (b : Nat) (v : Spb) : State := { s with spbs := tset id {} s.spbs b v }

/-- A bank begins to move to a state, or is in it already (R451); its port drains where it leaves ON (R504). -/
def bankMove (s : State) (b st : Nat) : State :=
  if bankState s b = st then s
  else
    let s := if bankState s b = 3 then s else s.setSpb b { s.spb b with drains := bankState s b == 0 }
    s.wrf .SPB_STATUS 0 2 3 b

/-- A bank arrives in a state: contents are lost in OFF (R451, R452). -/
def bankArrive (s : State) (b st : Nat) : State :=
  let s := s.wrf .SPB_STATUS 0 2 st b
  if st = 2 then bankClear s b else s

/-- `BANK_POWER_DONE` (R452). -/
def execBankPowerDone (b : Fin 64) (s : State) : Host.Outcome State Fault Refusal :=
  done (if bankState s b = 3 then bankArrive s b (s.rdf .SPB_PWR 0 2 b) else s)

/-- The tick ends the handovers under way (R447). -/
def handoverTick (s : State) : State := { s with handing := [] }

/-- `SPB_STATUS` as it reads (R460): a handover under way, the test at work while it is enabled and the bank is ON, the spares in
use as the repair map holds them (R447, R456, R457; log 96). -/
def spbStatus (s : State) (b : Nat) : DWord :=
  let v := setFld (s.rd .SPB_STATUS b) 2 1 (s.handing.contains b).toNat
  let v := setFld v 3 1 (bit (s.rd .SPB_TEST b) 0 && bankState s b == 0 && !s.asleep).toNat
  setFld v 8 4 (s.spb b).used.toNat

/-! The DMA engine (R449, R450). -/

/-- The settings of a copy are valid (R449). -/
def dmaOk (s : State) (b : Nat) : Bool :=
  let n := (s.rd .SPB_DMA_LEN b).toNat
  n % 16 == 0 && 16 ≤ n && (s.rd .SPB_DMA_OFS b).toNat + n ≤ 2 ^ 18

/-- The length of the next packet: 16 data units at most, up to the next 256-byte-aligned global address. -/
def dmaPacket (ga left : Nat) : Nat := min left (256 - ga % 256)

/-- Up to `k` packets in ascending address order, each moved by `move` between a bank address and a global address; the first
answer other than OK ends the copy at its global address. -/
def dmaCopy (move : State → Nat → Nat → Nat → State × Status) : Nat → State → Nat → Nat → Nat → State × Option (Status × Nat)
  | 0, s, _, _, _ => (s, none)
  | k + 1, s, ba, ga, left =>
    if left = 0 then (s, none) else
    let n := dmaPacket ga left
    let r := move s ba ga n
    if r.2 = .ok then dmaCopy move k r.1 (ba + n) (ga + n) (left - n) else (r.1, some (r.2, ga))

/-- The address of a copy's first byte in the bank's window. -/
def dmaBank (s : State) (b : Fin 64) : Nat := bankBase + b.val * 2 ^ 18 + (s.spb b).ofs

/-- The first `k` packets of a bank's copy. -/
def dmaRun (move : State → Nat → Nat → Nat → State × Status) (s : State) (b : Fin 64) (k : Nat) :
    State × Option (Status × Nat) :=
  dmaCopy move k s (dmaBank s b) (s.spb b).addr (s.spb b).len

/-- One packet between the bank at `ba` and the global address `ga`: the bank answers only while it is ON (R451), and `e` is what
error correction finds in the bytes read (R455); `rd` and `wr` are the Corridor's accesses. -/
def dmaMove (rd : State → Nat → Nat → Ecc → State × Status × List Byte) (wr : State → Nat → List Byte → Transit → State × Status)
    (b : Fin 64) (out : Bool) (e : Ecc) (s : State) (ba ga n : Nat) : State × Status :=
  if bankState s b ≠ 0 then (s, .domainOff)
  else if out then
    let s := applyEccs s ba n e
    if badIn s ba n then (reportBads s ba n, .poison) else wr s ga (s.bytes ba n) e.net
  else
    let r := rd s ga n e
    if r.2.1 = .ok then (store r.1 ba r.2.2, .ok) else (r.1, r.2.1)

/-- A copy ends in ERROR at the first failing response. -/
def dmaFail (s : State) (b : Fin 64) (st : Status) (ga : Nat) : State :=
  let s := s.wr .SPB_DMA_STATUS (BitVec.ofNat 64 (3 + 16 * st.code)) b
  let s := s.wr .SPB_DMA_FAIL (BitVec.ofNat 64 ga) b
  (s.fault .banks 0x0102 (b.val + 256 * st.code)).evt .banks 3

/-- `START` (R449, R450): the copy goes by the settings of this moment (DESIGN CHOICE, log 96). -/
def dmaStart (s : State) (b : Fin 64) (v : Word) : State :=
  if dmaBusy s b || !dmaOk s b then s.refuse .banks (spbOff b 0x34) v
  else
    let c : Spb := { s.spb b with out := bit v 1, stuck := false, ofs := (s.rd .SPB_DMA_OFS b).toNat,
                                  addr := (s.rd .SPB_DMA_ADDR b).toNat, len := (s.rd .SPB_DMA_LEN b).toNat }
    (s.setSpb b c).wr .SPB_DMA_STATUS 1 b

/-- `ABORT` (R450): how many packets have completed is open, so their number is a free value (log 12); of a copy to or from
register space none has (DESIGN CHOICE, log 96). -/
def dmaAbort (s : State) (b : Fin 64) : State :=
  if dmaBusy s b = true ∧ (s.spb b).stuck = false then
    let d := s.draw
    let k := match targetOf (s.spb b).addr with
      | .reg _ => 0
      | _ => d.2.toNat % 1025
    let move := dmaMove (fun s a n e => memRead s (.bankDma b) a n e) (fun s a bs _ => memWrite s (.bankDma b) a bs) b
      (s.spb b).out .ok
    let r := dmaRun move d.1 b k
    match r.2 with
    | some (st, ga) => dmaFail r.1 b st ga
    | none => r.1.wr .SPB_DMA_STATUS 0 b
  else s

/-- A write to `SPB_DMA_CMD` (R450): `ABORT` acts before `START` (log 23). -/
def dmaCommand (s : State) (b : Fin 64) (v : Word) : State :=
  let s := if bit v 2 then dmaAbort s b else s
  if bit v 0 then dmaStart s b v else s

/-- Every copy under way is aborted (R457). -/
def dmaAbortAll (s : State) : State := (List.finRange 64).foldl dmaAbort s

/-! Background test (R456, R457). -/

/-- The first spare row from `i` on that the repair map does not use, `n` looked at. -/
def freeSpare (used : BitVec 4) : Nat → Nat → Option Nat
  | 0, _ => none
  | n + 1, i => if bit used i then freeSpare used n (i + 1) else some i

/-- A failing row is mapped onto the next free spare, tested in its turn (R456); a row with no free spare stays (R457). A spare
that fails stays in use and is replaced like a row (log 27). -/
def repairRow (s : State) (b : Fin 64) (row : Nat) (spares : BitVec 4) : Nat → State
  | 0 => s
  | n + 1 =>
    match freeSpare (s.spb b).used 4 0 with
    | some i =>
      let v := s.spb b
      let s := (s.setSpb b { v with used := v.used ||| (1#4 <<< i) }).wrf .SPB_REPAIR (8 * i) 8 row b
      if bit spares i then repairRow s b row spares n else s.evt .banks 0
    | none => ((s.wrf .SPB_STATUS 4 1 1 b).fault .banks 0x0101 (b.val + 256 * row)).evt .banks 1

/-- `ROW_TEST` (R456): the row tested, and a pass counted each time the last row is done. -/
def execRowTest (b : Fin 64) (fails : Bool) (spares : BitVec 4) (s : State) : Host.Outcome State Fault Refusal :=
  done <|
    if bit (s.rd .SPB_TEST b) 0 ∧ bankState s b = 0 ∧ s.asleep = false then
      let row := s.rdf .SPB_TEST_STATUS 0 8 b
      let s := if fails then repairRow s b row spares 5 else s
      let s := s.wrf .SPB_TEST_STATUS 0 8 (row + 1) b
      if row = 255 then s.countf .SPB_TEST_STATUS 16 16 1 b else s
    else s

/-! Standby (R453). -/

/-- On entry to Standby each bank takes the state in `SPB_PWR.STBY`. -/
def banksSleep (s : State) : State :=
  (List.range 64).foldl (fun s b => bankArrive s b (s.rdf .SPB_PWR 4 2 b)) s

/-- On wake each bank returns to the state in `REQ`. -/
def banksWake (s : State) : State :=
  (List.range 64).foldl (fun s b => bankArrive s b (s.rdf .SPB_PWR 0 2 b)) s

end Sys2Proof.Machine
end

