-- ==== Sys2Proof/Machine/CoreState.lean ====
section
/-! DEFINITION. Stream cores beside their instructions (chapter 13): banks, running and stopping, resets, the bank mirrors of
the core page. -/

namespace Sys2Proof.Machine

/-- Bank `b` of a core. -/
def Core.bk (c : Core) (b : Nat) : Bank := tget {} c.banks b
/-- A bank set. -/
def Core.setBk (c : Core) (b : Nat) (v : Bank) : Core := { c with banks := tset id {} c.banks b v }
/-- The current bank. -/
def Core.cur (c : Core) : Bank := c.bk c.bank
/-- The current bank set. -/
def Core.setCur (c : Core) (v : Bank) : Core := c.setBk c.bank v
/-- The number of bank T (R397, R412). -/
def bankT : Nat := 4
/-- A special register of a bank. -/
def Bank.sp (b : Bank) (n : Nat) : Word := tget 0 b.spec n
/-- A special register of a bank set. -/
def Bank.setSp (b : Bank) (n : Nat) (v : Word) : Bank := { b with spec := tset id 0 b.spec n v }
/-- A local register (R360). -/
def Bank.local (b : Bank) (n : Nat) : Word := tget 0 b.locals n
/-- A local register set. -/
def Bank.setLocal (b : Bank) (n : Nat) (v : Word) : Bank := { b with locals := tset id 0 b.locals n v }

/-- `SC_STATE` as it reads (R412). -/
def scState (s : State) (k : Nat) : DWord :=
  let c := s.core k
  let run := if c.run = .halted then 3 else if c.stopped then 0 else if c.run = .running ∨ c.run = .blocked then 1 else 2
  BitVec.ofNat 64 (run + 16 * c.bank + 65536 * (c.pc.toNat % 65536))

/-- `SC_IRQ_PEND` as it reads (R411). -/
def scIrqPend (s : State) (k : Nat) : DWord :=
  [1, 2, 3].foldl (fun a L => if requested s s.levels k L then setBit a L true else a) 0

/-- `SC_BK_DEPTH[b]` and `SC_T_DEPTH` as they read (R411). -/
def scDepth (s : State) (k b : Nat) : DWord :=
  let v := (s.core k).bk b
  BitVec.ofNat 64 (v.ds.length + 256 * v.rs.length)

/-- A fault of a core (R413). -/
def coreFault (s : State) (k : Fin 32) (code detail rec1 : Nat) : State :=
  (s.fault (.core k) code detail rec1).evt (.core k) 0

/-! Core addresses (R372). -/

/-- The area of a core address: 1 X memory, 2 Y memory, 3 and 4 the windows, 0 none of them. -/
def areaOf (a : Nat) : Nat :=
  if 0x10000 ≤ a ∧ a < 0x20000 then 1 else if 0x20000 ≤ a ∧ a < 0x30000 then 2
  else if 0x80000000 ≤ a ∧ a < 0xC0000000 then 3 else if 0xC0000000 ≤ a ∧ a < 0x100000000 then 4 else 0

/-- The global address of a core's local memory (R37). -/
def coreMem (k a : Nat) : Nat := coreBase + k * 2 ^ 20 + a

/-- A bound written to a bank's region (R404): number 0x0A the base, 0x0B the limit; its pointer follows. -/
def setBound (b : Bank) (n : Nat) (v : Word) : Bank :=
  let v := v &&& 0xFFFFFFFC
  if n = 0x0A then { b.setSp n v with dsp := v } else { b.setSp n v with rsp := v }

/-- A bound outside X memory, Y memory and the windows is a reserved value (R404). -/
def boundOk (v : Word) : Bool := areaOf (v &&& 0xFFFFFFFC).toNat != 0

/-- Instruction memory is made visible to fetch (R376). -/
def syncCode (s : State) (k : Nat) : State :=
  let lo := coreMem k 0
  s.setCore k { s.core k with code := s.mem.filter fun e => decide (lo ≤ e.1) && decide (e.1 < lo + 0x8000) }

/-! Running, stopping, reset (R410). -/

/-- `RUN` written 1: the core resumes where it stopped, or after a reset starts, its fetch seeing instruction memory as it
stands (log 16). -/
def coreRun (s : State) (k : Nat) : State :=
  let c := s.core k
  if c.stopping then s.setCore k { c with stopping := false }
  else if c.stopped then
    let s := if c.fresh then syncCode s k else s
    s.setCore k { s.core k with stopped := false, fresh := false }
  else s

/-- A core stands at an interruptible boundary (R401): no repetition is under way, and no access waits inside an instruction. -/
def atBoundary (c : Core) : Bool := !c.rep && c.run != .blocked

/-- A core that is to stop does so at an interruptible boundary (R410). -/
def stopHere (s : State) (k : Nat) : State :=
  let c := s.core k
  if c.stopping && atBoundary c then s.setCore k { c with stopped := true, stopping := false } else s

/-- `RUN` written 0: the core stops at its next interruptible boundary. -/
def coreStop (s : State) (k : Nat) : State :=
  if (s.core k).stopped then s else stopHere (s.setCore k { s.core k with stopping := true }) k

/-- The results of a core's outstanding stores are discarded as they come (R410). -/
def dropStores (s : State) (k : Nat) : State :=
  { s with reqs := s.reqs.map fun r => if endpointOf r.who = ⟨48 + k / 4, k % 4⟩ then { r with store := none } else r }

/-- Reset C of a core (R410): every bank, `SC_VBASE` and the registers without C; its landing slots empty. -/
def coreResetC (s : State) (k : Fin 32) : State :=
  let s := dropStores (emptySlots s k) k
  let s := clearRegs s .C (fun b => b == .core k)
  s.setCore k { code := (s.core k).code, inReset := true }

/-- Reset C is over: the core restarts at 0x0000 if `RUN` is 1. -/
def coreResetDone (s : State) (k : Nat) : State :=
  let c := s.core k
  if c.inReset then
    let s := s.setCore k { c with inReset := false }
    if bit (s.rd .SC_CTRL k) 0 then coreRun s k else s
  else s

/-- `CORE_RESET_DONE` (R410). -/
def execCoreResetDone (k : Fin 32) (s : State) : Host.Outcome State Fault Refusal :=
  done (if s.up (.core k) then coreResetDone s k else s)

/-- The cores of a group that is powered off, reset or woken start again from nothing, stopped (R411, R430). -/
def coreOff (s : State) (k : Nat) : State := (dropStores s k).setCore k {}

/-- Local memories read 0 (R410). -/
def coreMemClear (s : State) (k : Nat) : State :=
  let gone (a : Nat) : Bool := decide (coreMem k 0 ≤ a) && decide (a < coreMem k 0 + 2 ^ 20)
  { s with mem := s.mem.filter (fun e => !gone e.1), bad := s.bad.filter (fun e => !gone e.1) }

/-- A bound or pointer of a bank written from the page (R407): 0 the base, 1 the limit, 2 *DSP*, 3 *RSP*. -/
def setMirror (c : Core) (b which : Nat) (v : Word) : Core :=
  let w := c.bk b
  c.setBk b (match which with
    | 0 => setBound w 0x0A v
    | 1 => setBound w 0x0B v
    | 2 => { w with dsp := v &&& 0xFFFFFFFC }
    | _ => { w with rsp := v &&& 0xFFFFFFFC })

/-- A page write to a bank's bound or pointer takes effect at the core's next instruction boundary (R407): at once between two
instructions, behind an instruction that waits. A core that is halted comes to no instruction boundary, so nothing changes
(R409). -/
def mirrorWrite (s : State) (k b which : Nat) (v : Word) : State :=
  let c := s.core k
  match c.run with
  | .halted => s
  | .blocked => s.setCore k { c with mirrors := c.mirrors ++ [(b, which, v)] }
  | _ => s.setCore k (setMirror c b which v)

/-- What waits for an instruction boundary takes effect where the core has come to one (R407). -/
def boundaryMirrors (s : State) (k : Nat) : State :=
  let c := s.core k
  if c.mirrors = [] ∨ c.run = .blocked then s
  else s.setCore k { (c.mirrors.foldl (fun c m => setMirror c m.1 m.2.1 m.2.2) c) with mirrors := [] }

/-- The bank mirrors as they read. -/
def mirrorRead (s : State) (k b which : Nat) : DWord :=
  let w := (s.core k).bk b
  ext (match which with
    | 0 => w.sp 0x0A
    | 1 => w.sp 0x0B
    | 2 => w.dsp
    | _ => w.rsp)

end Sys2Proof.Machine
end

