-- ==== Sys2Proof/Machine/Training.lean ====
section
/-! DEFINITION. Raold Link's training blocks (R511): what a lane sends while the link trains, as 66-bit units, and what four
receive lanes say of lane order and polarity. -/

namespace Sys2Proof.Machine

/-- A training block (R511): `code` 1 ALIGN, 2 CONFIG, 3 READY, 4 MARK; `card` is `ROLE`. -/
structure TrainBlock where
  lane : BitVec 3
  seen : Bool
  code : BitVec 4
  ver : BitVec 8 := 1
  card : Bool
  deriving DecidableEq, Repr

/-- The 64 bits of a training block after its sync header: block type 0xA5, then its fields. -/
def trainBits (b : TrainBlock) : BitVec 64 :=
  BitVec.ofNat 64 (0xA5 + 256 * (b.lane.toNat + 8 * b.seen.toNat + 16 * b.code.toNat + 256 * b.ver.toNat + 65536 * b.card.toNat))

/-- The fields of a training block: none where the type is another or a bit that is not listed is 1. -/
def trainFields (x : BitVec 64) : Option TrainBlock :=
  let b : TrainBlock := ⟨BitVec.ofNat 3 (fld x 8 3), bit x 11, BitVec.ofNat 4 (fld x 12 4), BitVec.ofNat 8 (fld x 16 8), bit x 24⟩
  if trainBits b = x then some b else none

/-- Consecutive units of one lane: each block scrambled after the history `h`, its sync header 0b10 in the unit's low bits (log
142). -/
def trainUnits : BitVec 58 → List TrainBlock → List (BitVec 66)
  | _, [] => []
  | h, b :: r =>
    let e := scrambleBits 64 h (trainBits b).toNat
    BitVec.ofNat 66 (2 + 4 * e.1) :: trainUnits e.2 r

/-- The training block in the unit `y` that follows the unit `x` on a receive lane of the given polarity. -/
def trainRead (inverted : Bool) (x y : BitVec 66) : Option TrainBlock :=
  let v (u : BitVec 66) : BitVec 66 := if inverted then ~~~u else u
  if fld (v y) 0 2 = 2 then trainFields (descramble64 (BitVec.ofNat 58 (fld (v x) 8 58)) (BitVec.ofNat 64 (fld (v y) 2 64))).1
  else none

/-- The training blocks of a run of units: one fewer than units, the first giving the descrambler its history. -/
def trainRun (inverted : Bool) : List (BitVec 66) → List (Option TrainBlock)
  | x :: y :: r => trainRead inverted x y :: trainRun inverted (y :: r)
  | _ => []

/-- Units `us` come from the card's lane `n`, each a training block that `p` accepts. -/
def trainFrom (inverted : Bool) (n : Nat) (p : TrainBlock → Bool) (us : List (BitVec 66)) : Bool :=
  (trainRun inverted us).all fun b => match b with
    | some b => b.lane.toNat == n && b.ver == 1 && b.card && p b
    | none => false

/-- The lane whose blocks come in on receive lane `i` (R514). -/
def laneAt (reversed : Bool) (i : Nat) : Nat := if reversed then 3 - i else i

/-- Lane order and polarities under which each receive lane has the blocks that `p` accepts, `n` or more of them, if there are
such; bit `i` of the polarities is 1 where lane `i` is inverted. -/
def trainView (p : TrainBlock → Bool) (n : Nat) (rx : List (List (BitVec 66))) : Option (BitVec 4 × Bool) :=
  ([false, true].flatMap fun o => (List.range 16).map fun m => (BitVec.ofNat 4 m, o)).find? fun c =>
    (List.range 4).all fun i =>
      decide (n < (rx.getD i []).length) && trainFrom (bit c.1 i) (laneAt c.2 i) p (rx.getD i [])

end Sys2Proof.Machine
end

