-- ==== Sys2Proof/Machine/Link.lean ====
section
/-! DEFINITION. Raold Link (chapter 18): training, flits with sequence, replay and credits, bulk streams, loop-backs and
reset H. Transactions are in LinkHost.lean. -/

namespace Sys2Proof.Machine

/-- The link's state set (R514). -/
def linkTo (s : State) (st : Nat) : State := s.wrf .RLK_STATUS 0 3 st
/-- The link enters RETRAIN, in which it has yet to align (R514). -/
def linkRetrain (s : State) : State := linkTo { s with link := { s.link with aligned := false } } 5
/-- The link's state. -/
def linkState (s : State) : Nat := s.rdf .RLK_STATUS 0 3
/-- `LOOP_CTRL.DEPTH` of the link (R530). -/
def linkDepth (s : State) : Nat := s.rdf .LOOP_CTRL 0 3 (pageOf .link)
/-- A cause of the link (R533). -/
def linkCause (s : State) (i : Nat) : State := s.orIn .RLK_CAUSE (BitVec.ofNat 64 (2 ^ i))

/-! Sending (R519, R522 to R524). -/

/-- The 16-byte header of a transaction (R524). -/
def tranHeader (ttype tag status stream addr len word3 : Nat) : List Byte :=
  leBytes 4 (ttype + tag * 2 ^ 8 + status * 2 ^ 20 + stream * 2 ^ 24) ++ leBytes 4 (addr % 2 ^ 32) ++
  leBytes 4 (addr / 2 ^ 32 % 2 ^ 16 + len * 2 ^ 16) ++ leBytes 4 word3

/-- The 64-byte payloads of a transaction, the last filled up with zeros (R524). -/
def payloads (bs : List Byte) : Nat → List (List Byte)
  | 0 => []
  | n + 1 => (bs.take 64 ++ List.replicate (64 - (bs.take 64).length) 0) :: payloads (bs.drop 64) n

/-- The flits of one transaction on a channel. -/
def tranFlits (ch : Nat) (cpl : Bool) (bs : List Byte) : List TxFlit :=
  let n := max 1 ((bs.length + 63) / 64)
  (payloads bs n).zipIdx.map fun e => { ch := ch, payload := e.1, cpl := cpl && e.2 + 1 == n, ends := e.2 + 1 == n }

/-- Flits are put in line on the link. -/
def sendFlits (s : State) (fs : List TxFlit) : State := { s with link := { s.link with waiting := s.link.waiting ++ fs } }

/-- A channel has credit for one more flit (R522). -/
def hasCredit (l : Link) (ch : Nat) : Bool := tget 0 l.cred ch != tget 0 l.sent ch

/-- The EVENT transaction of a host message (R528). -/
def eventFlits (e : EventMsg) : List TxFlit :=
  tranFlits 2 false (tranHeader 8 0 0 0 e.source 8 (e.epoch.toNat % 2 ^ 32) ++ leBytes 8 e.stamp.toNat)

/-- The first flit that `p` accepts, with the rest. -/
def takeFlit (p : TxFlit → Bool) : List TxFlit → Option (TxFlit × List TxFlit)
  | [] => none
  | f :: r => if p f then some (f, r) else (takeFlit p r).map fun e => (e.1, f :: e.2)

/-- The bulk stream of a flit. -/
def TxFlit.stream (f : TxFlit) : Nat :=
  match f.bulk with
  | some b => b.1
  | none => 0

/-- The flit that a channel sends next: on BULK the transaction under way goes on, and the streams take turns (R523). -/
def channelNext (l : Link) (ch : Nat) : Option (TxFlit × List TxFlit) :=
  if ch ≠ 3 then takeFlit (fun f => f.ch == ch) l.waiting
  else (if l.inTran then [l.turn] else (List.range 16).map fun i => (l.turn + 1 + i) % 16).findSome? fun i =>
    takeFlit (fun f => f.ch == 3 && f.stream == i) l.waiting

/-- A flit leaves with the next sequence number and stays in the replay buffer (R518, R519). -/
def launchFlit (l : Link) (f : TxFlit) (rest : List TxFlit) : Link :=
  { l with
    waiting := rest
    replay := l.replay ++ [{ f with seq := l.txSeq }]
    txSeq := l.txSeq + 1
    sent := tset id 0 l.sent f.ch (tget 0 l.sent f.ch + 1)
    turn := if f.ch = 3 then f.stream else l.turn
    inTran := if f.ch = 3 then !f.ends else l.inTran }

/-- A flit's type, sequence number and payload. -/
def flitOf (seq : BitVec 12) (f : TxFlit) : BitVec 4 × BitVec 12 × BitVec 512 :=
  (BitVec.ofNat 4 (4 + f.ch), seq, BitVec.ofNat 512 (leNat f.payload))

/-- The next new DATA flit that can leave: RSP first, then EVT, then the bulk streams (R522, R523). -/
def nextData (l : Link) : List Nat → Option (Link × BitVec 4 × BitVec 12 × BitVec 512)
  | [] => none
  | ch :: r =>
    match channelNext l ch with
    | some (f, rest) => if hasCredit l ch then some (launchFlit l f rest, flitOf l.txSeq f) else nextData l r
    | none => nextData l r

/-- The next flit that the device sends: a NAK that is due, then the flits of a replay, then a new DATA flit while the replay
buffer has room, else a NULL flit (R517 to R520). -/
def nextFlit (l : Link) : Link × BitVec 4 × BitVec 12 × BitVec 512 :=
  if l.nakDue then ({ l with nakDue := false }, 1, 0, 0)
  else match l.resend with
    | f :: r => ({ l with resend := r }, flitOf f.seq f)
    | [] => ((if l.replay.length < 256 then nextData l [1, 2, 3] else none)).getD (l, 0, 0, 0)

/-- Host requests whose completion has not left, the one that is being performed and those without a response among them:
`RLK_OUTSTANDING` (R526, R533). -/
def outstanding (s : State) : Nat := (s.link.waiting.filter fun f => f.cpl).length + s.link.busy.toNat + s.link.dead

/-! Bulk streams (R529). -/

/-- A bulk stream. -/
def State.stream (s : State) (i : Nat) : Stream := tget {} s.link.streams i
/-- A bulk stream set. -/
def State.setStream (s : State) (i : Nat) (v : Stream) : State :=
  { s with link := { s.link with streams := tset id {} s.link.streams i v } }

/-- The enabled queue that a stream serves. -/
def streamQueue (s : State) (i : Nat) : Option Nat :=
  match queueOfCons s 5 i with
  | some q => if gqEn s q then some q else none
  | none => none

/-- A stream starts again from its queue's read position; flits already sent move it no more. -/
def streamRestart (s : State) (i : Nat) : State :=
  let p := match streamQueue s i with
    | some q => gqRead s q
    | none => 0
  s.setStream i ⟨p, p, none, (s.stream i).gen + 1, false⟩

/-- A rewind or an overwrite that moved the read position restarts the stream, and so does a queue that has been enabled anew. -/
def streamSync (s : State) (i : Nat) : State :=
  match streamQueue s i with
  | some q => if gqRead s q = (s.stream i).read ∧ (s.stream i).cut = false then s else streamRestart s i
  | none => s

/-- How many bytes from a position lie below the grant position, compared modulo 2^48. -/
def grantRoom (s : State) (i p : Nat) : Nat :=
  let d := ((s.rd .RLK_BS_GRANT 0 i).toNat + 2 ^ 48 - p % 2 ^ 48) % 2 ^ 48
  if 2 ^ 47 ≤ d then 0 else d

/-- Whole visible entries from a position, 4,096 bytes at most and within `room`: where each ends. -/
def wholeEntries (s : State) (q start room : Nat) : Nat → Nat → List Nat
  | 0, _ => []
  | n + 1, p =>
    let e := p + entrySize s q p
    if e ≤ gqWrite s q ∧ e - start ≤ min 4096 room ∧ !(s.queue q).skips.any (fun k => k.1 == p) then
      e :: wholeEntries s q start room n e
    else []

/-- An entry's bytes as a consumer receives them, from the head cache where it holds them (R185, R234). -/
def entryBytes (s : State) (q p n : Nat) : State × List Byte :=
  match (s.queue q).head.find? fun e => e.1 == p with
  | some e => (s, e.2.take n)
  | none =>
    let bs := gqBytes s q p n
    if gqBad s q p n && !inTail s q p then
      (gqReportBad s q p n, poisonAt (if gqKind s q = 1 then 8 else 12) bs)
    else (s, bs)

/-- Of consecutive entries that end at the given positions, those that can be delivered: each lies in a cache or in a READY
channel (R636). -/
def entriesHeld (s : State) (q p : Nat) : List Nat → List Nat
  | [] => []
  | e :: r =>
    if inTail s q p || ((s.queue q).head.any fun h => h.1 == p) || gqReady s q p (e - p) then e :: entriesHeld s q e r else []

/-- The bytes of consecutive entries that end at the given positions. -/
def entriesBytes (s : State) (q p : Nat) : List Nat → State × List Byte
  | [] => (s, [])
  | e :: r =>
    let a := entryBytes s q p (e - p)
    let b := entriesBytes a.1 q e r
    (b.1, a.2 ++ b.2)

/-- A BULK_DATA transaction is put in line: its flits complete the entries that end within them. -/
def sendBulk (s : State) (i : Fin 16) (p : Nat) (bs : List Byte) (ends : List Nat) : State :=
  let fs := tranFlits 3 false (tranHeader 9 0 0 i p bs.length 0 ++ bs)
  sendFlits s (fs.zipIdx.map fun f =>
    let got := ends.filter fun e => e ≤ p + (48 + 64 * f.2)
    { f.1 with bulk := some (i, (s.stream i).gen, got.getLastD 0) })

/-- A stream's next transaction, or STALLED where it has entries and no grant room (R529, R636). A BULK_DATA has 32 bytes or more
(R525); only a token that ends a flushed half goes alone (DESIGN CHOICE, log 158). -/
def streamSend (s : State) (i : Fin 16) : State :=
  match streamQueue s i with
  | none => s
  | some q =>
    if bit (s.rd .RLK_BS_CTRL 0 i) 0 = false then s else
    let s := streamSync s i
    let v := s.stream i
    let p := if v.span.isNone then skipFree s q v.next else v.next
    if gqWrite s q ≤ p then s.wrf .RLK_BS_STATUS 1 1 0 0 i else
    let room := grantRoom s i p
    let ends := if v.span.isNone then wholeEntries s q p room 256 p else []
    let held := entriesHeld s q p ends
    match v.span.isNone && ends != [], held.getLast? with
    | true, none => s
    | true, some e =>
      if e - p < 32 ∧ !((s.queue q).skips.any fun k => k.1 == e) = true then
        -- one token of 16 bytes waits for the next (R525)
        s.wrf .RLK_BS_STATUS 1 1 (decide (room < 32 ∧ e < gqWrite s q)).toNat 0 i
      else
        let r := entriesBytes s q p held
        (sendBulk r.1 i p r.2 held).setStream i { v with next := e } |>.wrf .RLK_BS_STATUS 1 1 0 0 i
    | _, _ =>
      -- a record of more than 4,096 bytes, or an entry beyond the grant
      let stop := v.span.getD (p + entrySize s q p)
      let n := min 4096 (stop - p)
      if room < n then s.wrf .RLK_BS_STATUS 1 1 1 0 i
      else if gqReady s q p n = false then s
      else
        let r := if v.span.isNone then entryBytes s q p (stop - p) else (s, gqBytes s q p n)
        let last := p + n == stop
        (sendBulk r.1 i p (r.2.take n) (if last then [stop] else [])).setStream i
          { v with next := p + n, span := if last then none else some stop } |>.wrf .RLK_BS_STATUS 1 1 0 0 i

/-- `BULK_DATA` (R529); streams pause in Standby (R588). -/
def execBulkData (i : Fin 16) (s : State) : Host.Outcome State Fault Refusal :=
  done (if linkActive s && !s.asleep && s.up .link then streamSend s i else s)

/-- `BULK_STALL` (R529): a stream has been stalled for 1 ms. -/
def execBulkStall (i : Fin 16) (s : State) : Host.Outcome State Fault Refusal :=
  done (if bit (s.rd .RLK_BS_STATUS 0 i) 1 then linkCause s 4 else s)

/-- A write to `RLK_BS_CTRL`: an enabled stream starts from the read position. -/
def bsWrite (s : State) (i : Nat) (old new : DWord) : State :=
  if bit new 0 && !bit old 0 then streamRestart s i
  else if bit new 0 then s else s.wrf .RLK_BS_STATUS 1 1 0 0 i

/-- `RLK_BS_STATUS` as it reads: ACTIVE while the stream is enabled and has a queue (log 28). -/
def bsStatus (s : State) (i : Nat) : DWord :=
  setBit (s.rd .RLK_BS_STATUS 0 i) 0 (bit (s.rd .RLK_BS_CTRL 0 i) 0 && (streamQueue s i).isSome)

/-- A bulk flit is acknowledged: the read position moves past the entries whose every flit is. -/
def bulkAcked (s : State) (b : Nat × Nat × Nat) : State :=
  let s := streamSync s b.1
  let v := s.stream b.1
  match streamQueue s b.1 with
  | some q =>
    if v.gen = b.2.1 ∧ gqRead s q < b.2.2 ∧ bit (s.rd .RLK_BS_CTRL 0 b.1) 0 = true then
      let s := setRead s q b.2.2
      s.setStream b.1 { v with read := gqRead s q }
    else s
  | none => s

/-! Receiving (R515 to R520). -/

/-- The CRC-24 over bytes 0 to 68 of a flit (R515). -/
def flitCrc (payload : BitVec 512) (ctl : BitVec 64) : Nat :=
  (leBytes 64 payload.toNat ++ leBytes 5 ctl.toNat).foldl
    (fun s b => crcBitsM 24 0x5D6DCB 8 (s ^^^ (b.toNat <<< 16))) 0xFFFFFF

/-- A flit's CRC is good and its `TYPE` is not reserved (R516). -/
def flitGood (payload : BitVec 512) (ctl : BitVec 64) : Bool :=
  fld ctl 40 24 == flitCrc payload ctl && (let t := fld ctl 24 4; t < 8 && t != 3)

/-- The control word of a flit that the device starts (R515, R517, R519, R522): its `ACK`, and the credit that the device grants
on the one channel that it receives, the 128 flits of its buffer and those freed since reset H. -/
def flitControl (s : State) (seq : BitVec 12) (type : BitVec 4) (payload : BitVec 512) : BitVec 64 :=
  let c : BitVec 64 := BitVec.ofNat 64 (seq.toNat + (s.link.rxSeq - 1).toNat * 2 ^ 12 + type.toNat * 2 ^ 24 +
    (128 + s.link.freed) % 1024 * 2 ^ 30)
  c ||| (BitVec.ofNat 64 (flitCrc payload c) <<< 40)

/-- Flits are received: ACTIVE, or a far-end flit loop-back (R530, R531). -/
def linkHears (s : State) : Bool :=
  s.up .link && (linkActive s || (linkState s == 6 && linkDepth s == 4))

/-- The `ACK` and the credit report of a flit (R517, R519, R522): flits covered leave the replay buffer. -/
def flitReport (s : State) (ctl : BitVec 64) : State :=
  let ack : BitVec 12 := BitVec.ofNat 12 (fld ctl 12 12)
  let l := { s.link with cred := tset id 0 s.link.cred (fld ctl 28 2) (BitVec.ofNat 10 (fld ctl 30 10)) }
  let covered (f : TxFlit) : Bool := (ack - f.seq).toNat < 2048
  let gone := l.replay.filter covered
  let l := { l with
    replay := l.replay.filter fun f => !covered f
    resend := l.resend.filter fun f => !covered f
    replays := if gone = [] then l.replays else 0 }
  (gone.filterMap fun f => f.bulk).foldl bulkAcked { s with link := l }

/-- A replay (R520): every unacknowledged flit is sent again and it is counted, or with the limit reached a fault and RETRAIN. -/
def linkReplay (s : State) : State :=
  if s.rdf .RLK_CTRL 8 4 ≤ s.link.replays then
    linkRetrain (linkCause (s.fault .link 0x0100) 2)
  else { s with link := { s.link with replays := s.link.replays + 1, resend := s.link.replay } }.count .RLK_REPLAY_CNT

/-- A NAK is asked for, one until the expected flit comes (R518). -/
def flitNak (s : State) : State :=
  if s.link.nakked then s else { s with link := { s.link with nakked := true, nakDue := true } }

/-- A flit discarded and counted (R516). -/
def flitDrop (s : State) : State := s.count .RLK_CRC_ERR_CNT

/-- A DATA flit with a good CRC (R518): accepted, a duplicate, or out of order. A far-end flit loop-back sends its payload
back, on RSP (R530; log 30). -/
def flitData (s : State) (payload : BitVec 512) (ctl : BitVec 64) : State :=
  let d := (BitVec.ofNat 12 (fld ctl 0 12) - s.link.rxSeq).toNat
  let ch := fld ctl 24 2
  if d = 0 then
    let l := { s.link with rxSeq := s.link.rxSeq + 1, nakked := false }
    if linkState s = 6 then
      sendFlits { s with link := { l with freed := l.freed + 1 } } [{ ch := 1, payload := leBytes 64 payload.toNat }]
    else if ch = 0 then { s with link := { l with rxq := l.rxq ++ [leBytes 64 payload.toNat] } }
    else { s with link := l }
  else if 2049 ≤ d then s
  else flitNak s

/-- `DATA_FLIT` (R516, R518). -/
def execDataFlit (payload : BitVec 512) (ctl : BitVec 64) (s : State) : Host.Outcome State Fault Refusal :=
  finish <|
    if linkHears s then
      if flitGood payload ctl then
        if 4 ≤ fld ctl 24 4 then flitData (flitReport s ctl) payload ctl else s
      else
        let s := flitDrop s
        if 4 ≤ fld ctl 24 4 ∧ fld ctl 24 4 < 8 then flitNak s else s
    else s

/-- `NULL_FLIT` (R517). -/
def execNullFlit (payload : BitVec 512) (ctl : BitVec 64) (s : State) : Host.Outcome State Fault Refusal :=
  finish <|
    if linkHears s then
      if flitGood payload ctl then (if fld ctl 24 4 = 0 then flitReport s ctl else s) else flitDrop s
    else s

/-- `NAK` (R520). -/
def execNak (payload : BitVec 512) (ctl : BitVec 64) (s : State) : Host.Outcome State Fault Refusal :=
  finish <|
    if linkHears s then
      if flitGood payload ctl then (if fld ctl 24 4 = 1 then linkReplay (flitReport s ctl) else s) else flitDrop s
    else s

/-- `REPLAY_TIMEOUT` (R520). -/
def execReplayTimeout (s : State) : Host.Outcome State Fault Refusal :=
  done (if linkHears s && s.link.replay != [] then linkReplay s else s)

/-! Reset H (R531). -/

/-- The link layer starts afresh; streams keep the read positions of their queues, and the lanes their scramblers. -/
def linkClear (s : State) : State :=
  let l := s.link
  let s := { s with link := { streams := l.streams, scr := l.scr, flow := l.flow, phase := l.phase, lines := l.lines } }
  (List.range 16).foldl streamRestart s

/-- Reset H: completions and the link layer are discarded, grants fall to the read positions, registers without H return to
their power-on values. -/
def resetH (s : State) : State :=
  let st := linkState s
  let s := clearRegs (linkClear s) .H (fun b => b == .link)
  let s := (List.range 16).foldl (fun s i =>
    s.wr .RLK_BS_GRANT (BitVec.ofNat 64 ((s.stream i).read % 2 ^ 48)) 0 i) s
  ((linkTo s st).count .RLK_HRESET_CNT).orIn .PWR_RESET_CAUSE 0x10

/-- `LINK_RESET` (R514, R531). -/
def execLinkReset (payload : BitVec 512) (ctl : BitVec 64) (s : State) : Host.Outcome State Fault Refusal :=
  done <|
    if s.up .link ∧ linkActive s = true then
      if flitGood payload ctl then (if fld ctl 24 4 = 2 then linkTo (resetH s) 3 else s) else flitDrop s
    else s

/-- The link loses its state, as at power-down and resets P, B, E and W; it trains anew. -/
def linkOff (s : State) : State :=
  linkTo { s with link := {} } (if bit (s.rd .RLK_CTRL) 0 then 1 else 0)

/-- A reset K of the link's page (R13, R533): registers without K return to their power-on values, `RLK_STATUS` and
`RLK_OUTSTANDING` among them, so that the link trains anew (log 29). -/
def linkResetK (s : State) : State := linkOff (clearRegs s .K fun b => b == .link)

/-! Training (R511 to R514). -/

/-- Host messages held while the link was down: those whose source is still asserted are sent, the others fall away (R68). -/
def flushHeld (s : State) : State :=
  let due := s.heldEvents.filterMap fun e => e.2.bind fun h =>
    if asserted s e.1 then some (EventMsg.mk e.1 h.stamp h.epoch) else none
  { s with heldEvents := [], hostEvents := s.hostEvents ++ due }

/-- The link enters ACTIVE: a reset H that is due comes first (R514). -/
def linkEnter (s : State) : State :=
  let s := { s with link := { s.link with rx := [], unitNo := 0, bits := 0, bitLen := 0 } }
  let s := if s.link.hpend then resetH s else s
  flushHeld (linkTo s 4)

/-- A near-end loop-back keeps the link from training (R530). -/
def nearEnd (s : State) : Bool := linkDepth s == 1 || linkDepth s == 2

/-- A write to `RLK_CTRL` (R514). -/
def rlkCtrlWrite (s : State) (old new : DWord) : State :=
  if bit new 0 && !bit old 0 then (if linkState s = 0 then linkTo s 1 else s)
  else if bit old 0 && !bit new 0 then (if linkState s = 0 then s else linkCause (linkTo s 0) 1)
  else s

/-- `SIGNAL_DETECTED` (R514). -/
def execSignalDetected (s : State) : Host.Outcome State Fault Refusal :=
  done (if s.up .link ∧ linkState s = 1 ∧ nearEnd s = false then linkTo s 2 else s)

/-- What lane `n` sends while the link trains, or as MARK in ACTIVE and in a near-end serial loop-back (R511, R512, R530): ALIGN
blocks until the ALIGN conditions are met, READY blocks then; `SEEN` says that all four receive lanes have block lock, which they
have from then on (log 142). -/
def sendsBlock (s : State) (n : Nat) : Option TrainBlock :=
  let seen := Config.blockLock (s.rd .PWR_TB).toNat
  let b (seen : Bool) (code : BitVec 4) : Option TrainBlock :=
    some { lane := BitVec.ofNat 3 n, seen := seen, code := code, card := false }
  match linkState s with
  | 1 => b false (if linkDepth s = 2 then 4 else 1)
  | 2 => b seen 1
  | 3 => b true 3
  | 4 => b true 4
  | 5 => if s.link.aligned then b true 3 else b seen 1
  | 6 => if linkDepth s = 4 then b true 4 else none
  | _ => none

/-- The four lanes send one unit each. -/
def emitUnits (l : Link) (us : List (BitVec 66)) : Link :=
  { l with lines := (List.range 4).map fun i => l.lines.getD i [] ++ (us.drop i).take 1 }

/-- Each lane sends its training block, scrambled (R511). -/
def trainUnit (s : State) : State :=
  let us := (List.range 4).map fun i => match sendsBlock s i with
    | some b => let e := scrambleBits 64 (tget 0 s.link.scr i) (trainBits b).toNat; [(i, BitVec.ofNat 66 (2 + 4 * e.1), e.2)]
    | none => []
  let us := us.flatten
  { s with link := emitUnits { s.link with scr := us.foldl (fun m u => tset id 0 m u.1 u.2.2) s.link.scr } (us.map (·.2.1)) }

/-- The flit stream goes on while it has too few bits for the next units (R512, R517). -/
def fillStream (s : State) : State :=
  if 264 ≤ s.link.bitLen then s else
  let x := nextFlit s.link
  let ctl := flitControl s x.2.2.1 x.2.1 x.2.2.2
  let e := scrambleBits 576 s.link.flow (x.2.2.2.toNat + ctl.toNat * 2 ^ 512)
  { s with link := { x.1 with flow := e.2, bits := x.1.bits + e.1 * 2 ^ x.1.bitLen, bitLen := x.1.bitLen + 576 } }

/-- Each lane sends 66 bits of the flit stream, lane 0 first (R512). -/
def streamUnit (s : State) : State :=
  let s := fillStream s
  let us := (List.range 4).map fun i => BitVec.ofNat 66 (s.link.bits / 2 ^ (66 * i))
  { s with link := emitUnits { s.link with bits := s.link.bits / 2 ^ 264, bitLen := s.link.bitLen - 264 } us }

/-- One unit on every lane: a MARK every 16,384 units while flits are sent (R512). -/
def linkUnit (s : State) : State :=
  if linkState s = 4 ∨ (linkState s = 6 ∧ linkDepth s = 4) then
    let u := if s.link.unitNo = 0 then trainUnit s else streamUnit s
    { u with link := { u.link with unitNo := (s.link.unitNo + 1) % 16384 } }
  else trainUnit s

/-- Host messages become EVENT transactions, one flit each (R528). -/
def queueEvents (s : State) : State :=
  if linkActive s then { sendFlits s (s.hostEvents.flatMap eventFlits) with hostEvents := [] } else s

/-- A far-end loop-back begins once no completion is left to send (R530). -/
def loopBegins (s : State) : Bool :=
  linkActive s && (linkDepth s == 3 || linkDepth s == 4) && !s.link.waiting.any (·.cpl)

/-- What the link sends in one tick: 125 units a lane in 32 ticks. -/
def linkTick (s : State) : State :=
  if s.up .link = false then { s with link := { s.link with lines := [] } } else
  let loops := loopBegins s
  let n := s.link.phase + 125
  let s := queueEvents { s with link := { s.link with phase := n % 32, lines := [] } }
  let s := (List.range (n / 32)).foldl (fun s _ => linkUnit s) s
  if loops then linkTo s 6 else s

/-- `LINK_ALIGNED` (R511, R514, R533): block lock on every lane, blocks of the card with `SEEN`, order and polarity found, and
a skew within 16 units. The units that come later are kept for LINK_UP, in CONFIG too. -/
def execLinkAligned (rx later : List (List (BitVec 66))) (skew : Nat) (s : State) : Host.Outcome State Fault Refusal :=
  done <|
    if s.up .link then
      let s := { s with link := { s.link with rx := later } }
      if (linkState s = 2 ∨ linkState s = 5) ∧ skew ≤ 16 then
        match trainView (fun b => b.seen && decide (1 ≤ b.code.toNat) && decide (b.code.toNat ≤ 4)) 1 rx with
        | some (inverted, reversed) =>
          let s := s.wr .RLK_TRAIN (BitVec.ofNat 64 (inverted.toNat + 16 * reversed.toNat + 256 * skew))
          if linkState s = 2 then linkTo s 3 else { s with link := { s.link with aligned := true } }
        | none => s
      else s
    else s

/-- Sixteen consecutive READY blocks of the card have come on every lane, in the order and polarity found (R514). -/
def readySeen (s : State) : Bool :=
  (List.range 4).all fun i =>
    decide (16 < (s.link.rx.getD i []).length) &&
    trainFrom (bit (s.rd .RLK_TRAIN) i) (laneAt (bit (s.rd .RLK_TRAIN) 4) i) (fun b => b.code == 3) (s.link.rx.getD i [])

/-- `LINK_UP` (R514): from CONFIG with the event, from a RETRAIN that has aligned with the link layer as it was. -/
def execLinkUp (s : State) : Host.Outcome State Fault Refusal :=
  done <|
    if s.up .link = false ∨ readySeen s = false then s
    else if linkState s = 3 then linkCause (linkEnter s) 0
    else if linkState s = 5 ∧ s.link.aligned = true then linkEnter s
    else s

/-- `LOCK_LOST` (R512, R514). -/
def execLockLost (s : State) : Host.Outcome State Fault Refusal := done (if linkState s = 4 then linkRetrain s else s)

/-- `RETRAIN_TIMEOUT` (R514, R534). -/
def execRetrainTimeout (s : State) : Host.Outcome State Fault Refusal :=
  done <|
    if linkState s = 5 then
      let s := (linkCause (linkTo s 1) 1).fault .link 0x0102 5
      { s with link := { s.link with hpend := true } }
    else s

/-- `LOOPBACK_SIGNAL_LOSS` (R514). -/
def execLoopbackSignalLoss (s : State) : Host.Outcome State Fault Refusal :=
  done (if linkState s = 6 then (linkTo s 1).wrf .LOOP_CTRL 0 3 0 (pageOf .link) else s)

/-- A write to `RLK_CMD` (R514, R530). -/
def rlkCommand (s : State) (v : Word) : State :=
  let s := if bit v 0 && linkActive s then linkRetrain s else s
  if bit v 1 && nearEnd s then { s with link := { s.link with looping := true } }.wr .RLK_LOOP_STATUS 0 else s

/-- `RLK_LOOP_DONE` (R530, R533). -/
def execRlkLoopDone (fails : Nat) (s : State) : Host.Outcome State Fault Refusal :=
  done <|
    if s.link.looping then
      { s with link := { s.link with looping := false } }.wr .RLK_LOOP_STATUS
        (BitVec.ofNat 64 (1 + (if fails = 0 then 0 else 2) + 65536 * min fails 65535))
    else s

/-- A write to the link's `LOOP_CTRL` (R514, R530): a near-end loop-back takes the link out of its state to DETECT, where it
stays until DEPTH is 0 again; depths 3 and 4 take an ACTIVE link to LOOPBACK when its completions have left (log 30). -/
def linkLoop (s : State) (d : Nat) : State :=
  if (d = 1 ∨ d = 2) ∧ linkState s ≠ 0 then linkTo s 1 else s

end Sys2Proof.Machine
end

