-- ==== Sys2Proof/Machine/Loader.lean ====
section
/-! DEFINITION. The context loader (chapter 11): the image body, the checks in their order, bindings, writing. -/

namespace Sys2Proof.Machine

/-! The encoding of a context word (R251, R288 to R290, R294 to R298, R308). -/

/-- What R294's operand column says of an opcode: ports that must be tokens, the port that may be a constant, whether `K` is
a parameter; `none` for a reserved row. -/
def opShape (op : Nat) : Option (Nat × Bool × Bool) :=
  if op = 0x16 ∨ op = 0x17 ∨ op = 0x34 ∨ (0x53 ≤ op ∧ op ≤ 0x56) ∨ op = 0x64 ∨ op = 0x72 ∨ op = 0x80 then some (1, false, false)
  else if (0x10 ≤ op ∧ op ≤ 0x1B) ∨ (0x20 ≤ op ∧ op ≤ 0x22) ∨ (0x28 ≤ op ∧ op ≤ 0x2D) ∨ (0x30 ≤ op ∧ op ≤ 0x33) ∨
      (0x38 ≤ op ∧ op ≤ 0x3C) ∨ op = 0x40 ∨ (0x60 ≤ op ∧ op ≤ 0x63) ∨ op = 0x70 ∨ op = 0x71 ∨ op = 0x81 then
    some (1, true, false)
  else if op = 0x1C ∨ op = 0x23 ∨ op = 0x41 then some (2, true, false)
  else if op = 0x50 ∨ op = 0x51 ∨ op = 0x90 then some (1, false, true)
  else if op = 0x52 then some (2, false, true)
  else if op = 0x82 ∨ op = 0x91 ∨ op = 0x92 then some (2, false, false)
  else none

/-- `FN` is one that an opcode lists (R295, R297, R298). -/
def fnOk (op fn : Nat) : Bool :=
  if op = 0x40 then fn < 10
  else if 0x60 ≤ op ∧ op ≤ 0x62 then fn < 8
  else if op = 0x90 then fn < 8 && fn % 4 != 3 && fn != 6
  else if op = 0x91 then fn < 3
  else if op = 0x92 then fn == 2
  else fn == 0

/-- The operand layout of R288 and R289: the first `n` operands come from ports, the next one may come from `K`. -/
def layoutOk (w : BitVec 128) (n : Nat) (orK : Bool) : Bool :=
  (List.range 3).all fun p =>
    let x := cSel w p
    (if p < n then x == 1 else if p = n && orK then x == 1 || x == 2 else x == 0) && (!cMerge w p || x == 1)

/-- FUs adjacent in a tile's grid (R243, R251). -/
def adjacent (a b : Nat) : Bool :=
  (a / 8 == b / 8 && (a % 8 + 1 == b % 8 || b % 8 + 1 == a % 8)) || (a % 8 == b % 8 && (a / 8 + 1 == b / 8 || b / 8 + 1 == a / 8))

/-- Output `o` keeps R251 and R290 for a producer at tile `t`, FU `f`. -/
def outOk (w : BitVec 128) (t f o : Nat) : Bool :=
  let kind := cKind w o
  let tile := cOut w o 13 6
  let fu := cOut w o 7 6
  let port := cOut w o 5 2
  let ctx := cOut w o 0 5
  cOen w o != 3 && (cOsel w o != 2 || cSel w 1 != 0) && (cOsel w o != 3 || cOp w == 0x2C || cOp w == 0x2D) &&
  (match kind with
  | 0 => tile == 0 && fu == 0 && port == 0 && ctx == 0 && cOen w o == 0 && cOsel w o == 0
  | 1 => tile == 0 && port != 3 && adjacent f fu
  | 2 => tile == 0 && port != 3
  | 3 => tile < 48 && tile != t && port != 3
  | 4 => tile == 0 && port == 0
  | 5 => tile == 0 && port == 0 && ctx == 0 && fu < 32
  | _ => false)

/-- The loader accepts a context word for tile `t`, FU `f` (R308). -/
def ctxOk (w : BitVec 128) (t f : Nat) : Bool :=
  if cOp w = 0 then w == 0
  else match opShape (cOp w) with
  | none => false
  | some (n, orK, param) =>
    fnOk (cOp w) (cFn w) && layoutOk w n orK && fld w 36 18 == 0 && fld w 0 4 == 0 &&
    (!param || cOp w == 0x90 || fieldOk (cK w)) && outOk w t f 0 && outOk w t f 1

/-! The image body (R343, R344). -/

/-- The covered tiles of a body, ascending. -/
def imgTiles (b : List Byte) : List Nat :=
  (List.range 48).filter fun t => (if t < 32 then word b 2 / 2 ^ t else word b 3 / 2 ^ (t - 32)) % 2 == 1
/-- The load is a full one. -/
def imgFull (b : List Byte) : Bool := word b 6 % 2 == 0
/-- `ARM_SWAP`. -/
def imgArm (b : List Byte) : Bool := word b 6 / 2 % 2 == 1
/-- The record count. -/
def imgCount (b : List Byte) : Nat := word b 4
/-- The remap table of the `i`-th covered tile. -/
def imgMap (b : List Byte) (i : Nat) : DWord := BitVec.ofNat 64 (leNat (cut b (64 + 8 * i) (72 + 8 * i)))
/-- Record `i`. -/
def imgRec (b : List Byte) (i : Nat) : List Byte :=
  let o := 64 + 8 * (imgTiles b).length + 24 * i
  cut b o (o + 24)
/-- The tile of a record. -/
def recTile (r : List Byte) : Nat := word r 0 % 64
/-- Its FU. -/
def recFu (r : List Byte) : Nat := word r 0 / 64 % 64
/-- Its physical context. -/
def recCtx (r : List Byte) : Nat := word r 0 / 4096 % 16
/-- Its context word. -/
def recWord (r : List Byte) : BitVec 128 := BitVec.ofNat 128 (leNat (cut r 4 20))
/-- The order of a record's slot. -/
def recKey (r : List Byte) : Nat := recTile r * 1024 + recFu r * 16 + recCtx r
/-- The records. -/
def imgRecs (b : List Byte) : List (List Byte) := (List.range (imgCount b)).map (imgRec b)

/-- An error of the loader: `ERROR`, `ERR0`, `ERR1`, records processed (R357, R358). -/
structure LdrErr where
  code : Nat
  e0 : Nat := 0
  e1 : Nat := 0
  done : Nat := 0
  deriving DecidableEq, Repr

/-- The place of a record as R358 gives it. -/
def recPlace (r : List Byte) : Nat := word r 0 % 65536

/-- The header, lengths and mask (check 1). -/
def headerOk (len : Nat) (b : List Byte) : Bool :=
  320 ≤ len && len ≤ 256 + kindLimit 3 && word b 0 == 0x4D544358 && word b 1 == 1 && word b 3 < 65536 &&
  imgCount b ≤ 49152 && word b 5 == stepping && word b 6 < 4 && word b 6 != 2 && (cut b 28 64).all (· == 0) &&
  len == 256 + 64 + 8 * (imgTiles b).length + 24 * imgCount b

/-- The first record out of order or outside the covered tiles (check 1). -/
def orderError (tiles : List Nat) : Nat → Option Nat → List (List Byte) → Option LdrErr
  | _, _, [] => none
  | i, last, r :: l =>
    if word r 0 < 65536 ∧ tiles.contains (recTile r) = true ∧ (match last with
        | some k => decide (k < recKey r)
        | none => true) = true then orderError tiles (i + 1) (some (recKey r)) l
    else some ⟨1, 0, i, i⟩

/-- The first record that fails a check of its own. -/
def recError (code : Nat) (ok : List Byte → Bool) : Nat → List (List Byte) → Option LdrErr
  | _, [] => none
  | i, r :: l => if ok r then recError code ok (i + 1) l else some ⟨code, recPlace r, i, i⟩

/-- A record's CRC is right (check 2). -/
def recCrcOk (r : List Byte) : Bool := crc32 (r.take 20) == word r 5

/-- Some logical context of a remap table names physical context `x`. -/
def mapNames (m : DWord) (x : Nat) : Bool := (List.range 16).any fun c => fld m (4 * c) 4 == x

/-- A physical context of a tile is parked (R347). -/
def parked (s : State) (t x : Nat) : Bool :=
  let v := s.tile t
  !mapNames (s.rd .TILE_REMAP_ACT t) x &&
  !(bit (s.rd .TILE_REMAP_CTRL t) 0 && mapNames (s.rd .TILE_REMAP_NEXT t) x) &&
  !((match v.kept with
    | some k => mapNames k.map x
    | none => false) || v.swaps.any fun k => mapNames k.2 x)

/-- Check 4 (R345 to R347). -/
def stateError (s : State) (b : List Byte) : Option LdrErr :=
  if imgFull b then
    ((imgTiles b).find? fun t => s.en (tileB t) || inflight s t != 0).map fun t => ⟨4, t, 0, imgCount b⟩
  else match (imgTiles b).find? fun t => bit (s.rd .TILE_REMAP_CTRL t) 0 with
  | some t => some ⟨4, t, 0, imgCount b⟩
  | none => recError 5 (fun r => parked s (recTile r) (recCtx r)) 0 (imgRecs b)

/-- Checks 1 to 4, in order (R349). -/
def checks (s : State) (len : Nat) (b : List Byte) : Option LdrErr :=
  if headerOk len b = false then some ⟨1, 0, 0xFFFFFFFF, 0⟩
  else
    let rs := imgRecs b
    (orderError (imgTiles b) 0 none rs).orElse fun _ =>
    (recError 2 recCrcOk 0 rs).orElse fun _ =>
    (recError 3 (fun r => ctxOk (recWord r) (recTile r) (recFu r)) 0 rs).orElse fun _ => stateError s b

/-! Bindings (R350). -/

/-- A live context of the checked configuration. -/
structure Live where
  tile : Nat
  fu : Nat
  pctx : Nat
  word : BitVec 128
  deriving DecidableEq, Repr

/-- The slots of a tile that hold a word: 16 × FU + context, ascending; without power it holds none (R581). -/
def slotsUsed (s : State) (t : Nat) : List Nat :=
  if columnOn s t = false then [] else sortBy id ((s.regs.filterMap fun e =>
    if e.1.reg = .CTX_WORD ∧ e.1.inst = t ∧ e.1.idx % 4 = 3 then some (e.1.idx / 4) else none))

/-- A tile's map in the checked configuration. -/
def checkedMap (s : State) (b : List Byte) (t : Nat) : DWord :=
  if (imgTiles b).contains t then imgMap b ((imgTiles b).idxOf t)
  else if bit (s.rd .TILE_REMAP_CTRL t) 0 then s.rd .TILE_REMAP_NEXT t else s.rd .TILE_REMAP_ACT t

/-- A tile's words in the checked configuration, in the order of its slots. -/
def checkedSlots (s : State) (b : List Byte) (t : Nat) : List (Nat × BitVec 128) :=
  let old := (slotsUsed s t).map fun i => (i, ctxWord s t (i / 16) (i % 16))
  if (imgTiles b).contains t then
    let new := ((imgRecs b).filter fun r => recTile r == t).map fun r => (recFu r * 16 + recCtx r, recWord r)
    let kept := if imgFull b then [] else old.filter fun o => !(new.any fun n => n.1 == o.1)
    sortBy Prod.fst (kept ++ new.filter fun n => n.2 != 0)
  else old

/-- The live contexts in the order of tile, FU and physical context. -/
def liveContexts (s : State) (b : List Byte) : List Live :=
  (List.range 48).flatMap fun t =>
    (checkedSlots s b t).filterMap fun x =>
      if cOp x.2 ≠ 0 ∧ mapNames (checkedMap s b t) (x.1 % 16) = true then some ⟨t, x.1 / 16, x.1 % 16, x.2⟩ else none

/-- A binding: its producer and output, its consumer port, its logical contexts. -/
structure Binding where
  src : Live
  out : Nat
  tile : Nat
  fu : Nat
  port : Nat
  ctxs : List Nat
  deriving DecidableEq, Repr

/-- The bindings of a live context. -/
def bindingsOf (s : State) (b : List Byte) (x : Live) : List Binding :=
  [0, 1].filterMap fun o =>
    let k := cKind x.word o
    if 1 ≤ k ∧ k ≤ 3 then
      some { src := x, out := o, tile := if k = 3 then cOut x.word o 13 6 else x.tile, fu := cOut x.word o 7 6
             port := cOut x.word o 5 2
             ctxs := if cOut x.word o 0 1 = 0 then [cOut x.word o 1 4]
               else (List.range 16).filter fun c => fld (checkedMap s b x.tile) (4 * c) 4 == x.pctx }
    else none

/-- The word of a consumer's physical context. -/
def liveWord (ls : List Live) (t f x : Nat) : BitVec 128 :=
  match ls.find? fun l => l.tile == t && l.fu == f && l.pctx == x with
  | some l => l.word
  | none => 0

/-- The logical context, if any, in which two bindings drive a port that does not merge. -/
def clash (s : State) (img : List Byte) (ls : List Live) (a b : Binding) : Option Nat :=
  if a.tile = b.tile ∧ a.fu = b.fu ∧ a.port = b.port then
    a.ctxs.find? fun c => b.ctxs.contains c && !cMerge (liveWord ls b.tile b.fu (fld (checkedMap s img b.tile) (4 * c) 4)) b.port
  else none

/-- The error of two producers (R358). -/
def driverError (a b : Binding) (c : Nat) : LdrErr :=
  let place (l : Live) : Nat := l.tile + 64 * l.fu + 4096 * l.pctx
  { code := 6, e0 := a.tile + 64 * a.fu + 4096 * c + 65536 * a.port + 2 ^ 20 * a.out + 2 ^ 21 * b.out
    e1 := place a.src + 65536 * place b.src }

/-- The first pair of bindings that clash, in the order of their producers (R350, R358). -/
def bindError (s : State) (img : List Byte) (ls : List Live) : List Binding → Option LdrErr
  | [] => none
  | a :: r =>
    match r.findSome? fun b => (clash s img ls a b).map (driverError a b) with
    | some e => some e
    | none => bindError s img ls r

/-! Running a load (R352 to R355). -/

/-- `TILE_LDR_STATUS.STATE`: 0 IDLE, 1 CHECKING, 2 BINDING, 3 VERIFYING, 4 WRITING, 5 DONE, 6 FAILED. -/
def ldrState (s : State) : Nat := s.rdf .TILE_LDR_STATUS 0 3
/-- A load is in progress. -/
def ldrBusy (s : State) : Bool := 1 ≤ ldrState s && ldrState s ≤ 4
/-- A load covers tile `t` (R355). -/
def ldrCovers (s : State) (t : Nat) : Bool := ldrBusy s && (imgTiles s.ldr.body).contains t

/-- An error shown with its location (R357, R358). -/
def ldrError (s : State) (e : LdrErr) : State :=
  ((s.wrf .TILE_LDR_STATUS 8 8 e.code).wr .TILE_LDR_ERR0 (BitVec.ofNat 64 e.e0)).wr .TILE_LDR_ERR1 (BitVec.ofNat 64 e.e1)

/-- The loader ends in FAILED (R351, R358). -/
def ldrFail (s : State) (e : LdrErr) : State := { ldrError (s.wrf .TILE_LDR_STATUS 0 3 6) e with ldr := {} }

/-- Records processed, saturating. -/
def ldrCount (s : State) (n : Nat) : State := s.wrf .TILE_LDR_STATUS 16 16 (min n 65535)

/-- A load starts: the image is read (R352, log 22). -/
def ldrStart (s : State) : State :=
  let len := (s.rd .TILE_LDR_LEN).toNat
  let o := if 320 ≤ len ∧ len ≤ 256 + kindLimit 3 then readObject s .loader (s.rd .TILE_LDR_ADDR).toNat len (kindLimit 3)
           else (s, .ok, [], [])
  { ((o.1.wr .TILE_LDR_STATUS 1).wr .TILE_LDR_ERR0 0).wr .TILE_LDR_ERR1 0 with
    ldr := { status := o.2.1, manifest := o.2.2.1, body := o.2.2.2 } }

/-- A write of `v` to `TILE_LDR_CMD` (R352): with both bits, ABORT acts first (log 23). -/
def ldrCommand (s : State) (v : Word) : State :=
  let s := if bit v 1 then
      (if 1 ≤ ldrState s ∧ ldrState s ≤ 3 then ldrFail s ⟨9, 0, 0, 0⟩ else s.refuse .devctl 0x104C v)
    else s
  if bit v 0 then
    if s.hold then ldrError (s.refuse .devctl 0x104C v) ⟨0x0A, 0, 0, 0⟩
    else if ldrBusy s then s.refuse .devctl 0x104C v
    else ldrStart s
  else s

/-- `CHECKING_DONE` (R349, R353). -/
def execCheckingDone (s : State) : Host.Outcome State Fault Refusal :=
  done (if ldrState s ≠ 1 then s
    else if s.ldr.status ≠ .ok then ldrFail (verifyFail s 3 0x0A) ⟨0x0B, 0, s.ldr.status.code, 0⟩
    else match checks s (s.rd .TILE_LDR_LEN).toNat s.ldr.body with
    | some e => ldrFail (ldrCount s e.done) e
    | none => (ldrCount s (imgCount s.ldr.body)).wrf .TILE_LDR_STATUS 0 3 2)

/-- `BINDING_DONE` (R350, R353). -/
def execBindingDone (s : State) : Host.Outcome State Fault Refusal :=
  done (if ldrState s ≠ 2 then s
    else
      let b := s.ldr.body
      let ls := liveContexts s b
      let s := s.wr .TILE_LDR_LIVE (BitVec.ofNat 64 (ls.length % 65536))
      match bindError s b ls (ls.flatMap (bindingsOf s b)) with
      | some e => ldrFail s e
      | none => s.wrf .TILE_LDR_STATUS 0 3 3)

/-- The loader's error for one of the BSC (R539, R357). -/
def ldrVerifyError (e : Nat) : LdrErr :=
  if e = 1 then ⟨1, 0, 0xFFFFFFFF, 0⟩ else if e = 3 then ⟨8, 0, 0, 0⟩ else ⟨7, 0, 0, 0⟩

/-- A load whose checks have passed goes on to WRITING, once HOLD ends (R354). -/
def ldrResume (s : State) : State :=
  if s.ldr.verified = true ∧ s.hold = false then
    { s.wrf .TILE_LDR_STATUS 0 3 4 with ldr := { s.ldr with verified := false } }
  else s

/-- `VERIFYING_DONE` (R353, R354): a load that passes waits in VERIFYING while HOLD is active. -/
def execVerifyingDone (s : State) : Host.Outcome State Fault Refusal :=
  done (if ldrState s ≠ 3 ∨ s.ldr.verified = true then s
    else
      let x := acceptImage s 3 (256 + s.ldr.body.length) s.ldr.manifest s.ldr.body
      if x.2 = 0 then ldrResume { x.1 with ldr := { x.1.ldr with verified := true } } else ldrFail x.1 (ldrVerifyError x.2))

/-- Every slot of a tile becomes EMPTY. -/
def clearSlots (s : State) (t : Nat) : State :=
  { s with regs := s.regs.filter fun e => !(e.1.reg == .CTX_WORD && e.1.inst == t) }

/-- A context word stored in its slot (R287). -/
def putContext (s : State) (t f x : Nat) (w : BitVec 128) : State :=
  [0, 1, 2, 3].foldl (fun s i => s.wr .CTX_WORD (BitVec.ofNat 64 (fld w (32 * i) 32)) t ((f * 16 + x) * 4 + i)) s

/-- The writes of a load (R345, R346, R479). -/
def ldrWrite (s : State) (b : List Byte) : State :=
  let ts := imgTiles b
  let s := if imgFull b then ts.foldl clearSlots s else s
  let s := (imgRecs b).foldl (fun s r => putContext s (recTile r) (recFu r) (recCtx r) (recWord r)) s
  let s := ts.foldl (fun s t =>
    let m := checkedMap s b t
    let s := s.wr .TILE_REMAP_NEXT m t
    if imgFull b then (s.wr .TILE_REMAP_ACT m t).wrf .TILE_REMAP_CTRL 0 1 0 t
    else if imgArm b then armTile (s.wrf .TILE_REMAP_CTRL 0 1 1 t) t else s) s
  if imgFull b then ts.foldl (fun s t => dropKept s (tileDomain s t)) s else s

/-- `WRITING_DONE` (R353, R354): writing pauses while HOLD is active. -/
def execWritingDone (s : State) : Host.Outcome State Fault Refusal :=
  done (if ldrState s ≠ 4 ∨ s.hold = true then s
    else { (ldrWrite s s.ldr.body).wrf .TILE_LDR_STATUS 0 3 5 with ldr := {} })

/-- Entry to Standby and resets B, E and W (R353): the loader is IDLE, and a load in progress ends with error ABORTED. -/
def ldrAbort (s : State) : State :=
  let s := if ldrBusy s then ldrError s ⟨9, 0, 0, 0⟩ else s
  { s.wrf .TILE_LDR_STATUS 0 3 0 with ldr := {} }

end Sys2Proof.Machine
end

