-- ==== Sys2Proof/Machine/Stair.lean ====
section
/-! DEFINITION. The Trigger Stair and the cross-trigger bus (chapter 05). -/

namespace Sys2Proof.Machine

/-! State as the registers show it. -/

/-- `STR_STATUS.ARMED`. -/
def armed (s : State) : Bool := bit (s.rd .STR_STATUS) 0
/-- The current step. -/
def stairStep (s : State) : Nat := s.rdf .STR_STATUS 8 6
/-- The Stair's holding changed. -/
def withStair (s : State) (f : Stair → Stair) : State := { s with stair := f s.stair }

/-! Conditions (R150 to R152, R165). -/

/-- A condition half-word tests true on levels now and before. -/
def condTest (c : Nat) (now before : Bool) : Bool :=
  match c / 512 % 4 with
  | 0 => now
  | 1 => !now
  | 2 => now && !before
  | _ => !now && before

/-- A condition of a step or counter, sampled. -/
def condSampled (v : Stair) (c : Nat) : Bool := condTest c (v.now.getLsbD (c % 512)) (v.prev.getLsbD (c % 512))

/-- A condition as `LUT_FAST` sees it (R165). -/
def condFast (v : Stair) (c : Nat) : Bool :=
  let src := c % 512
  if 304 ≤ src ∧ src < 320 then (v.balls.getLsbD (src - 304)) != (c / 512 % 2 == 1)
  else if v.moved && 2 ≤ c / 512 % 4 then false
  else condSampled v c

/-- The index that the four conditions of step `k` form (R152). -/
def condIndex (s : State) (k : Nat) (f : Nat → Bool) : Nat :=
  let cs := [s.rdf .STR_STEP_C01 0 16 0 k, s.rdf .STR_STEP_C01 16 16 0 k, s.rdf .STR_STEP_C23 0 16 0 k,
    s.rdf .STR_STEP_C23 16 16 0 k]
  cs.foldr (fun c a => 2 * a + (c / 2048 % 2 == 1 && f c).toNat) 0

/-- The Heath event lines as the Stair sees them at an edge (R133): a line that lies on a tree sourced from the timebase with
`DIV` ÷1 directly, any other through two synchroniser stages. -/
def seenLines (s : State) (lines direct : BitVec 256) : BitVec 256 :=
  let d := if (List.range 8).any fun i => treeRuns s i && s.rdf .HTH_CLK_CTRL 0 7 0 i == 17 then direct else 0
  (lines &&& d) ||| (s.stair.lines2 &&& ~~~d)

/-- The sources as the Stair samples them before an edge (R150); `lines` are the Heath event lines. -/
def stairSources (s : State) (lines : BitVec 256) : BitVec 512 :=
  let v := s.stair
  let events : Nat := (List.range 16).foldl (fun a j => a + (stairLine s j).toNat * 2 ^ j) 0
  lines.setWidth 512 ||| (v.exp2.setWidth 512 <<< 256) ||| (v.term.setWidth 512 <<< 288) ||| (v.trig2.setWidth 512 <<< 304) |||
    (v.es2.setWidth 512 <<< 320) ||| (BitVec.ofNat 512 events <<< 328) ||| (1#512 <<< 511)

/-! Drives (R163 to R165). -/

/-- The registered drives that the armed step asserts. -/
def driveWanted (s : State) : BitVec 16 :=
  if armed s then BitVec.ofNat 16 (s.rdf .STR_STEP_DRIVE 0 16 0 (stairStep s)) else 0

/-- The fast drives. -/
def driveFast (s : State) : BitVec 16 :=
  let k := stairStep s
  if armed s && (s.rdf .STR_STEP_FAST 0 16 0 k >>> condIndex s k (condFast s.stair)) % 2 == 1 then
    BitVec.ofNat 16 (s.rdf .STR_STEP_DRIVE 16 16 0 k) else 0

/-- The `TRIG` lines that this device asserts (R163). -/
def trigDriven (s : State) : BitVec 16 :=
  (s.stair.drive2 ||| driveFast s) &&& BitVec.ofNat 16 (s.rdf .STR_BUS_CTRL 0 16)

/-- `STR_TRIG_IN` as it reads. -/
def trigIn (s : State) : DWord := s.stair.trig.setWidth 64 ||| ((trigDriven s).setWidth 64 <<< 16)

/-! The stamp FIFO (R171). -/

/-- An entry behind those of earlier edges, and behind those of its own edge with a source value that is not greater. -/
def placeStamp (e : StampEntry) : List StampEntry → List StampEntry
  | [] => [e]
  | x :: r => if x.edge = e.edge ∧ e.source < x.source then e :: x :: r else x :: placeStamp e r

/-- A stamp entry written; a full FIFO drops what comes last. -/
def pushStamp (s : State) (t : DWord) (source : Nat) (rising : Bool) : State :=
  let s' := withStair s fun v =>
    { v with fifo := (placeStamp ⟨t, source, rising, s.rd .EPO_NUMBER, v.edges⟩ v.fifo).take 64 }
  if s.stair.fifo.length < 64 then s'.evt .stair 2 else (s'.count .STR_STAMP_LOST).evt .stair 3

/-- `STR_STAMP[w]` as it reads. -/
def strStamp (s : State) (w : Nat) : DWord :=
  match s.stair.fifo with
  | [] => 0
  | e :: _ =>
    match w with
    | 0 => ext (lo32 e.stamp)
    | 1 => ext (hi32 e.stamp)
    | 2 => BitVec.ofNat 64 (e.source + 65536 * e.rising.toNat + 2 ^ 31)
    | _ => ext (lo32 e.epoch)

/-- A write to `STR_STAMP_POP`. -/
def popStamp (s : State) : State := withStair s fun v => { v with fifo := v.fifo.drop 1 }

/-! Actions (R155 to R159). -/

/-- The capture queues of queue set `n` (R156); while their engine has no power nothing reaches them (DESIGN CHOICE, log 154). -/
def queueSet (s : State) (n : Nat) : List Nat :=
  let first := s.rdf .STR_QSET 0 10 0 n
  ((List.range (s.rdf .STR_QSET 16 10 0 n + 1)).map (first + ·)).filter fun q => s.up .gallery && gqKind s q == 0

/-- `MARK` (R156, R157). -/
def markAction (s : State) (n : Nat) (t : DWord) : State :=
  let s := (queueSet s n).foldl (fun s q =>
    let v := s.queue q
    if v.trig.isNone then s.setQueue q { v with trig := some t } else s) s
  (s.wr .STR_TRIG_STAMP t).evt .stair 1

/-- A counter set, running or not. -/
def counterOp (s : State) (i op : Nat) : State :=
  let s := if op = 1 ∨ op = 3 then s.wr .STR_CNT_VAL 0 0 i else s
  if op = 0 then s else withStair s fun v => { v with
    run := if op = 1 then v.run ||| (1#16 <<< i) else v.run &&& ~~~(1#16 <<< i) }

/-- An action word performed in step `k` at time `t` (R155). -/
def stairAction (s : State) (k a : Nat) (t : DWord) : State :=
  let n := a / 16 % 16
  let s := if a % 4 = 1 ∨ a % 4 = 2 then (queueSet s n).foldl (fun s q => setGate s q t (a % 4 == 1)) s else s
  let s := if a / 4 % 2 = 1 then markAction s n t else s
  let s := if a / 8 % 2 = 1 then pushStamp s t (0x100 + k) false else s
  counterOp s (a / 256 % 16) (a / 4096 % 4)

/-- A step becomes current (R153, R172). -/
def enterStep (s : State) (k : Nat) : State :=
  let s := withStair (s.wrf .STR_STATUS 8 6 k) fun v => { v with moved := true }
  if bit (s.rd .STR_STEP_NEXT 0 k) 16 then s.evt .stair 0 else s

/-- Running counters whose condition is true increment (R159). -/
def stairCount (s : State) : State :=
  (List.range 16).foldl (fun s i =>
    if s.stair.run.getLsbD i && condSampled s.stair (s.rdf .STR_CNT_CTRL 0 11 0 i) then s.count .STR_CNT_VAL 1 0 i else s) s

/-- The terminal conditions as the counters stand; each that rises with `TC_EVT` sets bit 4 (R159). -/
def stairTerms (s : State) : State :=
  let term (i : Nat) : Bool := decide ((s.rd .STR_CNT_CMP 0 i).toNat ≤ (s.rd .STR_CNT_VAL 0 i).toNat)
  let new : BitVec 16 := BitVec.ofNat 16 ((List.range 16).foldl (fun a i => a + (term i).toNat * 2 ^ i) 0)
  let rose := (List.range 16).any fun i => term i && !s.stair.term.getLsbD i && bit (s.rd .STR_CNT_CTRL 0 i) 12
  let s := withStair s fun v => { v with term := new }
  if rose then s.evt .stair 4 else s

/-- The current step evaluated at an edge (R153). -/
def evaluate (s : State) (t : DWord) : State :=
  let k := stairStep s
  let i := condIndex s k (condSampled s.stair)
  let go := (s.rdf .STR_STEP_LUT 0 16 0 k >>> i) % 2 == 1
  let alt := (s.rdf .STR_STEP_LUT 16 16 0 k >>> i) % 2 == 1
  let s := stairCount s
  if go then enterStep (stairAction s k (s.rdf .STR_STEP_ACT 0 16 0 k) t) (s.rdf .STR_STEP_NEXT 0 6 0 k)
  else if alt then enterStep (stairAction s k (s.rdf .STR_STEP_ACT 16 16 0 k) t) (s.rdf .STR_STEP_NEXT 8 6 0 k)
  else s

/-- The Stair disarms (R161): registered drives are released, counters stop, gates stay. -/
def stairDisarm (s : State) : State :=
  withStair (s.wrf .STR_STATUS 0 1 0) fun v => { v with
    run := 0, drive1 := 0, drive2 := 0, armReq := false, disarmReq := false }

/-- The Stair arms (R160). -/
def stairArm (s : State) : State :=
  let s := (List.range 16).foldl (fun s i => s.wr .STR_CNT_VAL 0 0 i) s
  enterStep (withStair (s.wrf .STR_STATUS 0 1 1) fun v => { v with run := 0, armReq := false })
    (s.rdf .STR_CTRL 0 6)

/-- What reset K of the Stair does at its edge (R161). -/
def stairClear (s : State) : State :=
  let s := clearRegs (stairDisarm s) .K (fun b => b == .stair)
  withStair s fun v => { v with fifo := [], clear := false, moved := false, term := 0, trig := 0 }

/-- One timebase edge of the Stair (R152, R153, R160, R161): `lines` are the Heath event lines, `direct` those that need no
synchroniser (R133). The edge does not move `PWR_TB`, and a tick of log 5 is no edge of the Stair (log 130). -/
def stairEdge (s : State) (lines direct : BitVec 256) : State :=
  let t := s.rd .PWR_TB
  let raw := if heathOut s then lines else 0
  let lines := seenLines s raw direct
  let s := (List.range 8).foldl (fun s i =>
    s.wr .HTH_EVL (BitVec.ofNat 64 (fld lines (32 * i) 32)) 0 i) s
  let src := stairSources s lines
  let s := withStair s fun v => { v with
    prev := v.now, now := src, moved := false, trig2 := v.trig1, trig1 := v.trig, es2 := v.es1, es1 := v.es
    exp2 := v.exp1, exp1 := s.exports
    lines2 := v.lines1, lines1 := raw, edges := v.edges + 1 }
  let s := if s.stair.armReq then stairArm s else if armed s then evaluate s t else s
  let s := if s.stair.clear then stairClear s else if s.stair.disarmReq then stairDisarm s else s
  stairTerms s

/-- A write of `v` to `STR_CMD` (R160, R161); both bits together are a reserved value, which changes nothing. -/
def stairCommand (s : State) (v : Word) : State :=
  if fld v 0 2 = 1 then
    if armed s then s.refuse .stair 0x044 v else withStair s fun u => { u with armReq := true }
  else if fld v 0 2 = 2 then withStair s fun u => { u with disarmReq := true }
  else s

/-- `STAIR_EDGE` (R153). -/
def execStairEdge (l : StairLines) (s : State) : Host.Outcome State Fault Refusal :=
  finish (stairEdge s l.lines l.direct)

/-- `TRIG_INPUT_CHANGE` (R165): the lines asserted at the balls; the fast drive follows them through `LUT_FAST`. -/
def execTrigInputChange (balls : BitVec 16) (s : State) : Host.Outcome State Fault Refusal :=
  done (withStair s fun v => { v with balls := balls })

/-- A rising edge of `TRIG_CLK` (R164): inputs are sampled, registered drives move one stage on. -/
def trigClkEdge (s : State) : State :=
  let want := driveWanted s
  withStair (s.wrf .STR_STATUS 16 1 1) fun v => { v with trig := v.balls, drive2 := v.drive1, drive1 := want }

/-- `TRIG_CLK_EDGE` (R164). -/
def execTrigClkEdge (s : State) : Host.Outcome State Fault Refusal := done (trigClkEdge s)

/-- `TCLK_LOST` (R164). -/
def execTclkLost (s : State) : Host.Outcome State Fault Refusal :=
  done (if bit (s.rd .STR_STATUS) 16 then
    (withStair (s.wrf .STR_STATUS 16 1 0) fun v => { v with drive1 := 0, drive2 := 0 }).evt .stair 5 else s)

/-- `TCLK_RESUME` (R164): the first rising edge. -/
def execTclkResume (s : State) : Host.Outcome State Fault Refusal := done (trigClkEdge s)

/-- A pin feeds event-stamp input `e` (R601), and its function has not just been switched (R604). -/
def stampPad (s : State) (e : Nat) : Bool :=
  (List.range 96).any fun n => s.rdf .GPIO_CFG 0 4 0 n == 2 && s.rdf .GPIO_CFG 4 3 0 n == e && tget 0 s.gpio.quiet n == 0

/-- `EVENT_STAMP_EDGE` (R169, R170): input `e` has held a level, whose pad transition was at `t`; one held for less than the
filter time is discarded. The chapter only names `EN`: with `EN` 0 the input is not looked at, and source 320 + `e` keeps its last
accepted level (DESIGN CHOICE, log 153). -/
def execEventStampEdge (e : Fin 8) (l : HeldLevel) (t : DWord) (s : State) : Host.Outcome State Fault Refusal :=
  done (
    let c := s.rd .STR_ES_CTRL 0 e
    if bit c 0 = false ∨ s.stair.es.getLsbD e = l.level ∨ l.ticks < fld c 4 4 ∨ stampPad s e = false then s
    else
      let s := withStair s fun v => { v with
        es := if l.level then v.es ||| (1#8 <<< e.val) else v.es &&& ~~~(1#8 <<< e.val) }
      let edge := fld c 1 2
      if bit c 3 && (edge == 2 || (edge == 0) == l.level) then pushStamp s t e l.level else s)

end Sys2Proof.Machine
end

