-- ==== Sys2Proof/Machine/Pins.lean ====
section
/-! DEFINITION. Pins and GPIO (chapter 22): the pad's output, pin events, `PPS_IN`, the SMBus target. -/

namespace Sys2Proof.Machine

/-- A field of `GPIO_CFG[n]` (R615). -/
def cfg (s : State) (n lo w : Nat) : Nat := s.rdf .GPIO_CFG lo w 0 n

/-- Pin `n`'s bit in a register of three words. -/
def pinBit (s : State) (r : Reg) (n : Nat) : Bool := bit (s.rd r 0 (n / 32)) (n % 32)

/-- What the function of a pin drives (R134, R601): `heath` is the value and enable of the Heath's design. -/
def funcDrive (s : State) (n : Nat) (heath : Option Bool) : Option Bool :=
  match cfg s n 0 4 with
  | 0 => if pinBit s .GPIO_OE n then some (pinBit s .GPIO_OUT n) else none
  | 1 => if heathOut s then heath else none
  | 3 => some s.gpio.epochOut
  | _ => none

/-- What a pad drives (R134, R601 to R603). `claim` is what the Heath's design gives a pad that it claims: where the pin's
function is another one, one of the two drives, and which is the device's own (R610). -/
def padDrive (s : State) (n : Nat) (claim : Option (Option Bool)) : Option Bool :=
  let heath := claim.getD none
  let v := if claim.isSome && cfg s n 0 4 != 1 && Config.heathWinsPad n then (if heathOut s then heath else none)
    else funcDrive s n heath
  if bankSupplyOk s (n / 24) = false then none
  else if cfg s n 12 1 = 1 then (if v = some false then v else none)
  else v

/-- The pull of a pad: 0 none, 1 up, 2 down, 3 keeper (R134, R615). -/
def padPull (s : State) (n : Nat) : Nat := if cfg s n 0 4 = 1 ∧ heathOut s = false then 0 else cfg s n 8 2

/-- `GPIO_BANK[b]` written: its monitor's last reading stands against the new range (R558, R603). -/
def bankWrite (s : State) (b : Nat) : State :=
  let v := s.rd .HLT_VMON 0 (19 + b)
  if v = 0 then s else takeVolt s (19 + b) (v.setWidth 12)

/-- The power controller learns of a wake pin in Standby (R586, R609). -/
def wakePin (s : State) (n : Nat) : State :=
  if cfg s n 24 1 = 1 ∧ cfg s n 16 3 ≠ 0 ∧ bit (s.rd .PWR_WAKE_EN) 0 = true ∧ (s.pwrState = 2 ∨ s.pwrState = 3) then
    if s.pwrState = 3 ∧ s.hold = false then s.wrf .PWR_STATUS 0 3 4
    else { s with power := { s.power with wake := true } }
  else s

/-- Pin `n`'s event bit sets (R607). -/
def pinEvent (s : State) (n : Nat) : State :=
  wakePin (s.orIn .GPIO_EVT (BitVec.ofNat 64 (2 ^ (n % 32))) 0 (n / 32)) n

/-- A level condition that holds sets its bit (R607). -/
def pinLevel (s : State) (n : Nat) : State :=
  if (cfg s n 16 3 = 4 ∧ s.gpio.filt.getLsbD n = true) ∨ (cfg s n 16 3 = 5 ∧ s.gpio.filt.getLsbD n = false)
  then pinEvent s n else s

/-- After a W1C write of `GPIO_EVT[w]`, bits whose level persists stay set (R11, R607). -/
def pinLevels (s : State) (w : Nat) : State := (List.range 32).foldl (fun s i => pinLevel s (32 * w + i)) s

/-- The edge detector accepts a level of pin `n` (R607). -/
def pinAccept (s : State) (n : Nat) (level : Bool) : State :=
  let old := s.gpio.filt.getLsbD n
  let m : BitVec 96 := 1#96 <<< n
  let s := { s with gpio := { s.gpio with filt := if level then s.gpio.filt ||| m else s.gpio.filt &&& ~~~ m } }
  let e := cfg s n 16 3
  if old ≠ level ∧ ((e = 1 ∧ level = true) ∨ (e = 2 ∧ level = false) ∨ e = 3) then pinEvent s n else pinLevel s n

/-- `GPIO_PIN_EVENT` (R605, R607, R608): the pad of pin `n` has held a level; `GPIO_IN` shows it, and the edge detector accepts
it after its filter time, but not right after a switch of the pin's function (R604). -/
def execGpioPinEvent (n : Fin 96) (l : HeldLevel) (s : State) : Host.Outcome State Fault Refusal :=
  done <|
    let s := s.wrf .GPIO_IN (n % 32) 1 l.level.toNat 0 (n / 32)
    if l.ticks < cfg s n 20 4 ∨ tget 0 s.gpio.quiet n.val ≠ 0 then s else pinAccept s n l.level

/-- The level of a pad once its new function's output applies (R604 step 3): what the device drives, else what the pad had. -/
def padLevel (s : State) (n : Nat) : Bool :=
  let claim := if cfg s n 0 4 = 1 ∨ Config.heathClaims s.heath.frames n = true then some (Config.heathPad s.heath.fab.edges n)
    else none
  (padDrive s n claim).getD (pinBit s .GPIO_IN n)

/-- An event-stamp input that a pin comes to feed takes the pad's level as it is (R604); one that is not enabled stays (log 153). -/
def stampLevel (s : State) (n : Nat) (level : Bool) : State :=
  let e := cfg s n 4 3
  if cfg s n 0 4 = 2 ∧ bit (s.rd .STR_ES_CTRL 0 e) 0 = true then
    withStair s fun v => { v with es := if level then v.es ||| (1#8 <<< e) else v.es &&& ~~~(1#8 <<< e) }
  else s

/-- `GPIO_CFG[n]` written `new` (R604): where `FUNC` or `SUB` changes, the write's response returns after the break, and the
detector holds the level of step 3 for two ticks more, as the event-stamp input does (log 131). -/
def pinSwitch (s : State) (n : Nat) (old new : DWord) : State :=
  let s := s.wr .GPIO_CFG new 0 n
  if fld old 0 7 = fld new 0 7 then pinLevel s n
  else
    let m : BitVec 96 := 1#96 <<< n
    let l := padLevel s n
    let s := s.wrf .GPIO_IN (n % 32) 1 l.toNat 0 (n / 32)
    pinLevel (stampLevel { s with gpio := { s.gpio with
      quiet := tset id 0 s.gpio.quiet n 2
      filt := if l then s.gpio.filt ||| m else s.gpio.filt &&& ~~~ m } } n l) n

/-- A tick of the detectors that ignore changes after a switch; one that sees them again takes the pad's level (R604). -/
def pinTick (s : State) : State :=
  s.gpio.quiet.foldl (fun s e =>
    let s := { s with gpio := { s.gpio with quiet := tset id 0 s.gpio.quiet e.1 (e.2 - 1) } }
    if e.2 = 1 ∧ cfg s e.1 20 4 = 0 then pinAccept s e.1 (pinBit s .GPIO_IN e.1) else s) s

/-- `PPS_EDGE` (R612, R614). -/
def execPpsEdge (t : DWord) (s : State) : Host.Outcome State Fault Refusal :=
  done ((s.wr .GPIO_PPS_STAMP t).count .GPIO_PPS_CNT)

/-- The word of an SMBus command (R613). -/
def smbusWord (s : State) (cmd : Nat) : Option (BitVec 16) :=
  let low (r : Reg) : Option (BitVec 16) := some ((s.rd r).setWidth 16)
  match cmd with
  | 1 => low .PWR_RESET_CAUSE
  | 2 => low .PWR_STATUS
  | 3 => low .SEC_BOOT_STATUS
  | 4 => some (BitVec.ofNat 16 (toBits 12 ((temps s).foldl max (-2048))))
  | 5 => low .HLT_TEMP_MAX
  | 6 => low .HLT_EXCURSIONS
  | 7 => low .HLT_WEAR_MAX
  | 8 => low .HLT_AVS_SET
  | _ => none

/-- `SMBUS_READ_WORD` (R613): a write, and a command not listed, is NACKed; another address is not answered. -/
def execSmbusReadWord (addr : BitVec 7) (write : Bool) (cmd : BitVec 8) (s : State) : Host.Outcome State Fault Refusal :=
  done <|
    if addr.toNat = s.rdf .GPIO_SMB_CTRL 0 7 then
      { s with gpio := { s.gpio with smbus := if write then none else smbusWord s cmd.toNat } }
    else s

end Sys2Proof.Machine
end

