-- ==== Sys2Proof/Machine/Power.lean ====
section
/-! DEFINITION. Power domains, device states, supply events and resets (chapter 21). -/

namespace Sys2Proof.Machine

/-- The device state set (R583). -/
def pwrTo (s : State) (st : Nat) : State := s.wrf .PWR_STATUS 0 3 st
/-- The power controller's holding changed. -/
def withPower (s : State) (f : Power → Power) : State := { s with power := f s.power }

/-! What a block loses when its domain is gated (R581). -/

/-- A lane without power: its capture port discards an open record (R637). -/
def laneOff (s : State) (l : Fin 24) : State := (discardOpen s l).setLane l {}

/-- A quad without power; a bonding group with a member in it leaves ALIGNED (R96, R637). -/
def quadOff (s : State) (q : Fin 6) : State :=
  let s := ((List.finRange 24).filter fun l => l.val / 4 == q.val).foldl laneOff s
  let s := (List.range 4).foldl (fun s g =>
    if (members s g).any (fun l => l.val / 4 == q.val) && (s.group g).state == .aligned then
      groupTo (discardOpen s (24 + g)) g .search
    else s) s
  s.setPll q .off

/-- The gap tests of tiles that lose their power start over (R573, R581). -/
def dropGaps (s : State) (p : Nat → Bool) : State :=
  { s with health := { s.health with gaps := s.health.gaps.filter fun e => !p (e.1 / 64) } }

/-- A core without power: its slots empty (R430), its banks and memories go (R410, R411). -/
def corePowerOff (s : State) (k : Nat) : State := coreMemClear (coreOff (emptySlots s k) k) k

/-- The scheduler without power. -/
def schedOff (s : State) : State := { s with sched := {}, slots := [] }

/-- The contents of a power domain go (R579, R581). A channel keeps its contents only in self-refresh (R239). -/
def domainGone (s : State) (d : Nat) : State :=
  let s := dropReqsOf s (· == .dom d)
  if d < 4 then
    tilesOff (dropGaps s fun t => t % 8 / 2 == d) fun t => t % 8 / 2 == d
  else if d < 8 then
    let s := ((List.range 32).filter fun k => k / 8 + 4 == d).foldl corePowerOff s
    if d = 4 then schedOff s else s
  else if d = 8 then heathClear s
  else if h : d < 15 then quadOff s ⟨d - 9, by omega⟩
  else if d < 23 then s.setMc (d - 15) {}
  else linkOff s

/-- The blocks of a domain. -/
def inDomain (d : Nat) (b : Block) : Bool := placeOf b == .dom d

/-! Switching a domain (R580 to R582). -/

/-- A power-down begins: the boundary ports drain (R504). -/
def drainStart (s : State) (d : Nat) : State :=
  if s.domSt d = .on then { s with dom := tset id .on s.dom d .draining } else s

/-- Domain `d` refuses to power down: its channel is neither OFF nor in self-refresh, or the host would lose its link (R580). -/
def powerBusy (s : State) (q : Requester) (d : Nat) : Bool :=
  if 15 ≤ d ∧ d < 23 then mcState s (d - 15) != 0 && mcState s (d - 15) != 4 else d == 23 && q == .host

/-- An accepted `PWR_REQ` = 0b01: the domain drains now, or when HOLD ends (R580, R582). -/
def powerDown (s : State) (d : Nat) : State :=
  if s.hold then withPower s fun p => { p with down := p.down ||| (1#24 <<< d) } else drainStart s d

/-- `PWR_REQ` written 0b00 takes back a power-down that waits for HOLD to end (log 34). -/
def powerKeep (s : State) (d : Nat) : State := withPower s fun p => { p with down := p.down &&& ~~~ (1#24 <<< d) }

/-- A drain is over: the domain is off (R504, R581), and tokens held up before a column group go to its boundary (R275). One
that Standby entry drains takes no more accesses and no more responses, and is gated with the others (R585). -/
def drainEnd (s : State) (d : Nat) : State :=
  if s.domSt d ≠ .draining then s
  else if bit s.power.entered d then dropReqsOf { s with dom := tset id .on s.dom d .off } (· == .dom d)
  else
    let s := domainGone s d
    let s := { s with dom := tset id .on s.dom d .off }.wrf .PWR_DOM_STATUS d 1 0
    if d < 4 then express s else s

/-- `DRAIN_COMPLETE` (R504). -/
def execDrainComplete (d : Fin 24) (s : State) : Host.Outcome State Fault Refusal :=
  finish (if s.hold then s else drainEnd s d)

/-- A request into domain `d` that is still outstanding. -/
def intoDomain (s : State) (d : Nat) (r : Req) : Bool := targetPlace s r.addr == .dom d && !r.lost && !r.late

/-- The requests into a domain that are still outstanding are answered DOMAIN_OFF by its boundary routers (R504). -/
def answerOff (s : State) (d : Nat) : State :=
  let s' := (s.reqs.filter (intoDomain s d)).foldl (fun s r => s.count .CRT_DOMOFF_CNT 1 r.router) s
  { s' with reqs := s.reqs.map fun r => if intoDomain s d r then { r with status := .domainOff, data := [], port := none } else r }

/-- `DRAIN_TIMEOUT` (R504): requests whose answers have not come by then get none from the domain (log 156). -/
def execDrainTimeout (d : Fin 24) (s : State) : Host.Outcome State Fault Refusal :=
  finish (if s.hold = true ∨ s.domSt d ≠ .draining then s else drainEnd (answerOff s d) d)

/-- The page that heads a domain (R579). -/
def headPage (d : Nat) : Nat :=
  if d < 4 then 0x100 + 2 * d else if d < 8 then 0x600 + 8 * (d - 4) else if d = 8 then 0xA00
  else if d < 15 then 0x280 + (d - 9) else if d < 23 then 0x300 + (d - 15) else 0xF00

/-- A domain that is off powers up, its `PWR_REQ` 0b00 (R580). -/
def powerUp (s : State) (d : Nat) : State :=
  if s.hold then withPower s fun p => { p with up := p.up ||| (1#24 <<< d) }
  else if s.domSt d = .off ∧ bit s.power.entered d = false then
    { s with dom := tset id .on s.dom d .powering }.wrf .BLK_CTRL 2 2 0 (headPage d)
  else s

/-- A write of `PWR_ON`. -/
def powerOnWrite (s : State) (v : Word) : State :=
  (List.range 24).foldl (fun s d => if bit v d then powerUp s d else s) s

/-- An enabled quad that comes back to power locks its PLL (R75, R580); its enabled lanes adapt anew where their kept `MODE`
says so (R80), and bonding groups stand as their members' kept settings have them (R93, R96). -/
def quadOn (s : State) (q : Fin 6) : State :=
  regroupAll (((List.finRange 24).filter fun l => l.val / 4 == q.val).foldl
    (fun s l => if s.en (.lane l) then adaptMode s l else s) (pllStart s q))

/-- Tiles that have been without power stand at the current epoch. -/
def tilesNow (s : State) (p : Nat → Bool) : State :=
  ((List.range 48).filter p).foldl (fun s t => s.setTile t { s.tile t with epoch := epochNow s, hi := 0 }) s

/-- `DOMAIN_POWER_UP_COMPLETE` (R580, R581): registers without T return to their power-on values. -/
def execDomainPowerUpComplete (d : Fin 24) (s : State) : Host.Outcome State Fault Refusal :=
  done <|
    if s.domSt d = .powering ∧ s.hold = false then
      let s := clearRegs s .T (inDomain d)
      let s := { s with dom := tset id .on s.dom d .on }.wrf .PWR_DOM_STATUS d 1 1
      if h : 9 ≤ d.val ∧ d.val < 15 then quadOn s ⟨d - 9, by omega⟩
      else if d.val < 4 then tilesNow s fun t => t % 8 / 2 == d.val
      else if d.val = 8 then heathClear s
      else if d.val = 23 then linkOff s
      else s
    else s

/-! Quiet (R583, R584). -/

/-- A capture gate is open (R193). -/
def gateOpen (s : State) (q : Nat) : Bool := gqEn s q && gqKind s q == 0 && gateAt (s.queue q) (BitVec.allOnes 64)

/-- A core is STOPPED or WAITING (R412, R584). -/
def coreQuiet (s : State) (k : Nat) : Bool :=
  let r := (scState s k).toNat % 4
  r == 0 || r == 2

/-- The conditions of R584. -/
def quietOk (s : State) : Bool :=
  !(s.regs.any fun e => e.1.reg == .GQ_CTRL && gateOpen s e.1.inst) &&
  !bit (s.rd .STR_STATUS) 0 && (s.sched.items.filter inWindow).isEmpty &&
  (List.range 32).all (coreQuiet s) && (List.range 48).all (fun t => inflight s t == 0) &&
  (List.range 64).all (fun b => !dmaBusy s b) &&
  !(hthState s == 1 || hthState s == 2) && (s.rdf .TILE_LDR_STATUS 0 3 == 0 || 5 ≤ s.rdf .TILE_LDR_STATUS 0 3) &&
  (List.range 16).all fun i => !(bit (s.rd .RLK_BS_CTRL 0 i) 0) || (match streamQueue s i with
    | some q => gqRead s q == gqWrite s q
    | none => true)

/-- Quiet ends: on `PWR_CMD` ACTIVE and on any Raold Link transaction (R583). -/
def quietEnd (s : State) : State := if s.pwrState = 1 then pwrTo s 0 else s

/-! Standby (R585 to R588). -/

/-- Tail caches of every queue are written out (R213). -/
def flushTails (s : State) : State :=
  s.queues.foldl (fun s e => if e.2.tail = [] then s else flushTail s e.1 e.2.tail) s

/-- The domains that Standby gates: all but Raold Link's (R579). -/
def standbyDomains : List Nat := List.range 23

/-- The gated domains that are on begin to drain (R504, R585 step 3). -/
def drainAll (s : State) : State :=
  let on := standbyDomains.filter fun d => s.domSt d == .on
  let s := on.foldl drainStart s
  withPower s fun p => { p with entered := on.foldl (fun w d => w ||| (1#24 <<< d)) 0 }

/-- The first steps of Standby entry (R432, R585 steps 1 to 3). -/
def standbyStart (s : State) : State := drainAll (flushTails (leaveItems (stairDisarm s)))

/-- The domains that Standby entry has drained count as on again: gating and wake take them from here (R585, R587). -/
def drainedAll (s : State) : State :=
  let s := (standbyDomains.filter fun d => bit s.power.entered d).foldl
    (fun s d => { s with dom := tset id .on s.dom d .on }) s
  withPower s fun p => { p with entered := 0, woken := false }

/-- What the gated blocks hold goes (R277, R137, R430, R485, R585 step 6); the link stays. -/
def gatedGone (s : State) : State :=
  let s := (List.range 48).foldl tileClear (dropGaps s fun _ => true)
  let s := (List.range 32).foldl (fun s k => coreMemClear (coreOff s k) k) s
  let s := (List.range 24).foldl (fun s l => discardOpen s l) s
  let s := (List.range 8).foldl (fun s i => discardOpen s (24 + i)) s
  let s := (List.range 8).foldl (fun s i => discardOpen s (32 + i)) s
  let s := s.queues.foldl (fun s e => discardHeld s e.1) s
  let s := s.queues.foldl (fun s e =>
    let v := s.queue e.1
    s.setQueue e.1 { v with head := [], trig := none, stalled := false }) s
  let s := heathClear s
  { s with lanes := [], groups := [], quads := [], ports := [], discOut := [], slots := [], reqs := [],
           detourDiff := [], epo := { s.epo with doms := [], pairs := [], detected := [] } }

/-- Standby is entered (R585 steps 4 to 6). -/
def standbyEnter (s : State) : State :=
  let s := dmaAbortAll (drainedAll s)
  let s := ldrAbort s
  let s := flushTails (gatedGone s)
  let s := (List.finRange 8).foldl mcSleep s
  let s := pwrTo (banksSleep s) 3
  if s.power.wake then withPower (pwrTo s 4) fun p => { p with wake := false } else s

/-- `STANDBY_ENTERED`; it waits for HOLD to end (R582). -/
def execStandbyEntered (s : State) : Host.Outcome State Fault Refusal :=
  finish (if s.pwrState = 2 ∧ s.hold = false then standbyEnter s else s)

/-- A wake source (R583, R586): it acts in STANDBY, and one that comes in ENTERING as soon as STANDBY is reached. -/
def wakeUp (s : State) : State :=
  if s.pwrState = 3 ∧ s.hold = false then pwrTo s 4
  else if s.pwrState = 2 ∨ s.pwrState = 3 then withPower s fun p => { p with wake := true }
  else s

/-- A wake source is enabled and present (R586, R609). -/
def wakeValid (s : State) : WakeSource → Bool
  | .link => s.up .link
  | .pin n => bit (s.rd .PWR_WAKE_EN) 0 && cfg s n 24 1 == 1 && cfg s n 16 3 != 0 && pinBit s .GPIO_EVT n
  | .bsc => bit (s.rd .PWR_WAKE_EN) 1 && bscRequest s

/-- `WAKE` (R586). -/
def execWake (w : WakeSource) (s : State) : Host.Outcome State Fault Refusal :=
  done (if wakeValid s w then wakeUp s else s)

/-- A ping-pong queue whose banks were not all kept is reset, its entries lost (R213). -/
def pingPongWake (s : State) (kept : Nat → Bool) : State :=
  s.regs.foldl (fun s e =>
    let q := e.1.inst
    if e.1.reg = .GQ_CTRL ∧ gqEn s q = true ∧ gqPing s q = true ∧
        !((List.range 64).all fun b => kept b ||
          !(decide (gqBase s q ≤ bankBase + b * 2 ^ 18) && decide (bankBase + b * 2 ^ 18 < gqBase s q + gqCap s q))) then
      (queueResetOp s q).orIn .GQ_STATUS 2 q
    else s) s

/-- The wake sequence's first steps (R587 steps 1 to 3): registers without T return to their power-on values; the quads begin to
lock, the channels to leave self-refresh; the watchdog starts its full count again (R593). -/
def wakeStart (s : State) : State :=
  let kept (b : Nat) : Bool := s.rdf .SPB_PWR 4 2 b != 2
  let s := clearRegs s .T fun _ => true
  let s := banksWake { s with exports := 0, stair := { s.stair with fifo := [], trig := 0, exp1 := 0, exp2 := 0 } }
  let s := releaseLeft { pingPongWake s kept with sched := { items := s.sched.items } }
  let s := tilesNow s fun _ => true
  let s := (List.range 4).foldl (fun s d => s.setDomain d { next := epochNow s }) s
  let s := (List.finRange 6).foldl (fun s q => if s.domSt (9 + q) = .on then quadOn s q else s) s
  let s := (List.finRange 8).foldl (fun s c => if s.en (.mc c) && s.domSt (15 + c) == .on then mcWake s c else s) s
  let s := { s with heath := { s.heath with switching := (List.range 8).filter fun i => bit (s.rd .HTH_CLK_CTRL 0 i) 7 } }
  withPower (s.wr .PWR_WDT_LEFT (if bit (s.rd .PWR_WDT_CTRL) 0 then BitVec.ofNat 64 (s.rdf .PWR_WDT_CTRL 16 16) else 0))
    fun p => { p with wdt := 0, woken := true }

/-- Step 3 of the wake is over (R587): no PLL has still to lock, no channel to train; one that has failed to is not waited for. -/
def wakeReady (s : State) : Bool :=
  (List.finRange 6).all (fun q => s.domSt (9 + q) != .on || s.pll q != .locking) &&
  (List.finRange 8).all fun c => s.domSt (15 + c) != .on || mcState s c != 2

/-- `WAKE_COMPLETE` (R587): the wake begins, and is complete once the quads have locked and the channels have trained (R75, R227);
then the Heath reloads its golden copy (R144). -/
def execWakeComplete (s : State) : Host.Outcome State Fault Refusal :=
  finish <|
    if s.pwrState = 4 ∧ s.hold = false then
      let s := if s.power.woken then s else wakeStart s
      if wakeReady s then
        let gone (b : Nat) : Bool := s.rdf .SPB_PWR 4 2 b == 2
        let s := pwrTo (withPower s fun p => { p with woken := false }) 0
        if s.domSt 8 = .on then heathWake s gone else s
      else s
    else s

/-- A write to `PWR_CMD` (R583). -/
def pwrCommand (s : State) (q : Requester) (v : Word) : State :=
  match fld v 0 3 with
  | 1 => if s.pwrState = 0 then (if quietOk s then pwrTo s 1 else s.refuse .devctl 0x080 v) else s
  | 2 =>
    if s.pwrState < 2 then
      if s.hold then withPower (pwrTo s 2) fun p => { p with entry := true } else standbyStart (pwrTo s 2)
    else s
  | 3 => quietEnd s
  | 4 => if q = .host then wakeUp s else s
  | _ => s

/-! HOLD (R589 to R591). -/

/-- `HOLD_START` (R590). -/
def execHoldStart (s : State) : Host.Outcome State Fault Refusal :=
  done (if s.hold then s else (s.wrf .PWR_STATUS 4 1 1).evt .health 0)

/-- The record of a supply excursion (R591). -/
def excursion (s : State) (mv us : Nat) : State :=
  (s.count .HLT_EXCURSIONS).wr .HLT_EXC_LAST (BitVec.ofNat 64 (min mv 1023 + 4096 * min us (2 ^ 20 - 1)))

/-- What waited for the end of HOLD proceeds (R142, R582). -/
def resumeHeld (s : State) : State :=
  let p := s.power
  let s := withPower s fun p => { p with down := 0, up := 0, entry := false, wake := p.wake && s.pwrState == 2 }
  let s := (List.range 24).foldl (fun s d => if bit p.down d then drainStart s d else s) s
  let s := (List.range 24).foldl (fun s d => if bit p.up d then powerUp s d else s) s
  let s := if p.entry then standbyStart s else s
  let s := if p.wake ∧ s.pwrState = 3 then pwrTo s 4 else s
  ldrResume (hthReady s)

/-- `HOLD_END` (R591): HOLD has lasted the 50 µs at least that the supply must stay above the level at which it ends. -/
def execHoldEnd (mv us : Nat) (s : State) : Host.Outcome State Fault Refusal :=
  finish (if s.hold && decide (50 ≤ us) then resumeHeld (excursion (s.wrf .PWR_STATUS 4 1 0) mv us) else s)

/-! Resets (R592 to R596). -/

/-- What resets B, E and W leave of the state beside the registers and the channels: memory, fuses, spill generations, the
banks' repair maps, the ledger's history and the lines that come from outside. -/
def resetUnits (s : State) : State :=
  let s := (List.range 48).foldl tileClear s
  { s with
    reqs := [], detourDiff := [], heldEvents := [], hostEvents := [], resetting := [], dom := [], lanes := [], groups := [],
    quads := [], queues := []
    ports := [], bounds := [], sched := {}, slots := [], cores := [], exports := 0, epo := {}, hthOut := [], discOut := []
    heath := {}, ldr := {}, sec := {}
    spbs := (s.spbs.filter fun e => e.2.used != 0).map fun e => (e.1, { used := e.2.used }), handing := [], posted := []
    mcs := (s.mcs.filter fun e => e.2.scrubAt != 0).map fun e => (e.1, { scrubAt := e.2.scrubAt })
    stair := { balls := s.stair.balls, es := s.stair.es }
    health := { seen := s.health.seen, mayFall := s.health.mayFall }
    gpio := { filt := s.gpio.filt }
    power := { cause := s.power.cause, full := s.power.full && s.power.inReset } }

/-- Reset B, E or W (R594): the registers keep their values per their letters; `chan` is what happens to a channel. -/
def deviceReset (s : State) (l : Letter) (cause : BitVec 6) (chan : State → Fin 8 → State) : State :=
  let s := dmaAbortAll (ldrAbort s)
  let s := (List.finRange 8).foldl chan s
  let s := linkOff (clearRegs (resetUnits s) l fun _ => true)
  withPower s fun p => { p with cause := p.cause ||| cause }

/-- `RESET_P` (R592): the fuses stay programmed; everything else is as after power-on. -/
def execResetP (s : State) : Host.Outcome State Fault Refusal :=
  done { State.reset with pending := s.pending, fuses := s.fuses, draws := s.draws }

/-- `RESET_B` (R237, R591, R592): channel faults that it records come after the registers have been reset. -/
def execResetB (sram : Bool) (kept : Kept) (mv us : Nat) (s : State) : Host.Outcome State Fault Refusal :=
  done <|
    let s := if s.hold then excursion s mv us else s
    let lost : List (Fin 8) := (List.finRange 8).filter fun (c : Fin 8) => let st := mcState s c
      (st == 3 || st == 4 || (st == 2 && mcValid s c)) && !kept.chans.getLsbD c
    let s := deviceReset s .B (if sram then 0x22 else 2) fun s c => mcResetB s c (kept.chans.getLsbD c) kept.unissued
    lost.foldl (fun s c => s.fault (.mc c) 0x0103) s

/-- `RESET_E` (R592, R593). -/
def execResetE (s : State) : Host.Outcome State Fault Refusal := done (deviceReset s .E 4 mcResetEW)

/-- The watchdog's count has reached 0 where it counts: not in Standby, nor in a reset (R593). -/
def wdtDue (s : State) : Bool := bit (s.rd .PWR_WDT_CTRL) 0 && s.rdf .PWR_WDT_LEFT 0 16 == 0 && !s.asleep && !s.power.inReset

/-- `WATCHDOG_EXPIRY` (R593): reset W, as the count has reached 0. -/
def execWatchdogExpiry (s : State) : Host.Outcome State Fault Refusal :=
  done (if wdtDue s then deviceReset s .W 8 mcResetEW else s)

/-- The watchdog's count starts again (R593). -/
def wdtRestart (s : State) : State :=
  withPower (s.wr .PWR_WDT_LEFT (BitVec.ofNat 64 (s.rdf .PWR_WDT_CTRL 16 16))) fun p => { p with wdt := 0 }

/-- A millisecond of the watchdog passes with 100,000 ticks; the tick after the last one resets the device, where the row
WATCHDOG_EXPIRY has not (R593; log 148). -/
def wdtTick (s : State) : State :=
  if wdtDue s then deviceReset s .W 8 mcResetEW
  else if bit (s.rd .PWR_WDT_CTRL) 0 = false ∨ s.asleep = true then s
  else if s.power.wdt + 1 < 100000 then withPower s fun p => { p with wdt := p.wdt + 1 }
  else withPower (s.wrf .PWR_WDT_LEFT 0 16 (s.rdf .PWR_WDT_LEFT 0 16 - 1)) fun p => { p with wdt := 0 }

/-- `RESET_RELEASE` (R594): causes written, fuses sensed, epoch 0, and the BSC boots; after reset P each GPIO bank takes the
level of its supply (R614). -/
def execResetRelease (sel : BitVec 2) (vsel : BitVec 4) (s : State) : Host.Outcome State Fault Refusal :=
  done <|
    if s.power.inReset then
      let s := s.orIn .PWR_RESET_CAUSE (s.power.cause.setWidth 64)
      let s := if bit (s.rd .PWR_CTRL) 0 || s.power.full then s else s.wr .PWR_TB 0
      let s := if s.power.full then
          (List.range 4).foldl (fun s b => s.wr .GPIO_BANK (BitVec.ofNat 64 (vsel.getLsbD b).toNat) 0 b) s else s
      let s := withPower s fun p => { p with inReset := false, full := false, cause := 0 }
      bootStart (senseFuses (s.wr .EPO_NUMBER 0)) sel
    else s

end Sys2Proof.Machine
end

