-- ==== Sys2Proof/Machine/Queues.lean ====
section
/-! DEFINITION. Gallery queues as software sees them (chapter 06): operation ports, enabling and disabling, and the rows of
the engine: appends, visibility, resumption and the position check. -/

namespace Sys2Proof.Machine

/-- What a queue owes is appended, and the array exit port that produces into it serves what waits there (R204, R271, R484). -/
def resumeProducer (s : State) (q : Nat) : State :=
  let s := payGaps s q
  match gqProd s q with
  | (3, n) => if gqEn s q then exitRetry s n else s
  | _ => s

/-- REWIND of a queue, and what becomes of items in service (R199, R431). -/
def queueRewind (s : State) (q : Nat) : State × OpStatus :=
  let r := opRewind s q
  (if gqKind s q = 2 then cancelFrom r.1 q (gqRead r.1 q) else r.1, r.2)

/-- One operation of a queue: status and what `GAL_OP_DATA` takes (R199). -/
def queueOp (s : State) (q op arg : Nat) : State × OpStatus × Option (List Byte) :=
  match op with
  | 1 => let r := opRead s q; (r.1, r.2.1, if r.2.1 = .ok then some r.2.2 else none)
  | 2 => let r := opAdvance s q arg; (r.1, r.2, none)
  | 3 => let r := opMark s q; (r.1, r.2, none)
  | 4 => let r := queueRewind s q; (r.1, r.2, none)
  | 5 => let r := opRelease s q arg; (r.1, r.2, none)
  | 6 => let r := opWriteAdv s q arg; (r.1, r.2, none)
  | 7 => let r := opFlush s q; (r.1, r.2, none)
  | 8 => (queueResetOp s q, .ok, none)
  | _ => (s, .ok, none)

/-- The high word of `GAL_OP[p]` written: the register's 64 bits `v` (R199, R219). -/
def galOp (s : State) (p : Nat) (v : DWord) : State :=
  let q := fld v 48 10
  let op := fld v 40 4
  let pos := gqRead s q
  if op = 0 then opResult s p pos .ok else
  match opRefusal s q op with
  | some st => opResult s p pos st
  | none =>
    let r := queueOp s q op (fld v 0 38)
    let s := opResult r.1 p pos r.2.1
    match r.2.2 with
    | some bs => opData s p bs
    | none => s

/-- `EN` falls (R184, R258, R431). -/
def queueDisable (s : State) (q : Nat) : State :=
  if gqEn s q = false then s else
  let s := (queueOff s q).wrf .GQ_CTRL 0 1 0 q
  let s := if gqKind s q = 2 then cancelFrom s q 0 else s
  match gqProd s q with
  | (3, n) => exitRetry s n
  | _ => s

/-- `GQ_CTRL` written with `v`, which R184 allows (R178, R184, R193). It holds from the present stamp on, also after a
STAIR_EDGE of that stamp (DESIGN CHOICE, log 130). -/
def gqCtrlWrite (s : State) (q : Nat) (v : DWord) : State :=
  let on := gqEn s q
  let gate := bit v 7
  let s := s.wr .GQ_CTRL (setBit (setBit v 7 (bit (s.rd .GQ_CTRL q) 7)) 0 on) q
  let s := setGate s q (s.rd .PWR_TB) gate
  if on then (if bit v 0 then s else queueDisable s q)
  else if bit v 0 then queueOn s q else s

/-- The fields of `GQ_CTRL` that may change while the queue is enabled: `EN`, `GATE`, the event enables (R184). -/
def gqLive : DWord := 0x7081

/-- `GQ_LEVEL` written: the comparison starts afresh, without an event (R207). -/
def gqLevelWrite (s : State) (q : Nat) (v : DWord) : State :=
  let s := s.wr .GQ_LEVEL v q
  s.setQueue q { s.queue q with above := decide (v ≠ 0 ∧ 16 * v.toNat ≤ gqLevel s q) }

/-- `GQ_STATUS` as it reads (R217). -/
def gqStatus (s : State) (q : Nat) : DWord :=
  let v := s.queue q
  (s.rd .GQ_STATUS q &&& 0x87) |||
    BitVec.ofNat 64 (8 * (gqRead s q == gqWrite s q).toNat + 16 * v.stalled.toNat + 32 * fillHalf s q +
      64 * v.trig.isSome.toNat)

/-- Reset K of the Gallery engine disables every queue, and what it holds of them goes with their positions (R213, R214). -/
def galleryResetK (s : State) : State := { (enabledQueues s).foldl queueDisable s with queues := [] }

/-- The Gallery engine works: powered and not in a reset. -/
def galleryUp (s : State) : Bool := s.ready .gallery

/-- `RECORD_APPEND` (R179, R189 to R194, R204, R206): the oldest closed record of a port; one whose slot has no enabled queue
goes without counting. -/
def execRecordAppend (p : Fin 40) (poison : Bool) (s : State) : Host.Outcome State Fault Refusal :=
  finish (if galleryUp s = false then s else
    match (s.port p).closed with
    | [] => s
    | r :: rest =>
      let s := s.setPort p { s.port p with closed := rest }
      let kind := if p.val < 24 then 1 else if p.val < 32 then 7 else 2
      let idx := if p.val < 24 then p.val else if p.val < 32 then p.val - 24 else p.val - 32
      match queueOfProd s kind idx (some r.slot) with
      | some q => appendRecord s p q r poison
      | none => s)

/-- The oldest extent that waits for its time is ready. -/
def firstReady : List Ext → List Ext
  | [] => []
  | e :: r => if e.ready then e :: firstReady r else { e with ready := true } :: r

/-- `RECORD_VISIBLE` (R190). -/
def execRecordVisible (q : Fin 1024) (s : State) : Host.Outcome State Fault Refusal :=
  finish (if galleryUp s && gqEn s q then
    makeVisible (s.setQueue q { s.queue q with beyond := firstReady (s.queue q).beyond }) q
  else s)

/-- `HELD_PRODUCER_RESUME` (R204): a producer that stalled tries again; it stalls again where there is no room yet. -/
def execHeldProducerResume (q : Fin 1024) (s : State) : Host.Outcome State Fault Refusal :=
  finish (if galleryUp s && gqEn s q && (s.queue q).stalled then
    resumeProducer (s.setQueue q { s.queue q with stalled := false }) q
  else s)

/-- `CHANNEL_WAIT_RESUME` (R636): the tail cache goes to the region, and a producer that stalled for it tries again. -/
def execChannelWaitResume (q : Fin 1024) (s : State) : Host.Outcome State Fault Refusal :=
  finish (if galleryUp s && gqEn s q then
    let s := flushTail s q (s.queue q).tail
    if (s.queue q).tail = [] then resumeProducer (s.setQueue q { s.queue q with stalled := false }) q else s
  else s)

/-! The scheduler reads its queues. -/

/-- `DISPATCH` (R417, R421 to R423, R426): stray heads go, then one candidate is chosen and sent. -/
def execDispatch (s : State) : Host.Outcome State Fault Refusal :=
  finish (if s.ready .sched ∧ s.pwrState < 2 then
    let s := (itemQueues s).foldl (fun s q => strays s q ((gqWrite s q - gqRead s q) / 32)) s
    let ready := (enabledFlows s).filter fun f =>
      (match offer s f with
      | some o => (coreFor s f (isAgain o)).isSome
      | none => false)
    match choose s ready with
    | none => markWaiting s
    | some f =>
      (match offer s f with
      | some o =>
        (match coreFor s f (isAgain o) with
        | some k => markWaiting (dispatchTo s f k o)
        | none => s)
      | none => s)
  else s)

/-- `AFF_EXPIRE` (R423): the wait of flow `f` is over, and its item goes to the next eligible core. -/
def execAffExpire (f : Fin 4096) (s : State) : Host.Outcome State Fault Refusal :=
  finish (if s.ready .sched = true ∧ s.pwrState < 2 ∧ s.sched.waits.contains (headKey s f) = true then
    match offer s f with
    | some (.head d) =>
      let s := trace (forgetWaits s (· == f.val)) 8
        { queue := flwQueue s f, pos := gqRead s (flwQueue s f), flow := f, dseq := s.rdf .FLW_STATUS 16 16 f,
          core := s.rdf .FLW_STATUS 8 5 f, state := .inSlot }
      let s := { s with sched := { s.sched with expired := headKey s f :: s.sched.expired } }
      (match coreFor s f false with
      | some k => dispatchTo s f k (.head d)
      | none => s)
    | _ => s
  else s)

/-! The copies of positions (R209). -/

/-- An upset of a position: its copies hold `a` and `b`. -/
def positionUpset (s : State) (x : PosBad) : State :=
  let q := x.queue.val
  let s := s.wr (posReg x.pos) x.a q
  s.setQueue q { s.queue q with twin := tset id 0 (s.queue q).twin x.pos x.b }

/-- The copies of a position are compared (R209). -/
def checkPosition (s : State) (q i : Nat) : State :=
  let a := s.rd (posReg i) q
  let b := tget 0 (s.queue q).twin i
  if a = b then s else positionMismatch s q i a b

/-- `POSITION_CHECK_PASS` (R209): the copies of every enabled queue's positions are compared; `bad` are those that upsets have
changed, before the pass or after its look at them. -/
def execPositionCheckPass (bad : List PosBad) (s : State) : Host.Outcome State Fault Refusal :=
  finish (if galleryUp s then
    let s := (bad.filter (!·.later)).foldl positionUpset s
    let s := (enabledQueues s).foldl (fun s q => (List.range 4).foldl (fun s i => checkPosition s q i) s) s
    (bad.filter (·.later)).foldl positionUpset s
  else s)

end Sys2Proof.Machine
end

