-- ==== Sys2Proof/Machine/Bus.lean ====
section
/-! DEFINITION. Register space (R40 to R60): where each word lies, what it reads as, and which bits and values a write may
carry. -/

namespace Sys2Proof.Machine

/-! Decoding an offset. -/

/-- A word of a defined page: its block, the page index and offset in the page as a fault record shows them (R45), the
register it belongs to (none at a reserved offset), and whether it is the high word of a 64-bit one. -/
structure Slot where
  block : Block
  place : Nat
  key : Option RegKey
  hi : Bool
  deriving DecidableEq, Repr

/-- Groups whose pages carry no common header (R40, R41). -/
def bare : Grp → Bool
  | .gq | .flw | .spb | .ctxw => true
  | _ => false

/-- A register of a group at an offset of its instance: register, array index, high word. -/
def inGroup (g : Grp) (o : Nat) : Option (Reg × Nat × Bool) :=
  (regsOf g).findSome? fun r =>
    let d := regDesc r
    let j := if d.stride = 0 then 0 else (o - d.off) / d.stride
    let x := o - d.off - j * d.stride
    if d.off ≤ o ∧ j < d.cnt ∧ x < (if d.wide then 8 else 4) then some (r, j, decide (4 ≤ x)) else none

/-- The deepest loop-back of a block; 0 where `LOOP_CTRL` is reserved (R43, R44, R106, R238, R530). -/
def loopMax : Block → Nat
  | .lane _ | .link => 4
  | .mc _ => 3
  | _ => 0

/-- A header offset (R43): every first page and the banks' page carry all of it, other pages `BLK_ID` and `BLK_VER`. -/
def inHeader (b : Block) (p page o : Nat) : Option RegKey :=
  match inGroup .hdr o with
  | some (r, j, _) =>
    if (p = 0 ∨ page = 2 ∨ o < 8) ∧ (r ≠ .LOOP_CTRL ∨ loopMax b ≠ 0) then some ⟨r, page, j⟩ else none
  | none => none

/-- The instance of a register: those of a chapter's array, and 0 for a block with one instance. -/
def instOf (g : Grp) (o : Nat) : Nat :=
  let x := grpPlace g
  if x.2.1 = 0 then 0 else (o - x.1) / x.2.1

/-- Registers that some instances do not have: port registers of inner tiles (R279), `EVC_NEXT` of level 0 (R64). -/
def present (k : RegKey) : Bool :=
  match k.reg with
  | .TILE_EP_CFG | .TILE_XP_CFG | .TILE_XP_HELD | .TILE_EP_ADMIT | .TILE_CG_LIMIT | .TILE_CG_COUNT => portTileB k.inst
  | .EVC_NEXT => k.idx % 4 != 0
  | _ => true

/-- The word at an offset of register space; none outside every defined page (R42). The page index of a fault counts the pages
of the array that the page lies in, from the array's first (DEDUCED, log 61). -/
def slotAt (o : Nat) : Option Slot :=
  match pageAt o with
  | none => none
  | some (b, i, g) =>
    let place := i % 16 * 4096 + o % 4096
    if o % 4096 < 0x40 ∧ bare g = false then some ⟨b, place, inHeader b i (o / 4096) (o % 4096), false⟩
    else
      let n := instOf g o
      match inGroup g (o - (grpPlace g).1 - n * (grpPlace g).2.1) with
      | some (r, j, hi) => some ⟨b, place, if present ⟨r, n, j⟩ then some ⟨r, n, j⟩ else none, hi⟩
      | none => some ⟨b, place, none, false⟩

/-! What a register reads as. -/

/-- `BLK_ID` of a page (R43, R44). -/
def blkIdAt (b : Block) (page : Nat) : Nat :=
  let i := page - pageOf b
  if b = .banks ∨ i = 0 then blkIdWord b else (blkId b).1 * 65536 + 0x8000 + i

/-- `BLK_STATUS` (R44, R634). -/
def blkStatus (s : State) (page : Nat) : DWord :=
  BitVec.ofNat 64 ((bit (s.rd .BLK_CTRL page) 0).toNat + 2 * (tget false s.resetting page).toNat +
    16 * (s.rd .FAULT_COUNT page != 0).toNat)

/-- The state of a boundary port toward a power domain (R504). -/
def DomState.port : DomState → Nat
  | .on => 0 | .draining => 1 | .off => 2 | .powering => 2

/-- `CRT_STATUS` as it reads (R504, R508); a bank's port shows its bank (R452). -/
def crtStatus (s : State) (r : Nat) : DWord :=
  (List.range 8).foldl (fun a p =>
    let st := if p = 4 then (match s.rdf .SPB_STATUS 0 2 r with
        | 0 => 0
        | 3 => if (s.spb r).drains then 1 else 2
        | _ => 2)
      else match portPlace r p with
        | .dom d => (s.domSt d).port
        | _ => 0
    setFld a (16 + 2 * p) 2 st) (s.rd .CRT_STATUS r &&& 3)

/-- The value of a register as a read returns it. -/
def regView (s : State) (b : Block) (k : RegKey) : DWord :=
  let i := k.inst
  let j := k.idx
  match k.reg with
  | .BLK_ID => BitVec.ofNat 64 (blkIdAt b i)
  | .BLK_VER => 0xB1000000
  | .BLK_STATUS => blkStatus s i
  | .EVT_STATUS => ext (evtStatus s b)
  | .EVC_PEND => BitVec.ofNat 64 ((s.levels.toNat >>> (32 * j)) % 2 ^ 32)
  | .EVC_NEXT => BitVec.ofNat 64 (evcNext s (j / 4) (j % 4))
  | .LANE_STATUS => laneStatus s i
  | .LANE_EQ_DATA => eqData s i
  | .QUAD_STATUS => quadStatus s i
  | .MC_STATUS => (s.rd .MC_STATUS i &&& 0x1003F) ||| BitVec.ofNat 64 (256 * (mcGiB s i % 256))
  | .GQ_STATUS => gqStatus s i
  | .SPB_STATUS => spbStatus s i
  | .GAL_GRP_PEND => gqGroupPend s j
  | .STR_TRIG_IN => trigIn s
  | .STR_STAMP => strStamp s j
  | .HTH_RUN_STATUS => hthRunStatus s
  | .TILE_STATUS => tileStatus s i
  | .TILE_XP_HELD => BitVec.ofNat 64 (tget [] (s.tile i).store j).length
  | .HALL_STATUS => hallStatus s i
  | .HALL_HELD_GRP => heldGroups s
  | .SC_STATE => scState s i
  | .SC_IRQ_PEND => scIrqPend s i
  | .SC_BK_DS_BASE => mirrorRead s i j 0
  | .SC_BK_DS_LIMIT => mirrorRead s i j 1
  | .SC_BK_DSP => mirrorRead s i j 2
  | .SC_BK_RSP => mirrorRead s i j 3
  | .SC_BK_DEPTH => scDepth s i j
  | .SC_T_DEPTH => scDepth s i bankT
  | .FLW_STATUS => flwStatus s i
  | .SCH_STATUS => schStatus s
  | .SCH_LAND => schLand s j
  | .EPO_STATUS => epoStatus s
  | .CRT_STATUS => crtStatus s i
  | .PWR_DOM_STATUS => if s.gated then s.rd .PWR_DOM_STATUS &&& 0x800000 else s.rd .PWR_DOM_STATUS
  | .RLK_OUTSTANDING => BitVec.ofNat 64 (outstanding s)
  | .RLK_BS_STATUS => bsStatus s j
  | .SEC_LOG_ENTRY => secLogWord s j
  | .SEC_CERT => certWord j
  | .HLT_PMON => (Config.process j).setWidth 64
  | r => s.rd r i j

/-- The RC registers that count (R10). -/
def counts : Reg → Bool
  | .GQ_LOST | .MC_CE_CNT | .MC_UE_CNT | .MC_CAPAR_CNT => true
  | _ => false

/-- A burst of channel `c` that the command does not name: its channel address is open. -/
def someBurst (s : State) (c : Nat) : State × DWord :=
  let d := s.draw
  (d.1, BitVec.ofNat 64 (64 * (d.2.toNat % max 1 (mcGiB s c * 2 ^ 24))))

/-- Errors that coincide with the read of a channel's count: in which bursts they lie, which the command does not say, is open
(R233, R234, log 12). -/
def coincide (s : State) (r : Reg) (i n : Nat) : State :=
  if h : i < 8 then
    if n = 0 then s else
    let d := someBurst s i
    if r = .MC_CE_CNT then
      let e := d.1.draw
      ((e.1.wr .MC_CE_ADDR d.2 i).wr .MC_ERR_INFO ((s.rd .MC_ERR_INFO i &&& 0x10000) ||| (e.2 &&& 0xF1F)) i).evt (.mc ⟨i, h⟩) 0
    else ((d.1.wr .MC_UE_ADDR d.2 i).wrf .MC_ERR_INFO 16 1 (if n = 1 then 0 else 1) i).evt (.mc ⟨i, h⟩) 1
  else s

/-- An RC register read: it clears, and `inc` increments that coincide stand after it (R12), with what each of them does beside
counting (R217, R234). -/
def readClear (s : State) (k : RegKey) (inc : Nat) : State :=
  let n := if counts k.reg then min inc (2 ^ 32 - 1) else 0
  let s := s.wr k.reg (BitVec.ofNat 64 n) k.inst k.idx
  match k.reg with
  | .GQ_LOST => if n = 0 then s else s.orIn .GQ_STATUS 2 k.inst
  | .MC_CE_CNT => coincide s .MC_CE_CNT k.inst n
  | .MC_UE_CNT => coincide (s.wrf .MC_ERR_INFO 16 1 0 k.inst) .MC_UE_CNT k.inst n
  | _ => s

/-- A read of a word of register space (R10, R47, R52): an RC register clears, and increments that coincide stand after it
(R11). -/
def readSlot (s : State) (sl : Slot) (inc : Nat := 0) : State × Word :=
  match sl.key with
  | none => (s, 0)
  | some k =>
    let d := regDesc k.reg
    if tget false s.resetting (pageOf sl.block) && d.grp != .hdr then (s, 0)
    else
      let v := regView s sl.block k
      if d.acc = .wo then ({ s with captured := tset RegKey.ord none s.captured k none }, 0)
      else if d.wide then
        if sl.hi then
          ({ s with captured := tset RegKey.ord none s.captured k none },
            (tget none s.captured k).getD (hi32 v))
        else ({ s with captured := tset RegKey.ord none s.captured k (some (hi32 v)) }, lo32 v)
      else if d.acc = .rc then (readClear s k inc, lo32 v)
      else (s, lo32 v)

/-! What a write may carry. -/

/-- The bits of a register that exist; the rest are reserved (R55). -/
def regMask (b : Block) (k : RegKey) : DWord :=
  match k.reg with
  | .EVT_STATUS | .EVT_ENABLE | .EVT_FORCE => BitVec.ofNat 64 (evtMask b)
  | .MC_CFG => if k.inst = 0 then 0x1FF else 0x13F
  | .CRT_NEXT_PORT_EN => por .CRT_NEXT_PORT_EN k.inst 0
  | .STR_STEP_ACT => 0x3FFF3FFF
  | .GQ_STATUS => 0x87
  | r => (regDesc r).mask

/-- The power domain that a block's page heads (R579). -/
def headOf (b : Block) : Option Nat :=
  match placeOf b with
  | .dom d => if headPage d = pageOf b then some d else none
  | _ => none

/-- A Stair condition or counter source number that is not reserved (R150). -/
def stairSrcOk (x : Nat) : Bool := x < 344 || x == 511

/-- The sum of the tap magnitudes of a `LANE_TX_FIR` value (R85). -/
def firSum (v : DWord) : Nat :=
  (sgn 6 (fld v 0 6)).natAbs + (sgn 6 (fld v 6 6)).natAbs + fld v 12 6 + (sgn 6 (fld v 18 6)).natAbs +
  (sgn 6 (fld v 24 6)).natAbs

/-- The effective owner kind of a value written to `SPB_OWNER` (R441). -/
def ownerKind (old new : DWord) : Nat := if fld new 0 3 ≤ 4 then fld new 0 3 else fld old 0 3

/-- Fields of a value `new` whose legal values depend on other fields or on the block's state: place, width, legal. -/
def moreFields (s : State) (b : Block) (k : RegKey) (old new : DWord) : List (Nat × Nat × Bool) :=
  let i := k.inst
  match k.reg with
  | .BLK_CTRL => [(2, 2, fld new 2 2 == 0 || (fld new 2 2 == 1 && (headOf b).isSome))]
  | .LOOP_CTRL => [(0, 3, fld new 0 3 ≤ loopMax b)]
  | .LANE_CFG => [(0, 3, rateOk (quadSym s (quadOf i)) (fld new 0 3) (grade s))]
  | .LANE_EQ_DATA => [(0, 8, s.rdf .LANE_EQ_IDX 0 8 i != 0 || fld new 0 8 ≤ 31)]
  | .LANE_TX_FIR => [(0, 30, firSum new ≤ 63)]
  | .LANE_EYE_CTRL => [(20, 2, fld new 20 2 == 0 || rateBits (laneRate s i) != 1)]
  | .QUAD_PLL_RATE => [(0, 26, symOk (symRate (s.rd .QUAD_PLL_CTRL i) new))]
  | .HTH_LOAD_CTRL => [(8, 8, 16 ≤ fld new 8 8)]
  | .HTH_CAP_DELAY => [(0, 7, 4 ≤ fld new 0 7 && fld new 0 7 ≤ 64)]
  | .HTH_CLK_CTRL =>
    let x := fld new 0 5
    [(0, 5, x < 19), (0, 7, !(7 ≤ x && x ≤ 14 && fld new 5 2 == 0))]
  | .STR_QSET => [(0, 26, fld new 0 10 + fld new 16 10 < 1024)]
  | .STR_CNT_CTRL => [(0, 9, stairSrcOk (fld new 0 9))]
  | .STR_STEP_C01 | .STR_STEP_C23 => [(0, 9, stairSrcOk (fld new 0 9)), (16, 9, stairSrcOk (fld new 16 9))]
  | .STR_STEP_ACT => [(0, 2, fld new 0 2 != 3), (16, 2, fld new 16 2 != 3)]
  | .GQ_CTRL => [(1, 3, fld new 1 3 < 4)]
  | .GQ_BIND => [(0, 4, fld new 0 4 < 8), (14, 2, fld new 14 2 < 2), (16, 4, fld new 16 4 < 6)]
  | .GQ_BASE =>
    let z := s.rdf .GQ_GEOM 0 6 i
    [(0, 32, !(16 ≤ z && z ≤ 38) || fld new 0 32 % 2 ^ (z - 16) == 0)]
  | .GQ_GEOM => [(0, 6, 16 ≤ fld new 0 6 && fld new 0 6 ≤ 38), (8, 13, fld new 8 6 + 2 * (fld new 16 5 + 1) ≤ 64)]
  | .MC_DIMM0 | .MC_DIMM1 => [(4, 2, fld new 4 2 != 3), (6, 2, fld new 6 2 != 3)]
  | .MC_SHARE => [(0, 16, fld new 0 8 + fld new 8 8 ≤ 241)]
  | .FLW_CTRL => [(1, 2, fld new 1 2 != 3)]
  | .SPB_OWNER =>
    let n := ownerKind old new
    [(0, 3, fld new 0 3 ≤ 4), (8, 6, !(n == 1 && 32 ≤ fld new 8 6) && !(n == 2 && 48 ≤ fld new 8 6))]
  | .SPB_PWR => [(0, 2, fld new 0 2 != 3), (4, 2, fld new 4 2 != 3)]
  | .SPB_DMA_LEN => [(0, 19, fld new 0 19 % 16 == 0 && 16 ≤ fld new 0 19 && fld new 0 19 ≤ 262144)]
  | .CRT_NEXT_VN_PART => [(0, 16, fld new 0 4 + fld new 4 4 + fld new 8 4 + fld new 12 4 ≤ 24)]
  | .SC_BK_DS_BASE | .SC_BK_DS_LIMIT => [(0, 32, boundOk (lo32 new))]
  | .SEC_CMD => [(0, 4, fld new 0 4 < 10)]
  | .GPIO_CFG =>
    let f := if fld new 0 4 < 4 then fld new 0 4 else fld old 0 4
    [(0, 4, fld new 0 4 < 4), (4, 3, fld new 4 3 == 0 || f == 2), (16, 3, fld new 16 3 < 6),
     (20, 4, fld new 20 4 == 0 || k.idx < 16)]
  | _ => []

/-- The fields of a value that carry reserved values (R56). -/
def badFields (s : State) (b : Block) (k : RegKey) (old new : DWord) : List (Nat × Nat) :=
  (((regDesc k.reg).resv.filter fun f => k.reg ≠ .BLK_CTRL ∧ f.2.2 (fld new f.1 f.2.1) = false).map fun f => (f.1, f.2.1)) ++
  ((moreFields s b k old new).filter fun f => f.2.2 = false).map fun f => (f.1, f.2.1)

/-- `new` with the fields that carry reserved values left as they are in `old` (R56). -/
def keepFields (old : DWord) : List (Nat × Nat) → DWord → DWord
  | [], new => new
  | f :: r, new => keepFields old r (setFld new f.1 f.2 (fld old f.1 f.2))

end Sys2Proof.Machine
end

