-- ==== Sys2Proof/Machine/Writes.lean ====
section
/-! DEFINITION. What a write of a register does (R44 to R56): which writes the block's state refuses, what an accepted write
starts beside storing its value, W1C and clearing writes, reset K. -/

namespace Sys2Proof.Machine

/-! Writes that the block's state refuses (R45). -/

/-- Some instance of a block has `BLK_CTRL.EN` 1. -/
def anyEn (s : State) (n : Nat) (mk : Fin n → Block) : Bool := (List.finRange n).any fun i => s.en (mk i)

/-- The legal change of a `GQ_` register while its queue is enabled: none (R184). -/
def frozenQueue (s : State) (q : Nat) (old new : DWord) : Bool := gqEn s q && old != new

/-- The refusals of `BLK_CTRL` (R225, R345, R433, R580); `raw` is the word written. -/
def blkRefused (s : State) (q : Requester) (b : Block) (old new raw : DWord) : Bool :=
  (match headOf b with
    | some d => fld new 2 2 == 1 && powerBusy s q d
    | none => false) ||
  (match b with
    | .mc c => bit new 0 && decide (2 ^ nchLog s ≤ c.val)
    | .tile t => bit new 0 && !bit old 0 && ldrCovers s t && imgFull s.ldr.body
    | .sched => bit raw 1 && schStatus s != 0
    | _ => false)

/-- The refusals of `LOOP_CTRL` (R107, R238). -/
def loopRefused (s : State) (b : Block) (new : DWord) : Bool :=
  match b with
  | .lane l => fld new 0 3 == 4 && s.rdf .LANE_PCS 0 4 l != s.rdf .LANE_PCS 4 4 l
  | .mc c => fld new 0 3 != 0 && mcState s c != 3
  | _ => false

/-- A write that the state of the block forbids: `new` is the value the register would take. -/
def writeRefused (s : State) (q : Requester) (b : Block) (k : RegKey) (old new raw : DWord) : Bool :=
  let i := k.inst
  match k.reg with
  | .BLK_CTRL => blkRefused s q b old new raw
  | .LOOP_CTRL => loopRefused s b new
  | .DEV_MAP => old != new && anyEn s 8 .mc
  | .QUAD_PLL_CTRL =>
    let x := symRate new (s.rd .QUAD_PLL_RATE i)
    !symOk x || !lanesOk s i x
  | .QUAD_PLL_RATE => !lanesOk s i (symRate (s.rd .QUAD_PLL_CTRL i) new)
  | .LANE_PCS => s.rdf .LOOP_CTRL 0 3 (0x200 + i) == 4 && fld new 0 4 != fld new 4 4
  | .LANE_EQ_DATA => s.rdf .LANE_ADAPT 0 2 i != 0
  | .LANE_EYE_CTRL => bit (s.rd .LANE_EYE_RESULT i) 30
  | .GQ_CTRL => gqEn s i && ((old ^^^ new) &&& ~~~gqLive) != 0
  | .GQ_BIND | .GQ_BASE | .GQ_GEOM => frozenQueue s i old new
  | .MC_CFG => mcState s i != 0 || (fld old 6 2 != fld new 6 2 && anyEn s 8 .mc)
  | .MC_DIMM0 | .MC_DIMM1 | .MC_TIMING0 | .MC_TIMING1 => mcState s i != 0
  | .TILE_REMAP_NEXT => bit (s.rd .TILE_REMAP_CTRL i) 0 || ldrCovers s i
  | .TILE_REMAP_CTRL => ldrCovers s i
  | .TILE_EP_CFG => bit old 0 && setBit old 0 false != setBit new 0 false
  | .HALL_HASH => s.en (tileB i) || onchip (s.tile i) != 0 || s.rd .HALL_SPILL_USED i != 0
  | .HALL_SPILL_BASE | .HALL_SPILL_SIZE => spillEn s i
  | .HALL_CTRL => bit old 8 && !bit new 8 && s.rd .HALL_SPILL_USED i != 0
  | .FLW_CTRL => bit old 0 && (fld old 1 2 != fld new 1 2 || fld old 18 10 != fld new 18 10)
  | .SPB_OWNER => dmaBusy s i || (fld old 0 3 == 3 && bankPing s i)
  | .SPB_PWR => fld new 0 2 != 0 && (dmaBusy s i || bankPing s i)
  | .EPO_DOM_CORES | .EPO_TILE_DOM => anyEn s 48 .tile
  | r => (regDesc r).grp == .str && armed s

/-! Reset K (R47). -/

/-- Bonding groups that leave ALIGNED discard their open records (R637). -/
def groupsLeft (before s : State) : State :=
  (List.range 4).foldl (fun s g =>
    if (before.group g).state = .aligned ∧ (s.group g).state ≠ .aligned then discardOpen s (24 + g) else s) s

/-- A lane stops delivering words (R637). -/
def laneStop (s : State) (l : Fin 24) : State := laneUnlock (discardOpen s l) l

/-- What reset K does to a block's registers and state. The event controller keeps its held messages and what it last saw of the
sources (DESIGN CHOICE, log 150). -/
def resetK (s : State) (b : Block) : State :=
  let clear (s : State) : State := clearRegs s .K fun c => c == b
  match b with
  | .tile t => tileResetK s t
  | .heath => heathResetK s
  | .link => linkResetK s
  | .stair => withStair s fun v => { v with clear := true }
  | .banks => clear (dmaAbortAll s)
  | .gallery => clear (galleryResetK s)
  | .sched => clear { s with sched := { items := s.sched.items, dispatches := s.sched.dispatches }, slots := [] }
  | .epochs =>
    let s := (List.range 48).foldl (fun s t => s.setTile t { s.tile t with undoOver := false, snapOver := false }) s
    let s := (List.range 4).foldl (fun s d => s.setDomain d { s.domain d with norec := false }) s
    clear { s with epo := { s.epo with base := epochNow s, placed := none } }
  | .lane l => regroupAll (clear ((laneStop s l).setLane l {}))
  | .quad q => regroupAll (pllStart (clear s) q)
  | .mc c => clear (mcSleep s c)
  | .core k => coreOff (clear (emptySlots s k)) k
  | .router r => s.orIn .CRT_STATUS 1 r
  | .devctl | .evc | .gpio | .health | .security => clear s

/-- `SRST` written 1 (R47): a reset K that is requested during a device reset is discarded (R595),
and one while RST_BUSY is 1 has no effect (DESIGN CHOICE, log 147). -/
def softReset (s : State) (b : Block) : State :=
  if s.held || tget false s.resetting (pageOf b) then s
  else
    let s' := groupsLeft s (resetK s b)
    { s' with resetting := tset id false s'.resetting (pageOf b) true }

/-- A reset K is over (R47): a channel leaves self-refresh (R227), a router that has emptied takes its values (R508). -/
def softResetDone (s : State) (b : Block) : State :=
  if tget false s.resetting (pageOf b) then
    let s := { s with resetting := tset id false s.resetting (pageOf b) false }
    match b with
    | .mc c => if s.en (.mc c) then mcWake s c else s
    | .router _ => clearRegs s .K fun c => c == b
    | _ => s
  else s

/-! What an accepted write starts. -/

/-- `BLK_CTRL.EN` changes. -/
def enWrite (s : State) (b : Block) (on : Bool) : State :=
  match b, on with
  | .lane l, true => if s.rdf .LANE_ADAPT 0 2 l = 0 then s else adaptMode s l
  | .lane l, false => laneStop s l
  | .quad q, _ => pllStart s q
  | .mc c, true => mcEnable s c
  | .mc c, false => (mcOff s c).wrf .MC_STATUS 5 1 0 c
  | _, _ => s

/-- A channel in any state goes OFF with `EN` written 0, which in SELF_REFRESH after a reset is 0 already (R227). -/
def mcStays (s : State) (b : Block) (on : Bool) : State :=
  match b with
  | .mc c => if on = false ∧ mcState s c ≠ 0 then enWrite s b false else s
  | _ => s

/-- `BLK_CTRL` written (R44, R47, R580). -/
def blkCtrlWrite (s : State) (b : Block) (old new raw : DWord) : State :=
  let s := s.wr .BLK_CTRL new (pageOf b)
  let s := if bit old 0 = bit new 0 then mcStays s b (bit new 0) else enWrite s b (bit new 0)
  let s := match headOf b with
    | some d => if fld new 2 2 = 1 then powerDown s d else powerKeep s d
    | none => s
  if bit raw 1 then softReset s b else s

/-- `LOOP_CTRL` written (R106, R107, R238, R530). -/
def loopWrite (s : State) (b : Block) (old new : DWord) : State :=
  let s := s.wr .LOOP_CTRL new (pageOf b)
  match b with
  | .lane l => if old = new then s else (laneUnlock s l).evt (.lane l) 3
  | .link => if old = new then s else linkLoop s (fld new 0 3)
  | _ => s

/-- `LANE_CFG` written: a change of rate restarts the receiver, and rate 0 stops the lane (R72, R637; log 35). -/
def laneCfgWrite (s : State) (l : Fin 24) (old new : DWord) : State :=
  let s := s.wr .LANE_CFG new l
  let s := if fld old 0 3 = fld new 0 3 then s else if fld new 0 3 = 0 then laneStop s l else laneUnlock s l
  regroupAll s

/-- A group `g` that was ALIGNED in state `s` and has no members left in `t` sets bit 0 on those it had (R96). -/
def leftAlone (s : State) (g : Nat) (t : State) : State :=
  if (s.group g).state = .aligned ∧ members t g = [] then evtAll t (members s g) 0 else t

/-- `LANE_PRBS` written: a generator of another polynomial starts anew (R88); a checker that is turned off, or looks for another
polynomial, is out of synchronisation (R89). -/
def prbsWrite (s : State) (l : Fin 24) (old new : DWord) : State :=
  let s := s.wr .LANE_PRBS new l
  let v := s.lane l
  let s := if fld old 0 3 = fld new 0 3 then s else s.setLane l { v with txp := { v.txp with gen := none } }
  if fld old 4 3 = fld new 4 3 ∧ bit old 9 = bit new 9 ∧ bit new 8 = true then s
  else
    let s := s.setLane l { s.lane l with chk := {}, prbsSync := false }
    if v.prbsSync then s.evt (.lane l) 3 else s

/-- `HALL_CTRL` written: `SPILL_EN` acts as it changes (R320, R337). -/
def hallCtrlWrite (s : State) (t : Nat) (old new : DWord) : State :=
  let s := s.wr .HALL_CTRL (setBit new 8 (bit old 8)) t
  if bit new 8 = bit old 8 then s
  else if bit new 8 then spillOn s t
  else (s.wrf .HALL_CTRL 8 1 0 t).setTile t { s.tile t with spillReady := false }

/-- `SC_CTRL` written (R410): a reset C that is requested during a device reset is discarded (R595). -/
def scCtrlWrite (s : State) (k : Fin 32) (new raw : DWord) : State :=
  let s := s.wr .SC_CTRL new k
  if bit raw 1 && !s.held then coreResetC s k
  else if (s.core k).inReset then s
  else if bit new 0 then coreRun s k else coreStop s k

/-- `EVC_ROUTE[n]` written: a request that this brings to a waiting core and that it does not take ends its WAIT (R67, R403). -/
def routeWrite (s : State) (n : Nat) (new : DWord) : State :=
  let s' := s.wr .EVC_ROUTE new 0 n
  let k := fld new 1 5
  let L := fld new 6 2
  if asserted s n && bit new 0 && (s.core k).run == .inWait && !requested s s.levels k L && !takeable s k L then s'.wake k else s'

/-- An accepted write of RW register `k` of block `b`: `new` is its new value, `raw` the word written. One to a
PLL's registers that carries only reserved values restarts the PLL too (DESIGN CHOICE, log 147). -/
def putReg (s : State) (b : Block) (k : RegKey) (old new raw : DWord) : State :=
  let i := k.inst
  let j := k.idx
  let put : State := s.wr k.reg new i j
  match k.reg, b with
  | .BLK_CTRL, b => blkCtrlWrite s b old new raw
  | .LOOP_CTRL, b => loopWrite s b old new
  | .PERF_SEL, _ => if fld raw 0 8 < 5 then put.wr .PERF_CNT 0 i j else put
  | .EVC_ROUTE, _ => routeWrite s j new
  | .GPIO_BANK, _ => bankWrite put j
  | .PWR_WDT_CTRL, _ => if bit new 0 && !bit old 0 then wdtRestart put else put
  | .LANE_CFG, .lane l => laneCfgWrite s l old new
  | .LANE_PCS, .lane l => regroupAll (if fld old 0 4 = fld new 0 4 then put else laneUnlock put l)
  | .LANE_BOND, _ =>
    let s' := leftAlone s (fld old 1 2) (regroupAll put)
    if old = new then s' else dropHeld (dropHeld s' (fld old 1 2)) (fld new 1 2)
  | .LANE_ADAPT, .lane l => adaptMode put l
  | .LANE_EQ_DATA, .lane l =>
    s.setLane l { s.lane l with eq := tset id 0 (s.lane l).eq (s.rdf .LANE_EQ_IDX 0 8 l) (new.setWidth 8) }
  | .LANE_PRBS, .lane l => prbsWrite s l old new
  | .LANE_EYE_CTRL, _ => if bit raw 31 then put.wr .LANE_EYE_RESULT 0x40000000 i else put
  | .QUAD_PLL_CTRL, .quad q | .QUAD_PLL_RATE, .quad q => regroupAll (pllStart put q)
  | .HTH_CLK_CTRL, _ => treeWrite s j new
  | .HTH_LOAD_CTRL, _ => hthReady put
  | .GQ_CTRL, _ => gqCtrlWrite s i new
  | .GQ_LEVEL, _ => gqLevelWrite s i new
  | .TILE_XP_CFG, _ => if bit old 0 && !bit new 0 then exitOff put (portNum i j) else put
  | .TILE_REMAP_CTRL, _ => if bit new 0 && !bit old 0 then armTile put i else put
  | .HALL_CTRL, _ => hallCtrlWrite s i old new
  | .SC_CTRL, .core c => scCtrlWrite s c new raw
  | .SC_BK_DS_BASE, _ => if boundOk (lo32 raw) then mirrorWrite s i j 0 (lo32 new) else s
  | .SC_BK_DS_LIMIT, _ => if boundOk (lo32 raw) then mirrorWrite s i j 1 (lo32 new) else s
  | .SC_BK_DSP, _ => mirrorWrite s i j 2 (lo32 new)
  | .SC_BK_RSP, _ => mirrorWrite s i j 3 (lo32 new)
  | .FLW_CTRL, _ => if bit new 0 && !bit old 0 then flowOn (put.wrf .FLW_CTRL 0 1 0 i) i
    else if bit new 0 then put else forgetWaits put (· == i)
  | .SPB_OWNER, _ => { put with handing := i :: put.handing.filter (· != i) }
  | .SPB_PWR, _ => bankMove put i (fld new 0 2)
  | .EPO_CTRL, _ => syncSwitch put (bit new 0)
  | .RLK_CTRL, _ => rlkCtrlWrite put old new
  | .RLK_BS_CTRL, _ => bsWrite put j old new
  | .HLT_AVS_TARGET, _ | .HLT_AVS_MAX, _ => { put with health := { put.health with mayFall := true } }
  | .GPIO_CFG, _ => pinSwitch s j old new
  | _, _ => put

/-- Bits of a mask set in `EVT_STATUS` or, for summary bits, as force flags (R62, R63). -/
def evtForce (s : State) (b : Block) (w : Nat) : State :=
  if summaryMask b = 0 then (List.range 16).foldl (fun s i => if (w >>> i) % 2 = 1 then s.evt b i else s) s
  else { s with force := tset id 0 s.force (pageOf b) (tget 0 s.force (pageOf b) ||| BitVec.ofNat 32 w) }

/-- A write of WO register `k`, its value `v` cut to the bits that exist. -/
def command (s : State) (q : Requester) (b : Block) (k : RegKey) (v : DWord) : State :=
  let w := lo32 v
  match k.reg, b with
  | .EVT_FORCE, b => evtForce s b v.toNat
  | .PWR_CMD, _ => pwrCommand s q w
  | .PWR_ON, _ => powerOnWrite s w
  | .PWR_WDT_KICK, _ => wdtRestart s
  | .LANE_CNT_CLR, .lane l => if bit v 0 then laneClearCounts s l else s
  | .HTH_CMD, _ => hthCommand s w
  | .HTH_RUN_CLR, _ => if bit v 0 then s.wrf .HTH_RUN_STATUS 8 1 0 else s
  | .STR_CMD, _ => stairCommand s w
  | .STR_STAMP_POP, _ => popStamp s
  | .GAL_OP, _ => galOp s k.idx v
  | .MC_CMD, .mc c => mcCommand s c v.toNat
  | .TILE_LDR_CMD, _ => ldrCommand s w
  | .SC_DBELL_SET, b => if bit v 0 then s.evt b 1 else s
  | .SPB_DMA_CMD, _ => if h : k.inst < 64 then dmaCommand s ⟨k.inst, h⟩ w else s
  | .CRT_CMD, .router r =>
    if bit v 0 = false then s
    else if bit (s.rd .CRT_STATUS r) 0 then s.refuse b 0x060 w else s.orIn .CRT_STATUS 1 r
  | .RLK_CMD, _ => rlkCommand s w
  | .SEC_CMD, _ => secCommand s w
  | .GPIO_OUT_SET, _ => s.orIn .GPIO_OUT v 0 k.idx
  | .GPIO_OUT_CLR, _ => s.clearIn .GPIO_OUT v 0 k.idx
  | _, _ => s

/-- The GPIO event groups of the pins in word `w` whose bits are written (R607). -/
def pinGroups (w : Nat) (v : Nat) : Nat :=
  (List.range 4).foldl (fun a i => if v / 256 ^ i % 256 = 0 then a else a + 2 ^ (4 * w + i)) 0

/-- A W1C write (R10, R62, R69): the bits clear, and sources that stay asserted are noted for a re-arm. -/
def clearWrite (s : State) (b : Block) (k : RegKey) (v : DWord) : State :=
  let cleared : State := s.clearIn k.reg v k.inst k.idx
  match k.reg with
  | .EVT_STATUS =>
    let s := if summaryMask b = 0 then cleared
      else { s with force := tset id 0 s.force (pageOf b) (tget 0 s.force (pageOf b) &&& ~~~lo32 v) }
    noteRearm s b v.toNat
  | .GQ_STATUS => noteRearm cleared b (if fld v 0 3 = 0 then 0 else 2 ^ (k.inst / 64))
  | .GPIO_EVT => noteRearm (pinLevels cleared k.idx) b (pinGroups k.idx v.toNat)
  | .CRT_CAUSE => noteRearm cleared b (if v = 0 then 0 else 1)
  | .RLK_CAUSE => noteRearm cleared b ((if fld v 0 2 = 0 then 0 else 1) + (if fld v 2 3 = 0 then 0 else 2))
  | _ => cleared

/-- A write of an RO/W register clears it and what goes with it (R46, R600). -/
def wipeWrite (s : State) (k : RegKey) : State :=
  match k.reg with
  | .FAULT_COUNT => ((s.wr .FAULT_COUNT 0 k.inst).wr .FAULT_REC0 0 k.inst).wr .FAULT_REC1 0 k.inst
  | .PWR_FLOG_CNT => (List.range 16).foldl (fun s i => s.wr .PWR_FLOG 0 0 i) (s.wr .PWR_FLOG_CNT 0)
  | r => s.wr r 0 k.inst k.idx

/-- A write of register `k` with all its bits, at the offset that a fault shows; `w` is the word that completes it (R45,
R56). -/
def writeReg (s : State) (q : Requester) (b : Block) (k : RegKey) (off : Nat) (raw : DWord) (w : Word) : State :=
  let mask := regMask b k
  let faulted (bad : List (Nat × Nat)) (s : State) : State := if bad = [] then s else s.fault b codeReserved off w.toNat
  match (regDesc k.reg).acc with
  | .ro | .rc => if writeRefused s q b k 0 0 raw then s.refuse b off w else s
  | .rw =>
    let old := regView s b k
    let asked := merge mask old raw
    let bad := badFields s b k old asked
    let new := keepFields old bad asked
    if writeRefused s q b k old new raw then s.refuse b off w else groupsLeft s (putReg (faulted bad s) b k old new raw)
  | .wo =>
    let v := raw &&& mask
    let bad := badFields s b k 0 v
    if bad = [] ∨ (k.reg = .SEC_CMD ∧ s.sec.cmd.isSome = true) then command s q b k v else faulted bad s
  | .w1c => clearWrite s b k (raw &&& mask)
  | .row => wipeWrite s k

/-- What was captured of a register's high word is dropped (R52). -/
def dropCapture (s : State) (k : RegKey) : State := { s with captured := tset RegKey.ord none s.captured k none }

/-- A word of register space written (R47, R51, R52): a reset in progress and reserved offsets ignore it; the low word of a
64-bit register is staged. -/
def writeWord (s : State) (q : Requester) (sl : Slot) (w : Word) : State :=
  match sl.key with
  | none => s
  | some k =>
    let d := regDesc k.reg
    if tget false s.resetting (pageOf sl.block) && d.grp != .hdr then s
    else
      let s := dropCapture s k
      if d.wide = false then writeReg s q sl.block k sl.place (ext w) w
      else if d.acc = .ro then (if writeRefused s q sl.block k 0 0 (ext w) then s.refuse sl.block sl.place w else s)
      else if sl.hi = false then { s with staged := tset RegKey.ord none s.staged k (some w) }
      else
        let low := (tget none s.staged k).getD (if d.acc = .wo then 0 else lo32 (regView s sl.block k))
        let s := if d.acc = .wo then s else { s with staged := tset RegKey.ord none s.staged k none }
        writeReg s q sl.block k sl.place (join32 w low) w

end Sys2Proof.Machine
end

