-- ==== Sys2Proof/Machine/Access.lean ====
section
/-! DEFINITION. Accesses to the one address space (R37, R38, R49 to R58): register words, plain memory, atomics; and the rows
of the table that are a write or a read of one register. -/

namespace Sys2Proof.Machine

/-! Who may access what. -/

/-- The debug port is OPEN with a bit of its scope set (R550). -/
def debugScope (s : State) (i : Nat) : Bool := s.rdf .SEC_DBG_STATUS 0 2 == 2 && bit (s.rd .SEC_DBG_STATUS) (4 + i)

/-- A requester can send: its domain has power (R504), and a TAP access to register space has the scope it needs (R550). -/
def portOpen (s : State) (q : Requester) : Bool := (q != .debug || debugScope s 1) && requesterOn s q

/-- The security page admits a write of this register by this requester (R549). -/
def admitted (s : State) (q : Requester) (r : Reg) : Bool :=
  match r with
  | .SEC_CMD | .SEC_NONCE | .SEC_BOOT_ADDR | .SEC_BOOT_LEN | .SEC_CMD_ADDR | .SEC_CMD_LEN =>
    match q with
    | .host | .bsc => true
    | .debug => s.rdf .SEC_DBG_STATUS 0 2 == 2
    | _ => false
  | _ => true

/-! Words of register space. -/

/-- One 32-bit write at offset `o` (R42, R49): a completed access is performance event 4 (R635). -/
def wordWrite (s : State) (q : Requester) (o : Nat) (w : Word) : State × Status :=
  match slotAt o with
  | none => (s, .addressError)
  | some sl =>
    if (match sl.key with
      | some k => admitted s q k.reg
      | none => true) then ((writeWord s q sl w).perf sl.block 4 1, .ok)
    else (s, .denied)

/-- One 32-bit read at offset `o`, with `inc` increments that coincide (R11). -/
def wordRead (s : State) (o inc : Nat) : State × Status × List Byte :=
  match slotAt o with
  | none => (s, .addressError, [])
  | some sl =>
    let r := readSlot s sl inc
    (r.1.perf sl.block 4 1, .ok, leBytes 4 r.2.toNat)

/-- Successive words written in ascending order; the first that draws an error ends the access (R50). -/
def wordsWrite (q : Requester) : List Word → State → Nat → State × Status
  | [], s, _ => (s, .ok)
  | w :: r, s, o =>
    let x := wordWrite s q o w
    if x.2 = .ok ∧ r ≠ [] then wordsWrite q r (follow x.1) (o + 4) else x

/-- Successive words read (R50); an access that fails returns no data (R38). -/
def wordsRead (inc : Nat) : Nat → State → Nat → State × Status × List Byte
  | 0, s, _ => (s, .ok, [])
  | n + 1, s, o =>
    let x := wordRead s o inc
    if x.2.1 ≠ .ok then (x.1, x.2.1, [])
    else
      let y := wordsRead inc n x.1 (o + 4)
      (y.1, y.2.1, if y.2.1 = .ok then x.2.2 ++ y.2.2 else [])

/-- Bytes as 32-bit words. -/
def wordsOf (bs : List Byte) (n : Nat) : List Word := (List.range n).map fun i => BitVec.ofNat 32 (word bs i)

/-- An access of register space has the form of R49 and R50. -/
def regForm (a n : Nat) : Bool := a % 4 == 0 && n % 4 == 0 && n != 0

/-- A packet has a form of R494. -/
def packetForm (a n : Nat) : Bool :=
  ((n == 1 || n == 2 || n == 4 || n == 8) && a % n == 0) || (n % 16 == 0 && 16 ≤ n && n ≤ 256 && a % 16 == 0)

/-- The bytes of an access span two destinations (R492). -/
def spans (s : State) (q : Requester) (a n : Nat) : Bool :=
  let r := (endpointOf q).router
  let z := a + n - 1
  destOf s r a != destOf s r z ||
  (match targetOf a, targetOf z with
    | .reg o, .reg p => o / 0x1000 != p / 0x1000
    | .reg _, _ | _, .reg _ => true
    | _, _ => false)

/-- A write of register space over the Corridor. -/
def regWrite (s : State) (q : Requester) (a : Nat) (bs : List Byte) (x : Transit := {}) : State × Status :=
  let r := access s q .wr a bs.length x fun s =>
    let w := if regForm a bs.length then wordsWrite q (wordsOf bs (bs.length / 4)) s (a - regBase) else (s, .addressError)
    (w.1, w.2, [])
  (if r.2.1 = .domainOff then hthUnpowered r.1 a bs else r.1, r.2.1)

/-- A read of register space over the Corridor. -/
def regRead (s : State) (q : Requester) (a n inc : Nat) (x : Transit := {}) : State × Status × List Byte :=
  access s q .rd a n x fun s => if regForm a n then wordsRead inc (n / 4) s (a - regBase) else (s, .addressError, [])

/-- An address lies in register space. -/
def inRegs (a : Nat) : Bool :=
  match targetOf a with
  | .reg _ => true
  | _ => false

/-- A write packet (R492 to R496). -/
def busWrite (s : State) (q : Requester) (a : Nat) (bs : List Byte) (x : Transit := {}) : State × Status :=
  if packetForm a bs.length = false ∨ spans s q a bs.length = true then (s, .addressError)
  else if inRegs a then regWrite s q a bs x else memWrite s q a bs x

/-- A read packet; `e` is what error correction finds in a memory word, `inc` what coincides at a counter. -/
def busRead (s : State) (q : Requester) (a n : Nat) (e : Ecc := .ok) (inc : Nat := 0) : State × Status × List Byte :=
  if packetForm a n = false ∨ spans s q a n = true then (s, .addressError, [])
  else if inRegs a then regRead s q a n inc e.net else memRead s q a n e

/-- An atomic access of a word at its target: one indivisible read and write (R373, R495); `f` gives the word to write, none
to leave it. At a register it counts as two accesses, the read and the write (R635; DESIGN CHOICE, log 150). -/
def atomicAt (s : State) (q : Requester) (a : Nat) (e : Ecc) (f : Nat → Option Nat) : State × Status × List Byte :=
  if inRegs a then
    let r := wordRead s (a - regBase) 0
    if r.2.1 ≠ .ok then (r.1, r.2.1, [])
    else match f (leNat r.2.2) with
      | some v =>
        let w := wordWrite r.1 q (a - regBase) (BitVec.ofNat 32 v)
        (w.1, w.2, r.2.2)
      | none => (r.1, .ok, r.2.2)
  else
    let st := memStatus s q a 4 true
    if st ≠ .ok then (s, st, [])
    else
      let s := applyEcc s a e
      if badIn s a 4 then (reportBads s a 4, .poison, s.bytes a 4)
      else
        let old := s.bytes a 4
        (match f (leNat old) with
          | some v => store s a (leBytes 4 v)
          | none => s, .ok, old)

/-- An atomic packet (R495). -/
def busAtomic (s : State) (q : Requester) (c : PacketCmd) (a : Nat) (e : Ecc) (f : Nat → Option Nat) :
    State × Status × List Byte :=
  if a % 4 ≠ 0 then (s, .addressError, []) else access s q c a 4 e.net fun s => atomicAt s q a e f

/-! Commands that are one access. -/

/-- An access of the host comes in a Raold Link transaction: one that finds the device in Quiet ends it (R583). -/
def endsQuiet (s : State) (q : Requester) (t : State) : State := if q = .host ∧ s.pwrState = 1 then quietEnd t else t

/-- A 32-bit write at an address, with its response: a handover that it begins is then over (R447). -/
def storeWord (s : State) (q : Requester) (a : Nat) (v : Word) : State :=
  if portOpen s q then
    let r := busWrite s q a (leBytes 4 v.toNat)
    { endsQuiet s q r.1 with rsp := { status := r.2 }, handing := s.handing }
  else s

/-- A 32-bit read at an address. -/
def fetchWord (s : State) (q : Requester) (a inc : Nat) : State :=
  if portOpen s q then
    let r := busRead s q a 4 .ok inc
    { endsQuiet s q r.1 with rsp := { status := r.2.1, data := r.2.2 } }
  else s

/-- The address of a register of instance `i` (the page for a header register), array element `j`. -/
def regAddr (r : Reg) (i : Nat := 0) (j : Nat := 0) : Nat :=
  let d := regDesc r
  let p := grpPlace d.grp
  regBase + p.1 + d.off + j * d.stride + (if d.grp = .hdr then i * 0x1000 else i * p.2.1)

/-- A 32-bit register written. -/
def setReg (s : State) (q : Requester) (r : Reg) (v : Word) (i : Nat := 0) (j : Nat := 0) : State :=
  storeWord s q (regAddr r i j) v

/-- A register written with its present value, some of its bits changed. -/
def modReg (s : State) (q : Requester) (r : Reg) (f : DWord → DWord) (i : Nat := 0) (j : Nat := 0) : State :=
  setReg s q r (lo32 (f (s.rd r i j))) i j

/-- `REGISTER_WRITE` (R44 to R60). -/
def execRegisterWrite (q : Requester) (a : Addr) (v : Word) (s : State) : Host.Outcome State Fault Refusal :=
  finish (storeWord s q a.toNat v)

/-- `RC_READ` (R10, R11). -/
def execRcRead (q : Requester) (a : Addr) (inc : Nat) (s : State) : Host.Outcome State Fault Refusal :=
  done (fetchWord s q a.toNat inc)

/-- `STAGED_LOW_WORD_WRITE` (R51). -/
def execStagedLowWordWrite (q : Requester) (a : Addr) (v : Word) (s : State) : Host.Outcome State Fault Refusal :=
  finish (storeWord s q a.toNat v)

/-- `LOW_WORD_READ_CAPTURE` (R52). -/
def execLowWordReadCapture (q : Requester) (a : Addr) (s : State) : Host.Outcome State Fault Refusal :=
  done (fetchWord s q a.toNat 0)

/-- `EVT_STATUS_CLEAR` (R62, R69). -/
def execEvtStatusClear (q : Requester) (b : Block) (v : Word) (s : State) : Host.Outcome State Fault Refusal :=
  finish (setReg s q .EVT_STATUS v (pageOf b))

/-- `EVT_FORCE` (R62, R63). -/
def execEvtForce (q : Requester) (b : Block) (v : Word) (s : State) : Host.Outcome State Fault Refusal :=
  finish (setReg s q .EVT_FORCE v (pageOf b))

/-- `FAULT_COUNT_CLEAR` (R46): a fault that coincides is applied after the clear. -/
def execFaultCountClear (q : Requester) (b : Block) (v : Word) (coin : Option FaultRec) (s : State) :
    Host.Outcome State Fault Refusal :=
  let s := setReg s q .FAULT_COUNT v (pageOf b)
  finish (match coin with
    | some f => s.fault b f.code.toNat f.detail.toNat f.rec1.toNat
    | none => s)

/-- `PERF_SEL_WRITE` (R48, R635). -/
def execPerfSelWrite (q : Requester) (b : Block) (n : Fin 2) (v : Word) (s : State) : Host.Outcome State Fault Refusal :=
  finish (setReg s q .PERF_SEL v (pageOf b) n)

/-- `SOFT_RESET_K` (R47). -/
def execSoftResetK (q : Requester) (b : Block) (s : State) : Host.Outcome State Fault Refusal :=
  finish (modReg s q .BLK_CTRL (fun v => setBit v 1 true) (pageOf b))

/-- `SOFT_RESET_COMPLETE` (R47). -/
def execSoftResetComplete (b : Block) (s : State) : Host.Outcome State Fault Refusal :=
  done (softResetDone s b)

/-- `DOMAIN_POWER_DOWN` (R580). -/
def execDomainPowerDown (q : Requester) (d : Fin 24) (s : State) : Host.Outcome State Fault Refusal :=
  finish (modReg s q .BLK_CTRL (fun v => setFld v 2 2 1) (headPage d))

/-- `DOMAIN_POWER_UP` (R580). -/
def execDomainPowerUp (q : Requester) (d : Fin 24) (s : State) : Host.Outcome State Fault Refusal :=
  finish (setReg s q .PWR_ON (BitVec.ofNat 32 (2 ^ d.val)))

/-- `QUAD_PLL_WRITE` (R74, R75). -/
def execQuadPllWrite (q : Requester) (n : Fin 6) (rate : Bool) (v : Word) (s : State) : Host.Outcome State Fault Refusal :=
  finish (setReg s q (if rate then .QUAD_PLL_RATE else .QUAD_PLL_CTRL) v n)

/-- `LANE_EQ_DATA_WRITE` (R82). -/
def execLaneEqDataWrite (q : Requester) (l : Fin 24) (v : Word) (s : State) : Host.Outcome State Fault Refusal :=
  finish (setReg s q .LANE_EQ_DATA v l)

/-- `EYE_SCAN_START` (R84). -/
def execEyeScanStart (q : Requester) (l : Fin 24) (v : BitVec 31) (s : State) : Host.Outcome State Fault Refusal :=
  finish (setReg s q .LANE_EYE_CTRL (v.setWidth 32 ||| 0x80000000) l)

/-- `LOOPBACK_SELECT` (R106, R107). -/
def execLoopbackSelect (q : Requester) (l : Fin 24) (v : Word) (s : State) : Host.Outcome State Fault Refusal :=
  finish (setReg s q .LOOP_CTRL v (0x200 + l))

/-- `LANE_CNT_CLR` (R110). -/
def execLaneCntClr (q : Requester) (l : Fin 24) (s : State) : Host.Outcome State Fault Refusal :=
  finish (setReg s q .LANE_CNT_CLR 1 l)

/-- `TREE_SWITCH` (R118, R119). -/
def execTreeSwitch (q : Requester) (i : Fin 8) (v : Word) (s : State) : Host.Outcome State Fault Refusal :=
  finish (setReg s q .HTH_CLK_CTRL v 0 i)

/-- `HTH_LOAD` (R138). -/
def execHthLoad (q : Requester) (s : State) : Host.Outcome State Fault Refusal := finish (setReg s q .HTH_CMD 1)
/-- `HTH_RELEASE` (R138). -/
def execHthRelease (q : Requester) (s : State) : Host.Outcome State Fault Refusal := finish (setReg s q .HTH_CMD 2)
/-- `HTH_ABORT` (R138). -/
def execHthAbort (q : Requester) (s : State) : Host.Outcome State Fault Refusal := finish (setReg s q .HTH_CMD 4)
/-- `HTH_RUN_CLR` (R147). -/
def execHthRunClr (q : Requester) (s : State) : Host.Outcome State Fault Refusal := finish (setReg s q .HTH_RUN_CLR 1)

/-- `ARM` (R160). -/
def execArm (q : Requester) (s : State) : Host.Outcome State Fault Refusal := finish (setReg s q .STR_CMD 1)
/-- `DISARM` (R161). -/
def execDisarm (q : Requester) (s : State) : Host.Outcome State Fault Refusal := finish (setReg s q .STR_CMD 2)
/-- `STR_STAMP_POP` (R171). -/
def execStrStampPop (q : Requester) (v : Word) (s : State) : Host.Outcome State Fault Refusal :=
  finish (setReg s q .STR_STAMP_POP v)

/-- `CHANNEL_ENABLE` (R222, R227). -/
def execChannelEnable (q : Requester) (c : Fin 8) (s : State) : Host.Outcome State Fault Refusal :=
  finish (modReg s q .BLK_CTRL (fun v => setBit v 0 true) (0x300 + c))
/-- `CHANNEL_DISABLE` (R227). -/
def execChannelDisable (q : Requester) (c : Fin 8) (s : State) : Host.Outcome State Fault Refusal :=
  finish (modReg s q .BLK_CTRL (fun v => setBit v 0 false) (0x300 + c))
/-- `MC_RETRAIN` (R227). -/
def execMcRetrain (q : Requester) (c : Fin 8) (s : State) : Host.Outcome State Fault Refusal := finish (setReg s q .MC_CMD 1 c)
/-- `SR_ENTER` (R227). -/
def execSrEnter (q : Requester) (c : Fin 8) (s : State) : Host.Outcome State Fault Refusal := finish (setReg s q .MC_CMD 2 c)
/-- `SR_EXIT` (R227). -/
def execSrExit (q : Requester) (c : Fin 8) (s : State) : Host.Outcome State Fault Refusal := finish (setReg s q .MC_CMD 4 c)
/-- `MC_LOOP_START` (R238). -/
def execMcLoopStart (q : Requester) (c : Fin 8) (s : State) : Host.Outcome State Fault Refusal :=
  finish (setReg s q .MC_CMD 8 c)

/-- `EXIT_PORT_DISABLE` (R271). -/
def execExitPortDisable (q : Requester) (n : Fin 64) (s : State) : Host.Outcome State Fault Refusal :=
  finish (modReg s q .TILE_XP_CFG (fun v => setBit v 0 false) (portTile n) (n % 4))
/-- `REMAP_ARM` (R273). -/
def execRemapArm (q : Requester) (t : Fin 48) (s : State) : Host.Outcome State Fault Refusal :=
  finish (setReg s q .TILE_REMAP_CTRL 1 t)
/-- `REMAP_CANCEL` (R273). -/
def execRemapCancel (q : Requester) (t : Fin 48) (s : State) : Host.Outcome State Fault Refusal :=
  finish (setReg s q .TILE_REMAP_CTRL 0 t)
/-- `TILE_PAUSE` (R275). -/
def execTilePause (q : Requester) (t : Fin 48) (v : Word) (s : State) : Host.Outcome State Fault Refusal :=
  finish (setReg s q .TILE_CTRL v t)
/-- `SPILL_ENABLE` (R322, R337). -/
def execSpillEnable (q : Requester) (t : Fin 48) (s : State) : Host.Outcome State Fault Refusal :=
  finish (modReg s q .HALL_CTRL (fun v => setBit v 8 true) t)
/-- `TILE_LDR_LOAD` (R352). -/
def execTileLdrLoad (q : Requester) (s : State) : Host.Outcome State Fault Refusal := finish (setReg s q .TILE_LDR_CMD 1)
/-- `TILE_LDR_ABORT` (R352). -/
def execTileLdrAbort (q : Requester) (s : State) : Host.Outcome State Fault Refusal := finish (setReg s q .TILE_LDR_CMD 2)

/-- `FLOW_ENABLE` (R437). -/
def execFlowEnable (q : Requester) (f : Fin 4096) (s : State) : Host.Outcome State Fault Refusal :=
  finish (modReg s q .FLW_CTRL (fun v => setBit v 0 true) f)

/-- `QUEUE_ENABLE` (R184). -/
def execQueueEnable (q : Requester) (n : Fin 1024) (v : Word) (s : State) : Host.Outcome State Fault Refusal :=
  finish (setReg s q .GQ_CTRL (v ||| 1) n)
/-- `QUEUE_DISABLE` (R184). -/
def execQueueDisable (q : Requester) (n : Fin 1024) (v : Word) (s : State) : Host.Outcome State Fault Refusal :=
  finish (setReg s q .GQ_CTRL (v &&& 0xFFFFFFFE) n)

/-- An operation of a queue through port `p`: the low word of `GAL_OP[p]` written, then its high word (R199, R219). -/
def galCommand (s : State) (q : Requester) (p op n : Nat) (arg : BitVec 38) : State :=
  let a := regAddr .GAL_OP 0 p
  storeWord (follow (storeWord s q a (arg.setWidth 32))) q (a + 4)
    (BitVec.ofNat 32 (n * 65536 + op * 256 + arg.toNat / 2 ^ 32))

/-- `READ` (R198, R199). -/
def execRead (q : Requester) (p : Fin 8) (n : Fin 1024) (arg : BitVec 38) (s : State) : Host.Outcome State Fault Refusal :=
  finish (galCommand s q p 1 n arg)
/-- `ADVANCE` (R199). -/
def execAdvance (q : Requester) (p : Fin 8) (n : Fin 1024) (arg : BitVec 38) (s : State) : Host.Outcome State Fault Refusal :=
  finish (galCommand s q p 2 n arg)
/-- `MARK` (R199). -/
def execMark (q : Requester) (p : Fin 8) (n : Fin 1024) (arg : BitVec 38) (s : State) : Host.Outcome State Fault Refusal :=
  finish (galCommand s q p 3 n arg)
/-- `REWIND` (R199, R431). -/
def execRewind (q : Requester) (p : Fin 8) (n : Fin 1024) (arg : BitVec 38) (s : State) : Host.Outcome State Fault Refusal :=
  finish (galCommand s q p 4 n arg)
/-- `RELEASE` (R199, R202). -/
def execRelease (q : Requester) (p : Fin 8) (n : Fin 1024) (arg : BitVec 38) (s : State) : Host.Outcome State Fault Refusal :=
  finish (galCommand s q p 5 n arg)
/-- `WRITE_ADV` (R199). -/
def execWriteAdv (q : Requester) (p : Fin 8) (n : Fin 1024) (arg : BitVec 38) (s : State) : Host.Outcome State Fault Refusal :=
  finish (galCommand s q p 6 n arg)
/-- `FLUSH` (R188, R199). -/
def execFlush (q : Requester) (p : Fin 8) (n : Fin 1024) (arg : BitVec 38) (s : State) : Host.Outcome State Fault Refusal :=
  finish (galCommand s q p 7 n arg)
/-- `RESET` (R199, R431). -/
def execReset (q : Requester) (p : Fin 8) (n : Fin 1024) (arg : BitVec 38) (s : State) : Host.Outcome State Fault Refusal :=
  finish (galCommand s q p 8 n arg)

/-- `BANK_HANDOVER` (R447, R448). -/
def execBankHandover (q : Requester) (b : Fin 64) (v : Word) (s : State) : Host.Outcome State Fault Refusal :=
  finish (setReg s q .SPB_OWNER v b)
/-- `BANK_DMA_START` (R449, R450). -/
def execBankDmaStart (q : Requester) (b : Fin 64) (out : Bool) (s : State) : Host.Outcome State Fault Refusal :=
  finish (setReg s q .SPB_DMA_CMD (if out then 3 else 1) b)
/-- `BANK_DMA_ABORT` (R450). -/
def execBankDmaAbort (q : Requester) (b : Fin 64) (s : State) : Host.Outcome State Fault Refusal :=
  finish (setReg s q .SPB_DMA_CMD 4 b)
/-- `BANK_POWER_REQUEST` (R451). -/
def execBankPowerRequest (q : Requester) (b : Fin 64) (v : Word) (s : State) : Host.Outcome State Fault Refusal :=
  finish (setReg s q .SPB_PWR v b)

/-- `TRAIN_ENABLE` (R514). -/
def execTrainEnable (q : Requester) (v : Word) (s : State) : Host.Outcome State Fault Refusal := finish (setReg s q .RLK_CTRL v)
/-- `RLK_RETRAIN` (R514). -/
def execRlkRetrain (q : Requester) (s : State) : Host.Outcome State Fault Refusal := finish (setReg s q .RLK_CMD 1)
/-- `RLK_LOOP_START` (R530). -/
def execRlkLoopStart (q : Requester) (s : State) : Host.Outcome State Fault Refusal := finish (setReg s q .RLK_CMD 2)

/-- `QUIET` (R583, R584). -/
def execQuiet (q : Requester) (s : State) : Host.Outcome State Fault Refusal := finish (setReg s q .PWR_CMD 1)
/-- `ACTIVE` (R583). -/
def execActive (q : Requester) (s : State) : Host.Outcome State Fault Refusal := finish (setReg s q .PWR_CMD 3)
/-- `STANDBY` (R583, R585). -/
def execStandby (q : Requester) (s : State) : Host.Outcome State Fault Refusal := finish (setReg s q .PWR_CMD 2)
/-- `WDT_KICK` (R593). -/
def execWdtKick (q : Requester) (v : Word) (s : State) : Host.Outcome State Fault Refusal := finish (setReg s q .PWR_WDT_KICK v)
/-- `FLOG_CLEAR` (R600). -/
def execFlogClear (q : Requester) (v : Word) (s : State) : Host.Outcome State Fault Refusal := finish (setReg s q .PWR_FLOG_CNT v)

/-- `FUNCTION_SWITCH` (R601, R604). -/
def execFunctionSwitch (q : Requester) (n : Fin 96) (v : Word) (s : State) : Host.Outcome State Fault Refusal :=
  finish (setReg s q .GPIO_CFG v 0 n)
/-- `GPIO_OUT_SET` (R605). -/
def execGpioOutSet (q : Requester) (w : Fin 3) (v : Word) (s : State) : Host.Outcome State Fault Refusal :=
  finish (setReg s q .GPIO_OUT_SET v 0 w)
/-- `GPIO_OUT_CLR` (R605). -/
def execGpioOutClr (q : Requester) (w : Fin 3) (v : Word) (s : State) : Host.Outcome State Fault Refusal :=
  finish (setReg s q .GPIO_OUT_CLR v 0 w)

/-- `CORE_RUN` (R410). -/
def execCoreRun (q : Requester) (k : Fin 32) (s : State) : Host.Outcome State Fault Refusal := finish (setReg s q .SC_CTRL 1 k)
/-- `CORE_STOP` (R410). -/
def execCoreStop (q : Requester) (k : Fin 32) (s : State) : Host.Outcome State Fault Refusal := finish (setReg s q .SC_CTRL 0 k)
/-- `CORE_RESET` (R410). -/
def execCoreReset (q : Requester) (k : Fin 32) (run : Bool) (s : State) : Host.Outcome State Fault Refusal :=
  finish (setReg s q .SC_CTRL (if run then 3 else 2) k)
/-- `DOORBELL_SET` (R413). -/
def execDoorbellSet (q : Requester) (k : Fin 32) (s : State) : Host.Outcome State Fault Refusal :=
  finish (setReg s q .SC_DBELL_SET 1 k)
/-- `BANK_MIRROR_WRITE` (R407): the base, the limit, *DSP* or *RSP* of bank `b`. -/
def execBankMirrorWrite (q : Requester) (k : Fin 32) (b which : Fin 4) (v : Word) (s : State) :
    Host.Outcome State Fault Refusal :=
  let r : Reg := match which with
    | 0 => .SC_BK_DS_BASE
    | 1 => .SC_BK_DS_LIMIT
    | 2 => .SC_BK_DSP
    | 3 => .SC_BK_RSP
  finish (setReg s q r v k b)

/-- `APPLY` (R505). -/
def execApply (q : Requester) (r : Fin 64) (s : State) : Host.Outcome State Fault Refusal := finish (setReg s q .CRT_CMD 1 r)

/-- `BOOT_LINK` (R546). -/
def execBootLink (q : Requester) (s : State) : Host.Outcome State Fault Refusal := finish (setReg s q .SEC_CMD 1)
/-- `BOOT_COPY_A` (R546). -/
def execBootCopyA (q : Requester) (s : State) : Host.Outcome State Fault Refusal := finish (setReg s q .SEC_CMD 2)
/-- `BOOT_COPY_B` (R546). -/
def execBootCopyB (q : Requester) (s : State) : Host.Outcome State Fault Refusal := finish (setReg s q .SEC_CMD 3)
/-- `KEY_COMMAND` (R547). -/
def execKeyCommand (q : Requester) (s : State) : Host.Outcome State Fault Refusal := finish (setReg s q .SEC_CMD 4)
/-- `DEBUG_OPEN` (R550). -/
def execDebugOpen (q : Requester) (s : State) : Host.Outcome State Fault Refusal := finish (setReg s q .SEC_CMD 5)
/-- `DEBUG_CLOSE` (R550). -/
def execDebugClose (q : Requester) (s : State) : Host.Outcome State Fault Refusal := finish (setReg s q .SEC_CMD 6)
/-- `DEBUG_CHALLENGE` (R548). -/
def execDebugChallenge (q : Requester) (s : State) : Host.Outcome State Fault Refusal := finish (setReg s q .SEC_CMD 7)
/-- `QUOTE` (R552). -/
def execQuote (q : Requester) (s : State) : Host.Outcome State Fault Refusal := finish (setReg s q .SEC_CMD 8)
/-- `CFG_ROLLBACK` (R543). -/
def execCfgRollback (q : Requester) (n : BitVec 7) (s : State) : Host.Outcome State Fault Refusal :=
  finish (setReg s q .SEC_CMD (BitVec.ofNat 32 (9 + 256 * n.toNat)))

end Sys2Proof.Machine
end

