-- ==== Sys2Proof/Machine/Corridor.lean ====
section
/-! DEFINITION. The Corridor's own rows (chapter 17): packets on their way, the requests that wait for them, router
reconfiguration. A packet's row is the moment its target performs it; the answer is then on its way (R498). -/

namespace Sys2Proof.Machine

/-! Requests (R498). -/

/-- A request forgotten. -/
def dropReq (s : State) (q : Requester) (tag : BitVec 12) : State :=
  { s with reqs := s.reqs.filter fun r => !(r.who == q && r.tag == tag) }

/-- A core's global store draws an error (R375): the first one stands until a FENCE reports it. -/
def storeError (s : State) (k : Fin 32) (a : Word) (st : Status) : State :=
  let s := coreFault s k 0x0101 st.code a.toNat
  let c := s.core k
  if c.storeErr.isNone then s.setCore k { c with storeErr := some (a, st) } else s

/-- A store in a core's window has its response: those that no older one waits for leave it (R374). -/
def answerStore (tag : BitVec 12) (l : List (BitVec 12 × Bool)) : List (BitVec 12 × Bool) :=
  (l.map fun x => if x.1 == tag then (tag, true) else x).dropWhile Prod.snd

/-- A request completes at its requester. -/
def completeReq (s : State) (r : Req) (st : Status) : State :=
  match r.who, r.store with
  | .core k, some a =>
    let s := s.setCore k { s.core k with window := answerStore r.tag (s.core k).window }
    if st = .ok then s else storeError s k a st
  | _, _ => { s with rsp := { status := st, data := if st = .ok || st == .poison then r.data else [] } }

/-- A packet of the wrong form, or whose bytes span two destinations: the requester's own interface answers it with ADDRESS_ERROR
(R492, R494). -/
def wrongForm (s : State) (q : Requester) (c : PacketCmd) (a n : Nat) : Bool :=
  match c with
  | .amoadd | .swap | .cas => a % 4 != 0
  | _ => !packetForm a n || spans s q a n

/-- A request under a tag reaches its target, which performs `act`, or is answered on its way; the answer is then on its way back
(R495 to R498). What the requester's own interface answers is complete at once. -/
def ask (s : State) (q : Requester) (tag : BitVec 12) (c : PacketCmd) (a n : Nat) (x : Transit) (store : Option Word)
    (act : State → State × Status × List Byte) : State :=
  if portOpen s q = false ∨ (reqOf s q tag).isSome = true then s else
  let r : Req := { who := q, tag := tag, reads := c.reads, status := .ok, addr := a, store := store }
  let put (s : State) (r : Req) : State := { s with reqs := s.reqs ++ [r] }
  if wrongForm s q c a n then completeReq s r .addressError else
  let k := carry s q (requestOf q c a n tag.toNat) x
  match k.2 with
  | .own st => completeReq k.1 r st
  | .gone => put k.1 { r with status := .timeout, lost := true }
  | .stop z st => put k.1 { r with status := st, router := z }
  | .target d bad =>
    let y := if bad then (k.1, .poison, []) else act k.1
    put y.1 { r with status := y.2.1, data := y.2.2, router := d.router, port := some d.port }

/-- What the target of a write does. -/
def writeAt (s : State) (q : Requester) (a : Nat) (bs : List Byte) : State × Status :=
  if inRegs a then
    (if regForm a bs.length then wordsWrite q (wordsOf bs (bs.length / 4)) s (a - regBase) else (s, .addressError))
  else
    let st := memStatus s q a bs.length true
    (if st = .ok then store s a bs else s, st)

/-- What the target of a read does. -/
def readAt (s : State) (q : Requester) (a n : Nat) (e : Ecc) : State × Status × List Byte :=
  if inRegs a then (if regForm a n then wordsRead 0 (n / 4) s (a - regBase) else (s, .addressError, []))
  else memReadAt s q a n e

/-- `CORRIDOR_RD` (R495). -/
def execCorridorRd (q : Requester) (tag : BitVec 12) (a : Addr) (n : Nat) (e : Ecc) (x : Transit) (s : State) :
    Host.Outcome State Fault Refusal :=
  finish (ask s q tag .rd a.toNat n x none fun s => readAt s q a.toNat n e)

/-- A tagged write. -/
def askWrite (s : State) (q : Requester) (tag : BitVec 12) (a : Nat) (bs : List Byte) (x : Transit) (store : Option Word) :
    State :=
  ask s q tag .wr a bs.length x store fun s =>
    let r := writeAt s q a bs
    (r.1, r.2, [])

/-- `CORRIDOR_WR` (R495). -/
def execCorridorWr (q : Requester) (tag : BitVec 12) (a : Addr) (bs : List Byte) (x : Transit) (s : State) :
    Host.Outcome State Fault Refusal :=
  finish (askWrite s q tag a.toNat bs x none)

/-- `CORRIDOR_AMOADD` (R495). -/
def execCorridorAmoadd (q : Requester) (tag : BitVec 12) (a : Addr) (v : Word) (e : Ecc) (x : Transit) (s : State) :
    Host.Outcome State Fault Refusal :=
  finish (ask s q tag .amoadd a.toNat 4 x none fun s => atomicAt s q a.toNat e fun old => some (old + v.toNat))

/-- `CORRIDOR_SWAP` (R495). -/
def execCorridorSwap (q : Requester) (tag : BitVec 12) (a : Addr) (v : Word) (e : Ecc) (x : Transit) (s : State) :
    Host.Outcome State Fault Refusal :=
  finish (ask s q tag .swap a.toNat 4 x none fun s => atomicAt s q a.toNat e fun _ => some v.toNat)

/-- `CORRIDOR_CAS` (R495). -/
def execCorridorCas (q : Requester) (tag : BitVec 12) (a : Addr) (want v : Word) (e : Ecc) (x : Transit) (s : State) :
    Host.Outcome State Fault Refusal :=
  finish (ask s q tag .cas a.toNat 4 x none fun s =>
    atomicAt s q a.toNat e fun old => if old = want.toNat then some v.toNat else none)

/-! Posted packets (R495, R500, R504). -/

/-- The page of the block that an address belongs to: a channel's, the banks', a core's, a register page's own block. -/
def targetPage (s : State) (a : Nat) : Nat :=
  match targetOf a with
  | .ddr => 0x300 + (ddrRoute s a).1
  | .core k _ => 0x600 + k
  | .reg _ => ((blockAt a).map pageOf).getD 0
  | _ => 2

/-- A posted packet that its target cannot perform is dropped and counted in the target's block (R495). -/
def dropPosted (s : State) (a : Nat) : State :=
  let p := targetPage s a
  { s with posted := tset id 0 s.posted p (tget 0 s.posted p + 1) }

/-- A posted packet of requester `q` to `a` reaches its target, which performs `act`, or is dropped where it stops; one that its
own interface does not send is gone (R492). -/
def post (s : State) (q : Requester) (c : PacketCmd) (a n : Nat) (x : Transit) (act : State → State × Status) : State :=
  if wrongForm s q c a n then s else
  let k := carry s q (requestOf q c a n) x
  match k.2 with
  | .own _ | .gone | .stop _ _ => k.1
  | .target _ bad =>
    let r := if bad then (k.1, .poison) else act k.1
    if r.2 = .ok then r.1 else dropPosted r.1 a

/-- A posted write (R495). -/
def postWrite (s : State) (a : Nat) (bs : List Byte) (x : Transit) : State :=
  post s .host .wrp a bs.length x fun s => writeAt s .host a bs

/-- `CORRIDOR_WRP`: the host's posted writes are the only ones (R495). -/
def execCorridorWrp (a : Addr) (bs : List Byte) (x : Transit) (s : State) : Host.Outcome State Fault Refusal :=
  finish (postWrite s a.toNat bs x)

/-- The doorbell of core `k` rung by a core: the packet goes to the port of the core it names (R495, R413). -/
def ring (s : State) (q : Fin 32) (k : Fin 32) (x : Transit) : State :=
  post s (.core q) .dbell (coreMem k 0) 4 x fun s => (s.evt (.core k) 1, .ok)

/-- `CORRIDOR_DBELL` (R495). -/
def execCorridorDbell (q k : Fin 32) (x : Transit) (s : State) : Host.Outcome State Fault Refusal := finish (ring s q k x)

/-! Responses (R497, R498). -/

/-- A response reaches its requester: one whose tag is not outstanding is discarded and counted. -/
def response (s : State) (q : Requester) (tag : BitVec 12) (x : Transit) (reads : Bool) : State :=
  let e := (endpointOf q).router
  match reqOf s q tag with
  | none => s.count .CRT_DROP_RSP 1 e
  | some r =>
    if r.reads ≠ reads ∨ r.lost = true then s.count .CRT_DROP_RSP 1 e
    else
      let p := responseTo reads r.addr r.data.length r.status tag.toNat
      let c := comesBack (compareBack (x.upsets.foldl detourUpset s) q r.router p x) q r.router r.port p r.status x.back
      match c.2 with
      | none => { c.1 with reqs := c.1.reqs.map fun y => if y = r then { y with lost := true } else y }
      | some st =>
        let s := dropReq c.1 q tag
        if r.late then s.count .CRT_DROP_RSP 1 e else completeReq s r st

/-- `RSP_DATA` (R498). -/
def execRspData (q : Requester) (tag : BitVec 12) (x : Transit) (s : State) : Host.Outcome State Fault Refusal :=
  finish (response s q tag x true)

/-- `RSP_NODATA` (R375, R498). -/
def execRspNodata (q : Requester) (tag : BitVec 12) (x : Transit) (s : State) : Host.Outcome State Fault Refusal :=
  finish (response s q tag x false)

/-- A request completes with TIMEOUT; its tag stays in use until the late response comes (R498). -/
def reqTimeout (s : State) (q : Requester) (tag : BitVec 12) : State :=
  let e := (endpointOf q).router
  match reqOf s q tag with
  | none => s
  | some r =>
    if r.late = true ∨ s.rdf .CRT_RSP_TIMEOUT 0 16 e = 0 then s
    else
      let s := { s with reqs := s.reqs.map fun y => if y = r then { y with late := true, store := none } else y }
      completeReq (s.orIn .CRT_CAUSE 0x40 e) r .timeout

/-- `RESPONSE_TIMEOUT` (R498). -/
def execResponseTimeout (q : Requester) (tag : BitVec 12) (s : State) : Host.Outcome State Fault Refusal :=
  finish (reqTimeout s q tag)

/-! The bank DMA engines' packets (R449). -/

/-- A packet of a bank's DMA engine over the Corridor, to or from any global address. -/
def dmaPass (b : Fin 64) (out : Bool) (e : Ecc) : State → Nat → Nat → Nat → State × Status :=
  dmaMove (fun s a n e => busRead s (.bankDma b) a n e) (fun s a bs x => busWrite s (.bankDma b) a bs x) b out e

/-- A copy performed to its end: `e` is what error correction finds in its first packet. -/
def dmaWhole (s : State) (b : Fin 64) (e : Ecc) : State × Option (Status × Nat) :=
  let c := s.spb b
  let n := dmaPacket c.addr c.len
  let r := dmaPass b c.out e s (dmaBank s b) c.addr n
  if r.2 = .ok then dmaCopy (dmaPass b c.out .ok) 1024 r.1 (dmaBank s b + n) (c.addr + n) (c.len - n)
  else (r.1, some (r.2, c.addr))

/-- `BANK_DMA_END` (R449, R450): a copy that waits for an answer that will not come does not end (R498). -/
def execBankDmaEnd (b : Fin 64) (e : Ecc) (s : State) : Host.Outcome State Fault Refusal :=
  finish <|
    if dmaBusy s b = true ∧ (s.spb b).stuck = false then
      let r := dmaWhole s b e
      match r.2 with
      | some (.noAnswer, _) => r.1.setSpb b { r.1.spb b with stuck := true }
      | some (st, ga) => dmaFail r.1 b st ga
      | none => (r.1.wr .SPB_DMA_STATUS 2 b).evt .banks 3
    else s

/-! Reconfiguration (R505 to R507). -/

/-- A router quiesces for an `APPLY`, not for a reset K (R505, R508). -/
def quiescing (s : State) (r : Nat) : Bool := bit (s.rd .CRT_STATUS r) 0 && !(tget false s.resetting (0x700 + r))

/-- `RECONFIG_DONE` (R505, R507). -/
def execReconfigDone (r : Fin 64) (s : State) : Host.Outcome State Fault Refusal :=
  done (if quiescing s r then
    let s := (s.wr .CRT_PORT_EN (s.rd .CRT_NEXT_PORT_EN r) r).wr .CRT_VN_PART (s.rd .CRT_NEXT_VN_PART r) r
    let s := { s with detourDiff := tset id 0 s.detourDiff r.val 0 }
    ((s.wr .CRT_DETOUR (s.rd .CRT_NEXT_DETOUR r) r).clearIn .CRT_STATUS 3 r).orIn .CRT_CAUSE 2 r
  else s)

/-- `QUIESCE_TIMEOUT` (R505). -/
def execQuiesceTimeout (r : Fin 64) (s : State) : Host.Outcome State Fault Refusal :=
  done (if quiescing s r then
    ((s.clearIn .CRT_STATUS 1 r).fault (.router r) 0x0103).orIn .CRT_CAUSE 4 r
  else s)

end Sys2Proof.Machine
end

