-- ==== Sys2Proof/Machine/TileMemory.lean ====
section
/-! DEFINITION. Responses at the tiles' memory ports (R260, R298 to R301). -/

namespace Sys2Proof.Machine

/-- Two memory operations of tile `t` that go to one port of a target, or touch a common byte: the target performs them in the
order sent (R260, R502). -/
def memOrdered (s : State) (t : Nat) (f g : Firing) : Bool :=
  decide (memAddr f < memAddr g + memSize g) && decide (memAddr g < memAddr f + memSize f) ||
  (destOf s t (memAddr f)).isSome && destOf s t (memAddr f) == destOf s t (memAddr g)

/-- The operation's access at its target: status and the value that R takes (R298). -/
def memAccess (s : State) (t : Fin 48) (f : Firing) (e : Ecc) : State × Status × Nat :=
  let a := memAddr f
  let n := memSize f
  match cOp f.word with
  | 0x90 =>
    let r := busRead s (.tileMem t) a n e
    let v := leNat r.2.2
    (r.1, r.2.1, if bit f.word 118 then toBits 32 (sgn (8 * n) v) else v)
  | 0x91 =>
    let r := busWrite s (.tileMem t) a (leBytes n f.b.toNat) e.net
    (r.1, r.2, f.b.toNat)
  | _ =>
    let r := busAtomic s (.tileMem t) .amoadd a e fun old => some (old + f.b.toNat)
    (r.1, r.2.1, leNat r.2.2)

/-- The response to issued request `i` of tile `t`, performed and delivered together (log 37) while the tile's domain is on or
drains (R504); requests to one target stay in the order sent (R260, R502). One whose response will not come stays issued (R498). -/
def memResponse (s : State) (t : Fin 48) (i : Nat) (e : Ecc) : State :=
  let v := s.tile t
  match v.mems[i]? with
  | none => s
  | some f =>
    if s.rdf .TILE_MEM_CFG 0 7 t ≤ i ∨ f.lost = true ∨ (v.mems.take i).any (fun g => !g.lost && memOrdered s t f g) = true ∨
        (s.asleep || !requesterOn s (.tileMem t)) = true then s
    else
      let r := memAccess s t f e
      let st := r.2.1
      if f.gone = true then
        let v := r.1.tile t
        r.1.setTile t { v with mems := v.mems.eraseIdx i }
      else if st = .noAnswer then
        let v := r.1.tile t
        r.1.setTile t { v with mems := v.mems.set i { f with lost := true } }
      else
      let v := r.1.tile t
      let s := r.1.setTile t { v with mems := v.mems.eraseIdx i }
      let ok := st == .ok
      let s := if ok then s else raiseFlags s t f.fu f.pctx f.epoch 8
      let s := credit s (creditGroup f.tag) ((countedOuts f (some ok) : Int) - countedOuts f none)
      let value : Word := if ok || st == .poison then BitVec.ofNat 32 r.2.2 else 0
      produce s t f (fun _ => 140) value 0 ok f.tag (!ok && st != .poison) (st == .poison)

/-- The operations of a tile that a recovery waits for complete, in the order sent; what they answer is discarded (R478). -/
def lastAccesses (s : State) (t : Fin 48) : State :=
  let s := ((s.tile t).mems.filter (·.gone)).foldl (fun s f => (memAccess s t f .ok).1) s
  s.setTile t { s.tile t with mems := (s.tile t).mems.filter fun f => !f.gone }

/-- `RECOVERY_COMPLETE` (R478). -/
def execRecoveryComplete (d : Fin 4) (lost : List (Fin 48)) (s : State) : Host.Outcome State Fault Refusal :=
  finish (if recovering s d then
    let g := coupled s d
    completeRecovery (((List.finRange 48).filter fun (t : Fin 48) => g.contains (tileDomain s t)).foldl lastAccesses s) g
      (lost.map (·.val))
  else s)

/-- `MEMORY_OP_RESPONSE` (R301). -/
def execMemoryOpResponse (t : Fin 48) (i : Fin 64) (e : Ecc) (s : State) : Host.Outcome State Fault Refusal :=
  finish (memResponse s t i e)

end Sys2Proof.Machine
end

