-- ==== Sys2Proof/Machine/Cells.lean ====
section
/-! DEFINITION. A stream core's accesses and stacks: the core address space (R372 to R376), the cells that move between a
stack cache and its region (R404 to R409), and the taking of traps and interrupts (R384 to R386, R398, R399). -/

namespace Sys2Proof.Machine

/-! Accesses. -/

/-- What an access of a core leaves: state, the cause, detail and address of a trap (cause 0 for none), the value read; of the
cells brought into a cache, the data cells as the instruction reads them. -/
structure Got where
  s : State
  cause : Nat := 0
  detail : Nat := 0
  addr : Option Word := none
  val : Nat := 0
  seen : List Word := []
  deriving DecidableEq, Repr

/-- The global address of a window address: bank `b`'s `SC_GWIN0` or `SC_GWIN1` and the offset in the window (R372). -/
def globalOf (b : Bank) (a : Nat) : Nat :=
  (b.sp (if a < 0xC0000000 then 0x07 else 0x08)).toNat * 2 ^ 30 + a % 2 ^ 30

/-- The cause that stands for an access without an answer, for which its core waits (R374, R498). -/
def never : Nat := 0x20

/-- The trap of a status (R375): cause and detail, 0 and 0 for OK. -/
def statusTrap (st : Status) : Nat × Nat :=
  if st = .ok then (0, 0) else if st = .poison then (7, 0) else if st = .noAnswer then (never, 0) else (6, 0x10 + st.code)

/-- `n` bytes of a core's own memory at core address `a`; trap POISON with detail 1 where they are uncorrectable (R376). -/
def localRead (s : State) (k a n : Nat) (e : Ecc) : Got :=
  let s := applyEcc s (coreMem k a) e
  if badIn s (coreMem k a) n then { s := s, cause := 7, detail := 1 } else { s := s, val := s.leAt (coreMem k a) n }

/-- `n` bytes of a core's own memory written. -/
def localWrite (s : State) (k a n v : Nat) : State := store s (coreMem k a) (leBytes n v)

/-- The parts of the core address space (R372): 0 unmapped, 1 own memory, 2 landing slots, 3 windows. -/
def coreArea (a : Nat) : Nat :=
  if a < 0x8000 ∨ 0x10000 ≤ a ∧ a < 0x30000 then 1 else if 0x30000 ≤ a ∧ a < 0x300C0 then 2
  else if 0x80000000 ≤ a ∧ a < 0x100000000 then 3 else 0

/-- The trap that the address of an access meets (R372, R373, R384): ALIGN before ACCESS. -/
def addrTrap (a n : Nat) (write : Bool) : Nat × Nat :=
  if a % n ≠ 0 then (5, n)
  else if coreArea a = 0 then (6, 0)
  else if coreArea a = 2 ∧ write = true then (6, 1)
  else (0, 0)

/-- Bytes of a landing slot as the core reads them (R372, R426); those of an empty slot read 0. -/
def slotRead (s : State) (k a n : Nat) : Nat :=
  let o := a - 0x30000
  leNat (((s.landing k (o / 0x60)).bytes.drop (o % 0x60)).take n)

/-- A load of `n` bytes at core address `a` (R373 to R376). -/
def coreLoad (s : State) (k : Fin 32) (a n : Nat) (e : Ecc) (x : Transit) : Got :=
  let t := addrTrap a n false
  if t.1 ≠ 0 then { s := s, cause := t.1, detail := t.2 }
  else if coreArea a = 1 then localRead s k a n e
  else if coreArea a = 2 then { s := s, val := slotRead s k a n }
  else
    let g := globalOf (s.core k).cur a
    let r := busRead s (.core k) g n { e with net := x }
    let t := statusTrap r.2.1
    { s := r.1, cause := t.1, detail := t.2, val := leNat r.2.2 }

/-- An atomic of a word at core address `a`; `f` gives the word to write, none to leave it (R373). -/
def coreAtomic (s : State) (k : Fin 32) (c : PacketCmd) (a : Nat) (e : Ecc) (x : Transit) (f : Nat → Option Nat) : Got :=
  let t := addrTrap a 4 true
  if t.1 ≠ 0 then { s := s, cause := t.1, detail := t.2 }
  else if coreArea a = 1 then
    let r := localRead s k a 4 e
    if r.cause ≠ 0 then r
    else match f r.val with
      | some v => { r with s := localWrite r.s k a 4 v }
      | none => r
  else
    let g := globalOf (s.core k).cur a
    let r := busAtomic s (.core k) c g { e with net := x } f
    let t := statusTrap r.2.1
    { s := r.1, cause := t.1, detail := t.2, val := leNat r.2.2 }

/-- The outstanding global stores of a core (R374). -/
def storesOut (s : State) (k : Fin 32) : List Req := s.reqs.filter fun r => r.who == .core k && r.store.isSome && !r.late

/-- A global store leaves the core under the lowest free tag (log 36): its target performs it, and its response is on its
way (R374, R375). `none` where 16 stores stand behind the oldest without a response, or no tag is free. -/
def globalStore (s : State) (k : Fin 32) (a n v : Nat) (x : Transit) : Option State :=
  if 16 ≤ (s.core k).window.length then none
  else match freeTag s (.core k) 4096 0 with
    | none => none
    | some tag =>
      let s := s.setCore k { s.core k with window := (s.core k).window ++ [(tag, false)] }
      some (askWrite s (.core k) tag (globalOf (s.core k).cur a) (leBytes n v) x (some (BitVec.ofNat 32 a)))

/-! Stack cells. -/

/-- A bank's region can hold cells (R404). -/
def regionOk (b : Bank) : Bool :=
  let lo := b.sp 0x0A
  let hi := b.sp 0x0B
  areaOf lo.toNat != 0 && areaOf lo.toNat == areaOf hi.toNat && decide (lo.toNat ≤ hi.toNat)

/-- The trap of a cell's access (R384, R405): STACK_ERROR with detail 1 for a local memory, 0x10 and the status beyond. -/
def cellTrap (r : Got) (a : Word) (st : Status) : Got :=
  if r.cause ≠ 0 then { r with cause := 4, detail := 1, addr := some a }
  else if st = .noAnswer then { r with cause := never, addr := some a }
  else if st ≠ .ok then { r with cause := 4, detail := 0x10 + st.code, addr := some a } else r

/-- A cell of bank `bi`'s region read. -/
def cellRead (s : State) (k : Fin 32) (bi : Nat) (a : Word) (x : CoreEnv) : Got :=
  if areaOf a.toNat = 1 ∨ areaOf a.toNat = 2 then cellTrap (localRead s k a.toNat 4 x.cell) a .ok
  else
    let g := globalOf ((s.core k).bk bi) a.toNat
    let r := busRead s (.core k) g 4 { x.cell with net := x.cellNet }
    cellTrap { s := r.1, val := leNat r.2.2 } a r.2.1

/-- A cell of bank `bi`'s region written. -/
def cellWrite (s : State) (k : Fin 32) (bi : Nat) (a v : Word) (x : CoreEnv) : Got :=
  if areaOf a.toNat = 1 ∨ areaOf a.toNat = 2 then { s := localWrite s k a.toNat 4 v.toNat }
  else
    let g := globalOf ((s.core k).bk bi) a.toNat
    let r := busWrite s (.core k) g (leBytes 4 v.toNat) x.cellNet
    cellTrap { s := r.1 } a r.2

/-- Bank `bi` of core `k` changed. -/
def State.modBk (s : State) (k bi : Nat) (f : Bank → Bank) : State := s.setCore k ((s.core k).setBk bi (f ((s.core k).bk bi)))

/-- One data cell is filled, the newest spilled one (R405, R406). -/
def fillData (k : Fin 32) (bi : Nat) (x : CoreEnv) (s : State) : Got :=
  let b := (s.core k).bk bi
  if regionOk b = false ∨ b.dsp.toNat ≤ (b.sp 0x0A).toNat then { s := s, cause := 3, detail := 0 }
  else
    let r := cellRead s k bi (b.dsp - 4) x
    if r.cause ≠ 0 then r
    else { r with s := r.s.modBk k bi fun b => { b with ds := b.ds ++ [BitVec.ofNat 32 r.val], dsp := b.dsp - 4 } }

/-- One return cell is filled. -/
def fillRet (k : Fin 32) (bi : Nat) (x : CoreEnv) (s : State) : Got :=
  let b := (s.core k).bk bi
  if regionOk b = false ∨ (b.sp 0x0B).toNat ≤ b.rsp.toNat then { s := s, cause := 3, detail := 1 }
  else
    let r := cellRead s k bi b.rsp x
    if r.cause ≠ 0 then r
    else { r with s := r.s.modBk k bi fun b => { b with rs := b.rs ++ [BitVec.ofNat 32 r.val], rsp := b.rsp + 4 } }

/-- The oldest cached data cell is spilled. -/
def spillData (k : Fin 32) (bi : Nat) (x : CoreEnv) (s : State) : Got :=
  let b := (s.core k).bk bi
  if regionOk b = false ∨ b.rsp.toNat < b.dsp.toNat + 4 then { s := s, cause := 3, detail := 0 }
  else
    let r := cellWrite s k bi b.dsp (b.ds.getLast?.getD 0) x
    if r.cause ≠ 0 then r else { r with s := r.s.modBk k bi fun b => { b with ds := b.ds.dropLast, dsp := b.dsp + 4 } }

/-- The oldest cached return cell is spilled. -/
def spillRet (k : Fin 32) (bi : Nat) (x : CoreEnv) (s : State) : Got :=
  let b := (s.core k).bk bi
  if regionOk b = false ∨ b.rsp.toNat < b.dsp.toNat + 4 then { s := s, cause := 3, detail := 1 }
  else
    let r := cellWrite s k bi (b.rsp - 4) (b.rs.getLast?.getD 0) x
    if r.cause ≠ 0 then r else { r with s := r.s.modBk k bi fun b => { b with rs := b.rs.dropLast, rsp := b.rsp - 4 } }

/-- One after another until one traps. -/
def runMoves : List (State → Got) → Got → Got
  | [], r => r
  | f :: l, r => if r.cause ≠ 0 then r else runMoves l (f r.s)

/-- The cells that an instruction needs: read where they stand, popped and pushed, data and return. -/
structure Need where
  look : Nat := 0
  pop : Nat := 0
  push : Nat := 0
  rpop : Nat := 0
  rpush : Nat := 0
  deriving DecidableEq, Repr

/-- The data cells that an instruction reads. -/
def Need.reads (n : Need) : Nat := max n.look n.pop

/-- How many moves an instruction needs: data and return fills, data and return spills (R397, R405). -/
def movesFor (b : Bank) (n : Need) : Nat × Nat × Nat × Nat :=
  (n.reads - b.ds.length, n.rpop - b.rs.length,
   max b.ds.length n.reads - n.pop + n.push - 16, max b.rs.length n.rpop - n.rpop + n.rpush - 8)

/-- The moves of an instruction would cross a bound of the region (R406): the detail of STACK_LIMIT. -/
def limitOf (b : Bank) (m : Nat × Nat × Nat × Nat) : Option Nat :=
  let ok := regionOk b
  let dsp := b.dsp.toNat - 4 * m.1
  let rsp := b.rsp.toNat + 4 * m.2.1
  if m.1 ≠ 0 ∧ (ok = false ∨ b.dsp.toNat < (b.sp 0x0A).toNat + 4 * m.1) then some 0
  else if m.2.1 ≠ 0 ∧ (ok = false ∨ (b.sp 0x0B).toNat < rsp) then some 1
  else if m.2.2.1 ≠ 0 ∧ (ok = false ∨ rsp < dsp + 4 * m.2.2.1) then some 0
  else if m.2.2.2 ≠ 0 ∧ (ok = false ∨ rsp < dsp + 4 * m.2.2.1 + 4 * m.2.2.2) then some 1
  else none

/-- The cause that stands for a stack bound of bank T (R409, R414). -/
def boundT : Nat := 0x1F

/-- The cells that an instruction needs are brought into the caches of bank `bi`: fills first, newest cells first, then spills
of the oldest (R405 to R409). A cell that moved stays where it went, and the instruction has read what it needs before a spill
takes it; STACK_LIMIT goes before STACK_ERROR (R384). -/
def bringCells (s : State) (k : Fin 32) (bi : Nat) (n : Need) (x : CoreEnv) : Got :=
  let b := (s.core k).bk bi
  let m := movesFor b n
  if bi = bankT then
    let big := decide (8 < max b.ds.length n.reads - n.pop + n.push)
    if m.1 ≠ 0 ∨ big = true then { s := s, cause := boundT, detail := 0 }
    else if m.2.1 ≠ 0 ∨ m.2.2.2 ≠ 0 then { s := s, cause := boundT, detail := 1 }
    else { s := s, seen := b.ds.take n.reads }
  else
    let f := runMoves (List.replicate m.1 (fillData k bi x) ++ List.replicate m.2.1 (fillRet k bi x)) { s := s }
    let r := runMoves (List.replicate m.2.2.1 (spillData k bi x) ++ List.replicate m.2.2.2 (spillRet k bi x)) f
    if r.cause = never then r else
    match limitOf b m with
    | some d => { r with cause := 3, detail := d, addr := none }
    | none => { r with seen := ((f.s.core k).bk bi).ds.take n.reads }

/-! Traps. -/

/-- A trap to take: cause and detail, `SC_TRAP_ADDR`, `SC_EMU_OP` and `SC_EMU_PC` where they apply, `SC_TRAP_PC`, the resume
address, whether a delay slot raised it, whether it is a FENCE's report of a store. -/
structure TrapInfo where
  cause : Nat
  detail : Nat := 0
  addr : Option Word := none
  emu : Option (Word × Word) := none
  pc : Word
  resume : Word
  ds : Bool := false
  report : Bool := false
  deriving DecidableEq, Repr

/-- A frame of the return stack (R386). -/
def frame (resume : Word) (bank : Nat) (rep : Bool) : Word :=
  BitVec.ofNat 32 (resume.toNat % 65536 + 65536 * (bank % 4) + 262144 * rep.toNat)

/-- The trap registers of the bank that takes a trap (R385, R386). -/
def trapRegs (b : Bank) (t : TrapInfo) (origin : Nat) (rep : Bool) : Bank :=
  let b := (b.setSp 0x03 t.pc).setSp 0x04
    (BitVec.ofNat 32 (t.cause % 32 + 256 * (t.detail % 256) + 65536 * (origin % 4) + 262144 * t.ds.toNat + 524288 * rep.toNat))
  let b := match t.addr with
    | some a => b.setSp 0x05 a
    | none => b
  match t.emu with
  | some e => (b.setSp 0x01 e.1).setSp 0x02 (e.2 &&& 0xFFFF)
  | none => b

/-- A double stack fault: the core halts with its state as it is (R409, R414, R477). -/
def doubleFault (s : State) (k : Fin 32) (detail : Nat) : State :=
  let c := s.core k
  detect (coreFault (s.setCore k { c with run := .halted }) k 0x0100 detail (c.pc.toNat % 65536)) (coreDomain s k) (0x100 + k)

/-- The vector of a cause (R386, R399). -/
def vectorOf (c : Core) (cause : Nat) : Word := c.vbase + BitVec.ofNat 32 (0x10 * cause)

/-- A trap is taken in bank T, whose stacks are emptied first (R386, R408). An access that has no answer raises none: its core
waits for it until it is reset (R374, R498; log 71). -/
def enterT (s : State) (k : Fin 32) (t : TrapInfo) (origin : Nat) : State :=
  let c := s.core k
  if t.cause = never then s.setCore k { c with run := .blocked, hung := true } else
  let b := trapRegs { c.bk bankT with ds := [], rs := [frame t.resume origin c.rep] } t origin c.rep
  s.setCore k { c.setBk bankT b with bank := bankT, pc := vectorOf c t.cause, rep := false, run := .running }

/-- A trap is taken (R384 to R386, R409): in bank T it is a double stack fault; a current-bank frame that would cross the
stack bound makes the trap STACK_LIMIT. A FENCE's report of a failing store stands until its own trap is taken (R375). -/
def takeTrap (s : State) (k : Fin 32) (x : CoreEnv) (t : TrapInfo) : State :=
  let o := (s.core k).bank
  if t.cause = never then enterT s k t o
  else if o = bankT then doubleFault s k (if t.cause = boundT then boundT + 256 * t.detail else t.cause)
  else if t.cause = 3 ∨ t.cause = 4 then enterT s k t o
  else
    let r := bringCells s k o { rpush := 1 } x
    if r.cause ≠ 0 then
      enterT r.s k { cause := r.cause, detail := r.detail, addr := r.addr, pc := t.pc, resume := t.pc, ds := t.ds } o
    else
      let s := if t.report then r.s.setCore k { r.s.core k with storeErr := none } else r.s
      let c := s.core k
      let b := c.bk o
      let b := trapRegs { b with rs := frame t.resume o c.rep :: b.rs } t o c.rep
      s.setCore k { c.setBk o b with pc := vectorOf c t.cause, rep := false, run := .running }

/-! Interrupts. -/

/-- The interrupt level that core `k` takes at a boundary (R398). -/
def levelToTake (s : State) (k : Nat) : Option Nat := [3, 2, 1].find? fun L => requested s s.levels k L && takeable s k L

/-- A core works: its group is powered, it is not in a reset, not stopped, not halted (R409, R410)
and does not wait for an answer that will not come (R498). -/
def coreWorks (s : State) (k : Fin 32) : Bool :=
  s.ready (.core k) && !(s.core k).hung && !(s.core k).inReset && !(s.core k).stopped && (s.core k).run != .halted

/-- The highest level is taken (R399). -/
def enterLevel (s : State) (k : Fin 32) (L : Nat) (x : CoreEnv) : State :=
  let r := bringCells s k L { rpush := 1 } x
  let c := r.s.core k
  if r.cause ≠ 0 then enterT r.s k { cause := r.cause, detail := r.detail, addr := r.addr, pc := c.pc, resume := c.pc } L
  else
    let b := c.bk L
    r.s.setCore k { c.setBk L { b with rs := frame c.pc c.bank c.rep :: b.rs } with
      bank := L, pc := vectorOf c (16 + L), rep := false, run := .running }

/-- An interrupt that reached the core `since` intervals ago can be taken now (R401): an access inside an instruction completes
first, and a repetition holds it off for up to 32 intervals. -/
def interruptible (c : Core) (since : Nat) : Bool := c.run != .blocked && (!c.rep || decide (32 ≤ since))

/-- `INTERRUPT_ENTRY` (R398 to R401); a core that is to stop does so at the boundary instead (R410). -/
def execInterruptEntry (k : Fin 32) (x : CoreEnv) (s : State) : Host.Outcome State Fault Refusal :=
  finish (if coreWorks s k = true ∧ interruptible (s.core k) x.since = true then
    if (s.core k).stopping then s.setCore k { s.core k with stopped := true, stopping := false } else
    match levelToTake s k with
    | some L => enterLevel s k L x
    | none => s
  else s)

end Sys2Proof.Machine
end

