-- ==== Sys2Proof/Machine/Decoding.lean ====
section
/-! DEFINITION. Syllables of the stream cores: forms of the opcode map, EXT groups and immediates, reserved encodings
(R362 to R369, R379, R380). -/

namespace Sys2Proof.Machine

/-- The operand form of an opcode (R363 to R365): operand bits that must be zero, an immediate, or the EXT prefix. -/
inductive Form where
  | bits (mbz : Nat)
  | imm
  | ext
  deriving DecidableEq, Repr

/-- The forms of row 0x8: the signal processing instructions (R377). -/
def formDsp (n : Nat) : Option Form :=
  match n with
  | 0 | 1 => some (.bits 0)
  | 2 => some (.bits 0x40)
  | 3 => some (.bits 0xFC)
  | 4 => some (.bits 0)
  | 5 => some (.bits 0x80)
  | 6 | 7 => some (.bits 0xF8)
  | 8 | 9 => some (.bits 0xFF)
  | 10 | 11 => some (.bits 0xF0)
  | 12 | 13 => some (.bits 0xFF)
  | 14 => some (.bits 0xF0)
  | _ => none

/-- The forms of row 0xA: the system instructions (R381). -/
def formSys (n : Nat) : Option Form :=
  match n with
  | 0 => some (.bits 0)
  | 3 => some (.bits 0xFE)
  | 7 => some (.bits 0xFC)
  | n => if n < 10 then some (.bits 0xFF) else none

/-- The opcode map with each opcode's form; `none` for a reserved opcode (R366, R367, R370, R373, R377, R378, R381). -/
def formOf (op : Nat) : Option Form :=
  let n := op % 16
  match op / 16 with
  | 0x0 => some (.bits (if n = 8 then 0xF0 else 0xFF))
  | 0x1 => if n < 10 then some .imm else none
  | 0x2 => if n < 2 then some (.bits 0xF8) else if n < 4 then some (.bits 0) else none
  | 0x3 => if n < 15 then some (.bits 0xFF) else none
  | 0x4 => if n < 10 then some (.bits 0xFF) else none
  | 0x5 => if n < 14 then some (.bits 0xFF) else none
  | 0x6 => if n = 0 then some (.bits 0xF0) else if 2 ≤ n ∧ n < 5 then some .imm
    else if 5 ≤ n ∧ n < 8 then some (.bits 0xF8) else if n < 10 then some (.bits 0xFF) else none
  | 0x7 => if n < 8 then some .imm else if n < 12 then some (.bits 0xFF) else none
  | 0x8 => formDsp n
  | 0x9 => if n < 4 ∨ n = 8 ∨ n = 9 then some .imm else if n < 8 then some (.bits 0xFF) else none
  | 0xA => formSys n
  | 0xB => some .imm
  | 0xC => some .imm
  | 0xD => if n < 10 then some .imm else none
  | 0xE => if n = 0 then some .ext else if n = 3 ∨ n = 4 then some .imm else if n < 6 then some (.bits 0xFF) else none
  | _ => none

/-- A slot-illegal opcode (R379): EXT, 0x90 to 0x99, 0xD0 to 0xD9, TRAP, BRK, WAIT, LAND. -/
def slotIllegal (op : Nat) : Bool :=
  op == 0xE0 || (0x90 ≤ op && op ≤ 0x99) || (0xD0 ≤ op && op ≤ 0xD9) || (0xA0 ≤ op && op ≤ 0xA3)

/-- An instruction as it is issued: opcode, operand byte, count of EXT syllables, the concatenated immediate (R364), the
address of its final syllable. -/
structure Insn where
  op : Nat
  arg : Nat
  exts : Nat
  raw : Nat
  last : Word
  deriving DecidableEq, Repr

/-- A signed immediate (R364). -/
def Insn.immS (i : Insn) : Word := BitVec.ofInt 32 (sgn (8 * (i.exts + 1)) i.raw)
/-- An unsigned immediate. -/
def Insn.immU (i : Insn) : Word := BitVec.ofNat 32 i.raw

/-- The bits of a special register that a WRS changes (R368, R369, R392); `none` where a WRS is a reserved operand value. -/
def specMask (n : Nat) : Option Word :=
  if n = 0x00 then some 0x107
  else if n = 0x06 then some 0x7E00
  else if n = 0x07 ∨ n = 0x08 then some 0x3FFFF
  else if n = 0x0A ∨ n = 0x0B then some 0xFFFFFFFC
  else if 0x10 ≤ n ∧ n < 0x18 then some 0xFFFF
  else if n = 0x18 then some 0xF
  else none

/-- A special register that RDS may name (R368). -/
def specListed (n : Nat) : Bool := n ≤ 0x0C || (0x10 ≤ n && n ≤ 0x18)

/-- An operand value that a table makes reserved (R365, R368, R370, R377). -/
def reservedValue (i : Insn) : Bool :=
  if i.op = 0x60 then decide (10 ≤ i.arg)
  else if i.op = 0x62 ∨ i.op = 0x63 ∨ i.op = 0x64 then !(fieldOk i.immU)
  else if i.op = 0x22 then !(specListed i.arg)
  else if i.op = 0x23 then (specMask i.arg).isNone
  else if i.op = 0x84 then i.arg / 64 == 3
  else if i.op = 0x85 then i.arg / 32 == 3
  else if i.op = 0x86 ∨ i.op = 0x87 then i.arg / 2 == 3
  else false

/-- Where a syllable is issued: by itself, in a delay slot, or as a repetition (R379, R380). -/
inductive Mode where
  | normal | slot | rep
  deriving DecidableEq, Repr

/-- What fetch and decode give: an instruction, or a trap with the opcode that meets it (none at a fetch error or a fourth
EXT) and `SC_EMU_OP`. -/
inductive Decoded where
  | ok (i : Insn)
  | trap (cause detail : Nat) (op : Option Nat) (emu : Word)
  deriving DecidableEq, Repr

/-- The syllable at `a` as fetch sees it (R362, R376). -/
def syllable (s : State) (k : Nat) (a : Word) : Nat :=
  let code := (s.core k).code
  (tget 0 code (coreMem k a.toNat)).toNat + 256 * (tget 0 code (coreMem k (a.toNat + 1))).toNat

/-- A syllable cannot be fetched at `a`: detail of FETCH_ERROR (R384). -/
def fetchTrap (s : State) (k : Nat) (a : Word) : Option Nat :=
  if a.toNat % 2 = 1 ∨ 0x8000 ≤ a.toNat then some 0
  else if badIn s (coreMem k a.toNat) 2 then some 1
  else none

/-- One syllable `w`, not EXT, after `e` EXT syllables whose bytes spell `acc`: the instruction, or the detail of EMULATE. -/
def oneInsn (f : Form) (w e acc : Nat) (a : Word) : Insn ⊕ Nat :=
  let i : Insn := { op := w / 256, arg := w % 256, exts := e, raw := acc * 256 + w % 256, last := a }
  match f with
  | .bits m => if e ≠ 0 then .inr 3 else if w % 256 &&& m ≠ 0 then .inr 1 else if reservedValue i then .inr 2 else .inl i
  | _ => if reservedValue i then .inr 2 else .inl i

/-- Fetch and decode from `a` on, `e` EXT syllables read (R362 to R366, R379, R380, R384). -/
def decodeFrom (s : State) (k : Nat) (m : Mode) : Nat → Word → Nat → Nat → Decoded
  | 0, _, _, _ => .trap 1 0 none 0
  | fuel + 1, a, e, acc =>
    match fetchTrap s k a with
    | some d => .trap 1 d none 0
    | none =>
      let w := syllable s k a
      let op := w / 256
      let emu : Word := BitVec.ofNat 32 (w + 65536 * e)
      match formOf op with
      | none => .trap 2 (if e = 0 then 0 else 3) (some op) emu
      | some f =>
        if m ≠ .normal ∧ slotIllegal op = true then .trap 2 (if m = .slot then 4 else 5) (some op) emu
        else if f = .ext then
          if e = 3 then .trap 2 3 none emu else decodeFrom s k m fuel (a + 2) (e + 1) (acc * 256 + w % 256)
        else match oneInsn f w e acc a with
          | .inl i => .ok i
          | .inr d => .trap 2 d (some op) emu

/-- The instruction at `a`. -/
def decodeAt (s : State) (k : Nat) (m : Mode) (a : Word) : Decoded := decodeFrom s k m 4 a 0 0

/-! The cells that each instruction pops and pushes. -/

/-- The stack instructions (R367). -/
def needStack (n arg : Nat) : Need :=
  match n with
  | 0 => {}
  | 1 => { pop := 1 }
  | 2 => { pop := 1, push := 2 }
  | 3 => { pop := 2, push := 2 }
  | 4 => { pop := 2, push := 3 }
  | 5 => { pop := 3, push := 3 }
  | 6 => { pop := 2, push := 1 }
  | 7 => { pop := 2, push := 3 }
  | 8 => { look := arg + 1, push := 1 }
  | 9 => { pop := 2 }
  | 10 => { pop := 2, push := 4 }
  | 11 => { pop := 4, push := 4 }
  | 12 => { push := 1 }
  | 13 => { pop := 1, rpush := 1 }
  | 14 => { push := 1, rpop := 1 }
  | _ => { push := 1, rpop := 1, rpush := 1 }

/-- The signal processing instructions (R377). -/
def needDsp (n : Nat) : Need :=
  match n with
  | 4 | 5 | 6 | 10 => { push := 1 }
  | 7 | 11 => { pop := 1 }
  | 8 | 14 => { pop := 1, push := 1 }
  | 12 | 13 => { pop := 2, push := 1 }
  | _ => {}

/-- The branches (R378). -/
def needBranch (n raw : Nat) : Need :=
  match n with
  | 1 | 2 => { pop := 1 }
  | 3 => { rpush := 1 }
  | 4 => { pop := 1 }
  | 5 => { pop := 1, rpush := 1 }
  | 6 | 7 => { rpop := 1 }
  | 8 => { rpop := 1, rpush := 1 }
  | 9 => { pop := if raw = 0 then 1 else 0 }
  | _ => {}

/-- The system instructions (R381). -/
def needSys (n : Nat) : Need :=
  match n with
  | 3 => { push := 1 }
  | 4 | 5 | 8 => { pop := 1 }
  | 7 => { pop := 2 }
  | 9 => { push := 2 }
  | _ => {}

/-- The cells of an instruction (R367, R370, R373, R377, R378, R381). -/
def needOf (i : Insn) : Need :=
  let n := i.op % 16
  match i.op / 16 with
  | 0x0 => needStack n i.arg
  | 0x1 => if n < 2 then { push := 1 } else { pop := 1, push := 1 }
  | 0x2 => if n % 2 = 0 then { push := 1 } else { pop := 1 }
  | 0x3 => if n = 6 ∨ n = 7 then { pop := 1, push := 1 } else if n = 14 then { pop := 3, push := 1 } else { pop := 2, push := 1 }
  | 0x4 => if n = 3 then { pop := 3, push := 1 } else if n = 8 ∨ n = 9 then { pop := 2, push := 2 } else { pop := 2, push := 1 }
  | 0x5 => if n = 4 ∨ 10 ≤ n then { pop := 1, push := 1 } else { pop := 2, push := 1 }
  | 0x6 => if n = 1 then { pop := 3, push := 1 } else if n = 2 ∨ n = 3 ∨ n = 9 then { pop := 1, push := 1 }
    else { pop := 2, push := 1 }
  | 0x7 => if n < 5 then { pop := 1, push := 1 } else if n < 8 then { pop := 2 } else if n < 10 then { pop := 2, push := 1 }
    else if n = 10 then { pop := 3, push := 1 } else {}
  | 0x8 => needDsp n
  | 0x9 => needBranch n i.raw
  | 0xA => needSys n
  | 0xB => {}
  | 0xC => if n < 8 then { push := 1 } else { pop := 1 }
  | 0xD => { pop := 2 }
  | 0xE => if n = 4 then { push := 1 } else { pop := 1, push := 1 }
  | _ => {}

end Sys2Proof.Machine
end

