-- ==== Sys2Proof/Machine/CoreAlu.lean ====
section
/-! DEFINITION. The effects of the stream core's stack, literal, register and arithmetic instructions (R367 to R371). -/

namespace Sys2Proof.Machine

/-- What an instruction does once its cells are in the caches: it completes and pushes cells (top first), completes and goes
on at an address, traps, waits with no effect (R374, R383), waits in WAIT, or halts for a debug session. -/
inductive Out where
  | done (s : State) (ds rs : List Word)
  | goto (s : State) (pc : Word)
  | trap (s : State) (cause detail : Nat) (addr : Option Word)
  | stall (s : State)
  | wait (s : State)
  | sleep (s : State)
  | halt (s : State)
  deriving DecidableEq, Repr

/-- The `n`-th popped cell, 0 the top. -/
def cell (d : List Word) (n : Nat) : Word := d.getD n 0

/-! `SC_STATUS` and special registers (R368, R369). -/

/-- The current bank of core `k` changed. -/
def State.modCur (s : State) (k : Nat) (f : Bank → Bank) : State := s.modBk k (s.core k).bank f

/-- `SC_STATUS` of the current bank. -/
def statusOf (s : State) (k : Nat) : Word := (s.core k).cur.sp 0
/-- `SC_STATUS` of the current bank changed. -/
def modStatus (s : State) (k : Nat) (f : Word → Word) : State := s.modCur k fun b => b.setSp 0 (f (b.sp 0))
/-- V set where an instruction sets it; it is sticky (R369). -/
def raiseV (s : State) (k : Nat) (v : Bool) : State := if v then modStatus s k (· ||| 1) else s
/-- DZ set (R369, R371). -/
def raiseDz (s : State) (k : Nat) : State := modStatus s k (· ||| 2)
/-- C takes a carry or borrow (R369). -/
def putC (s : State) (k : Nat) (c : Bool) : State := modStatus s k fun w => (w &&& ~~~ (4 : Word)) ||| (if c then 4 else 0)
/-- C. -/
def carryOf (s : State) (k : Nat) : Bool := (statusOf s k).getLsbD 2

/-- A result pushed with its flags; a divide by zero traps where `DZTRAP` is 1 (R370, R371). -/
def give (s : State) (k : Nat) (x : Alu) (ds : List Word) : Out :=
  if x.dz then
    let s := raiseDz s k
    if (statusOf s k).getLsbD 8 then .trap s 8 0 none else .done s ds []
  else .done (raiseV s k x.v) ds []

/-- A result with its flags. -/
def giveR (s : State) (k : Nat) (x : Alu) : Out := give s k x [x.r]

/-- The operation of R294 on ( a b -- r ). -/
def op2 (s : State) (k fu fn : Nat) (d : List Word) : Out := giveR s k (aluOp fu fn (cell d 1) (cell d 0) 0 0)
/-- The operation of R294 on ( a -- r ). -/
def op1 (s : State) (k fu : Nat) (d : List Word) : Out := giveR s k (aluOp fu 0 (cell d 0) 0 0 0)
/-- The operation of R294 on ( a b c -- r ). -/
def op3 (s : State) (k fu : Nat) (d : List Word) : Out := giveR s k (aluOp fu 0 (cell d 2) (cell d 1) (cell d 0) 0)
/-- The operation of R294 on ( a -- r ) with an immediate as B and as the field. -/
def opI (s : State) (k fu : Nat) (imm : Word) (d : List Word) : Out := giveR s k (aluOp fu 0 (cell d 0) imm 0 imm)

/-- ADD and its kin: R, V and C (R369, R370). -/
def addC (s : State) (k : Nat) (a b : Word) (c : Bool) (f : State → Word → Out) : Out :=
  f (putC (raiseV s k (overflows (a.toInt + b.toInt + c.toNat))) k (decide (2 ^ 32 ≤ a.toNat + b.toNat + c.toNat)))
    (a + b + BitVec.ofNat 32 c.toNat)
/-- SUB and SUBB: R, V and the borrow. -/
def subC (s : State) (k : Nat) (a b : Word) (c : Bool) (f : State → Word → Out) : Out :=
  f (putC (raiseV s k (overflows (a.toInt - b.toInt - c.toNat))) k (decide (a.toNat < b.toNat + c.toNat)))
    (a - b - BitVec.ofNat 32 c.toNat)
/-- One cell pushed. -/
def pushOne (s : State) (w : Word) : Out := .done s [w] []

/-- DEPTH: cells cached and spilled (R367, R405). -/
def depthOf (b : Bank) : Nat := b.ds.length + (b.dsp.toNat - (b.sp 0x0A).toNat) / 4

/-- Row 0x0 of the opcode map: the stack instructions (R367). -/
def semStack (s : State) (k : Nat) (n : Nat) (d r : List Word) : Out :=
  let a := cell d 0
  let b := cell d 1
  let c := cell d 2
  match n with
  | 0 => .done s [] []
  | 1 => .done s [] []
  | 2 => .done s [a, a] []
  | 3 => .done s [b, a] []
  | 4 => .done s [b, a, b] []
  | 5 => .done s [c, a, b] []
  | 6 => .done s [a] []
  | 7 => .done s [a, b, a] []
  | 8 => pushOne s (d.getLast?.getD 0)
  | 9 => .done s [] []
  | 10 => .done s [a, b, a, b] []
  | 11 => .done s [c, cell d 3, a, b] []
  | 12 => pushOne s (BitVec.ofNat 32 (depthOf (s.core k).cur))
  | 13 => .done s [] [a]
  | 14 => pushOne s (cell r 0)
  | _ => .done s [cell r 0] [cell r 0]

/-- Row 0x1: literals and immediate operations (R367). -/
def semLit (s : State) (k : Nat) (i : Insn) (d : List Word) : Out :=
  match i.op % 16 with
  | 0 => pushOne s i.immS
  | 1 => pushOne s i.immU
  | 2 => addC s k (cell d 0) i.immS false pushOne
  | 3 => opI s k 0x30 i.immU d
  | 4 => opI s k 0x31 i.immU d
  | 5 => opI s k 0x32 i.immU d
  | 6 => opI s k 0x38 i.immU d
  | 7 => opI s k 0x39 i.immU d
  | 8 => opI s k 0x3A i.immU d
  | _ => opI s k 0x3B i.immU d

/-- A special register as RDS reads it (R368). -/
def specRead (s : State) (k : Nat) (n : Nat) : Word :=
  if n = 0x06 then (s.core k).vbase else if n = 0x0C then BitVec.ofNat 32 k else (s.core k).cur.sp n

/-- A special register written by WRS (R55, R56, R368, R404): a reserved bound leaves the register and faults in the core
page, at the offset of the bank's mirror (0 in bank T). -/
def specWrite (s : State) (k : Fin 32) (n : Nat) (v : Word) : State :=
  let b := (s.core k).bank
  let w := v &&& (specMask n).getD 0
  if n = 0x06 then s.setCore k { s.core k with vbase := w }
  else if n = 0x0A ∨ n = 0x0B then
    if boundOk w then s.modCur k fun b => setBound b n w
    else s.fault (.core k) codeReserved (if b = bankT then 0 else 0x100 + 0x20 * b + 4 * (n - 0x0A)) v.toNat
  else s.modCur k fun b => b.setSp n w

/-- Row 0x2: local and special registers (R367, R368). -/
def semReg (s : State) (k : Fin 32) (i : Insn) (d : List Word) : Out :=
  match i.op % 16 with
  | 0 => pushOne s ((s.core k).cur.local (i.arg % 8))
  | 1 => .done (s.modCur k fun b => b.setLocal (i.arg % 8) (cell d 0)) [] []
  | 2 => pushOne s (specRead s k i.arg)
  | _ => .done (specWrite s k i.arg (cell d 0)) [] []

/-- Row 0x3: addition and comparison (R370). -/
def semAdd (s : State) (k : Nat) (n : Nat) (d : List Word) : Out :=
  let a := cell d 1
  let b := cell d 0
  match n with
  | 0 => addC s k a b false pushOne
  | 1 => op2 s k 0x11 0 d
  | 2 => op2 s k 0x12 0 d
  | 3 => subC s k a b false pushOne
  | 4 => op2 s k 0x14 0 d
  | 5 => op2 s k 0x15 0 d
  | 6 => op1 s k 0x16 d
  | 7 => op1 s k 0x17 d
  | 8 => op2 s k 0x18 0 d
  | 9 => op2 s k 0x19 0 d
  | 10 => op2 s k 0x1A 0 d
  | 11 => op2 s k 0x1B 0 d
  | 12 => addC s k a b (carryOf s k) pushOne
  | 13 => subC s k a b (carryOf s k) pushOne
  | _ => op3 s k 0x1C d

/-- A division of ( a b -- … ), quotient and remainder both for DIVREM (R370, R371). -/
def quotient (s : State) (k : Nat) (x : Alu) (both : Bool) : Out := give s k x (if both then [x.r2, x.r] else [x.r])

/-- Row 0x4: multiplication and division (R370, R371). -/
def semMul (s : State) (k : Nat) (n : Nat) (d : List Word) : Out :=
  let a := cell d 1
  let b := cell d 0
  match n with
  | 0 => op2 s k 0x20 0 d
  | 1 => op2 s k 0x21 0 d
  | 2 => op2 s k 0x22 0 d
  | 3 => op3 s k 0x23 d
  | 4 => quotient s k (aluDivS a b) false
  | 5 => quotient s k (aluDivU a b) false
  | 6 => quotient s k (aluDivS a b).rem false
  | 7 => quotient s k (aluDivU a b).rem false
  | 8 => quotient s k (aluDivS a b) true
  | _ => quotient s k (aluDivU a b) true

/-- Row 0x5: logic and shifts (R370). -/
def semLogic (s : State) (k : Nat) (n : Nat) (d : List Word) : Out :=
  match n with
  | 0 => op2 s k 0x30 0 d
  | 1 => op2 s k 0x31 0 d
  | 2 => op2 s k 0x32 0 d
  | 3 => op2 s k 0x33 0 d
  | 4 => op1 s k 0x34 d
  | 5 => op2 s k 0x38 0 d
  | 6 => op2 s k 0x39 0 d
  | 7 => op2 s k 0x3A 0 d
  | 8 => op2 s k 0x3B 0 d
  | 9 => op2 s k 0x3C 0 d
  | 10 => op1 s k 0x53 d
  | 11 => op1 s k 0x54 d
  | 12 => op1 s k 0x55 d
  | _ => op1 s k 0x56 d

/-- Row 0x6: conditions, fields, CRC and hash (R370). -/
def semBits (s : State) (k : Nat) (i : Insn) (d : List Word) : Out :=
  match i.op % 16 with
  | 0 => op2 s k 0x40 (i.arg % 16) d
  | 1 => op3 s k 0x41 d
  | 2 => opI s k 0x50 i.immU d
  | 3 => opI s k 0x51 i.immU d
  | 4 => giveR s k (aluOp 0x52 0 (cell d 1) (cell d 0) 0 i.immU)
  | 5 => op2 s k 0x60 (i.arg % 8) d
  | 6 => op2 s k 0x61 (i.arg % 8) d
  | 7 => op2 s k 0x62 (i.arg % 8) d
  | 8 => op2 s k 0x63 0 d
  | _ => op1 s k 0x64 d

/-- Row 0xB: LLIT and LADD (R367). -/
def semLocal (s : State) (k : Nat) (i : Insn) : Out :=
  let r := i.op % 8
  if i.op % 16 < 8 then .done (s.modCur k fun b => b.setLocal r i.immS) [] []
  else addC s k ((s.core k).cur.local r) i.immS false fun s w => .done (s.modCur k fun b => b.setLocal r w) [] []

/-- SATH: a value clamped to 16 bits; V where it clamps (R367). -/
def satH (a : Int) : Int × Bool := if a < -32768 then (-32768, true) else if 32767 < a then (32767, true) else (a, false)

/-- Row 0xE beside EXT (R367, R370). -/
def semMisc (s : State) (k : Nat) (i : Insn) (d : List Word) : Out :=
  let a := cell d 0
  match i.op % 16 with
  | 1 => pushOne s (BitVec.ofInt 32 (sgn 8 a.toNat))
  | 2 => pushOne s (BitVec.ofInt 32 (sgn 16 a.toNat))
  | 3 => pushOne s (a * i.immS)
  | 4 => pushOne s (i.last + 2 * i.immS)
  | _ => pushOne (raiseV s k (satH a.toInt).2) (BitVec.ofInt 32 (satH a.toInt).1)

end Sys2Proof.Machine
end

