-- ==== Sys2Proof/Machine/CoreMem.lean ====
section
/-! DEFINITION. The effects of the stream core's memory instructions (R372 to R376). -/

namespace Sys2Proof.Machine

/-- The trap of an access, or what follows it. -/
def Got.then (r : Got) (a : Word) (f : State → Nat → Out) : Out :=
  if r.cause = 0 then f r.s r.val else .trap r.s r.cause r.detail (some a)

/-- A load of `n` bytes, sign-extended where `sx` (R373). -/
def load (s : State) (k : Fin 32) (x : CoreEnv) (a : Word) (n : Nat) (sx : Bool) : Out :=
  (coreLoad s k a.toNat n x.data x.net).then a fun s v =>
    pushOne s (if sx then BitVec.ofInt 32 (sgn (8 * n) v) else BitVec.ofNat 32 v)

/-- A store of the low `n` bytes of `v` (R373 to R375); a 17th outstanding global store waits. -/
def saveTo (s : State) (k : Fin 32) (x : CoreEnv) (a : Word) (n : Nat) (v : Word) : Out :=
  let t := addrTrap a.toNat n true
  let v := v.toNat % 2 ^ (8 * n)
  if t.1 ≠ 0 then .trap s t.1 t.2 (some a)
  else if coreArea a.toNat = 1 then .done (localWrite s k a.toNat n v) [] []
  else match globalStore s k a.toNat n v x.net with
    | some s => .done s [] []
    | none => .stall s

/-- An atomic (R373). -/
def atomic (s : State) (k : Fin 32) (x : CoreEnv) (c : PacketCmd) (a : Word) (f : Nat → Option Nat) : Out :=
  (coreAtomic s k c a.toNat x.data x.net f).then a fun s v => pushOne s (BitVec.ofNat 32 v)

/-- FENCE (R374, R375): it waits until every earlier access has its response, and reports the first failing store once: the
report goes as its trap is taken (`takeTrap`). -/
def fence (s : State) (k : Fin 32) : Out :=
  if storesOut s k ≠ [] then .stall s
  else match (s.core k).storeErr with
    | some e => .trap s 6 (0x10 + e.2.code) (some e.1)
    | none => .done s [] []

/-- Row 0x7 of the opcode map (R373). -/
def semMem (s : State) (k : Fin 32) (x : CoreEnv) (i : Insn) (d : List Word) : Out :=
  let t := cell d 0
  let u := cell d 1
  match i.op % 16 with
  | 0 => load s k x (t + i.immS) 4 false
  | 1 => load s k x (t + i.immS) 2 true
  | 2 => load s k x (t + i.immS) 2 false
  | 3 => load s k x (t + i.immS) 1 true
  | 4 => load s k x (t + i.immS) 1 false
  | 5 => saveTo s k x (t + i.immS) 4 u
  | 6 => saveTo s k x (t + i.immS) 2 u
  | 7 => saveTo s k x (t + i.immS) 1 u
  | 8 => atomic s k x .amoadd t fun old => some ((old + u.toNat) % 2 ^ 32)
  | 9 => atomic s k x .swap t fun _ => some u.toNat
  | 10 => atomic s k x .cas t fun old => if old = (cell d 2).toNat then some u.toNat else none
  | _ => fence s k

/-- Row 0xC: LDR and STR (R373). -/
def semLocalMem (s : State) (k : Fin 32) (x : CoreEnv) (i : Insn) (d : List Word) : Out :=
  let a := (s.core k).cur.local (i.op % 8) + 4 * i.immS
  if i.op % 16 < 8 then load s k x a 4 false else saveTo s k x a 4 (cell d 0)

end Sys2Proof.Machine
end

