-- ==== Sys2Proof/Machine/CoreDsp.lean ====
section
/-! DEFINITION. The effects of the stream core's signal processing instructions (R377, R387 to R396). -/

namespace Sys2Proof.Machine

/-- The signed halves of a complex word: real in [15:0], imaginary in [31:16] (R377). -/
def re (w : Word) : Int := sgn 16 (fld w 0 16)
/-- The imaginary part. -/
def im (w : Word) : Int := sgn 16 (fld w 16 16)
/-- A word of two halves. -/
def packed (r i : Int) : Word := BitVec.ofNat 32 (toBits 16 r + 65536 * toBits 16 i)

/-- An address register. -/
def arOf (b : Bank) (n : Nat) : Nat := (b.sp (0x10 + n)).toNat % 65536
/-- The core address that address register `n` names: X memory for 0 and 1, Y memory for 2 and 3 (R392). -/
def arAddr (b : Bank) (n : Nat) : Word := BitVec.ofNat 32 ((if n < 2 then 0x10000 else 0x20000) + arOf b n)

/-- The `n` low bits of a number in reverse order. -/
def revBits : Nat → Nat → Nat
  | 0, _ => 0
  | n + 1, x => (x % 2) * 2 ^ n + revBits n (x / 2)

/-- The value of an address register after post-modification `m` with its offset register (R393). -/
def postMod (ar ofs m : Nat) : Nat :=
  match m with
  | 0 => ar
  | 1 => (ar + 4) % 65536
  | 2 => (ar + ofs) % 65536
  | _ => revBits 14 ((revBits 14 (ar / 4) + revBits 14 (ofs / 4 % 2 ^ 14)) % 2 ^ 14) * 4 + ar % 4

/-- Address register `n` modified after its access (R393). -/
def stepAr (b : Bank) (n m : Nat) : Bank :=
  b.setSp (0x10 + n) (BitVec.ofNat 32 (postMod (arOf b n) ((b.sp (0x14 + n)).toNat % 65536) m))

/-- The word that address register `n` names (R392). -/
def arLoad (s : State) (k : Fin 32) (n : Nat) (e : Ecc) : Got := coreLoad s k (arAddr (s.core k).cur n).toNat 4 e {}

/-- An accumulator with a sum added. -/
def accAdd (a : BitVec 72) (x : Int) : BitVec 72 := a + BitVec.ofInt 72 x

/-- CMAC, CMUL and RMAC (R387, R388, R392 to R394); `f` gives the products of the two words. -/
def mac (s : State) (k : Fin 32) (x : CoreEnv) (arg : Nat) (f : Word → Word → Int × Int)
    (upd : Bank → Int × Int → Bank) : Out :=
  let nx := arg % 2
  let ny := 2 + arg / 2 % 2
  let b := (s.core k).cur
  let ax := arAddr b nx
  let ay := arAddr b ny
  if ax.toNat % 4 ≠ 0 then .trap s 5 4 (some ax)
  else if ay.toNat % 4 ≠ 0 then .trap s 5 4 (some ay)
  else
    (arLoad s k nx x.data).then ax fun s v =>
      (arLoad s k ny x.data2).then ay fun s w =>
        let p := f (BitVec.ofNat 32 v) (BitVec.ofNat 32 w)
        let p := if arg / 128 % 2 = 1 then (-p.1, -p.2) else p
        .done (s.modCur k fun b => stepAr (stepAr (upd b p) nx (arg / 4 % 4)) ny (arg / 16 % 4)) [] []

/-- The complex product, Y conjugated where operand bit 6 asks (R387). -/
def cprod (arg : Nat) (x y : Word) : Int × Int :=
  let yi := if arg / 64 % 2 = 1 then -(im y) else im y
  (re x * re y - im x * yi, re x * yi + im x * re y)

/-- The accumulators take a sum on top of their values. -/
def addAcc (b : Bank) (p : Int × Int) : Bank := { b with acc0 := accAdd b.acc0 p.1, acc1 := accAdd b.acc1 p.2 }
/-- The accumulators take new values. -/
def putAcc (b : Bank) (p : Int × Int) : Bank := { b with acc0 := BitVec.ofInt 72 p.1, acc1 := BitVec.ofInt 72 p.2 }

/-- An arithmetic right shift by `n`, rounded (R389): 0 truncate, 1 half up, 2 half to even. -/
def roundShift (x : Int) (n mode : Nat) : Int :=
  if n = 0 then x
  else
    let q := x / 2 ^ n
    let r := x % 2 ^ n
    let h : Int := 2 ^ (n - 1)
    match mode with
    | 0 => q
    | 1 => (x + h) / 2 ^ n
    | _ => if h < r then q + 1 else if r = h then (if q % 2 = 0 then q else q + 1) else q

/-- A value saturated to `n` signed bits, and whether it saturated (R390). -/
def satTo (n : Nat) (x : Int) : Int × Bool :=
  if x < -(2 ^ (n - 1)) then (-(2 ^ (n - 1)), true) else if 2 ^ (n - 1) - 1 < x then (2 ^ (n - 1) - 1, true) else (x, false)

/-- An accumulator. -/
def accOf (b : Bank) (n : Nat) : BitVec 72 := if n = 0 then b.acc0 else b.acc1
/-- An accumulator set. -/
def setAcc (b : Bank) (n : Nat) (v : BitVec 72) : Bank := if n = 0 then { b with acc0 := v } else { b with acc1 := v }

/-- ACRD (R390). -/
def acrd (s : State) (k : Nat) (arg : Nat) : Out :=
  let v := satTo 32 (roundShift (accOf (s.core k).cur (arg % 2)).toInt (arg / 2 % 32) (arg / 64))
  pushOne (raiseV s k v.2) (BitVec.ofInt 32 v.1)

/-- ACRDC (R390). -/
def acrdc (s : State) (k : Nat) (arg : Nat) : Out :=
  let b := (s.core k).cur
  let u := satTo 16 (roundShift b.acc0.toInt (arg % 32) (arg / 32 % 4))
  let v := satTo 16 (roundShift b.acc1.toInt (arg % 32) (arg / 32 % 4))
  pushOne (raiseV s k (u.2 || v.2)) (packed u.1 v.1)

/-- A part of an accumulator (R377, R390). -/
def accPart (a : BitVec 72) (p : Nat) : Word :=
  match p with
  | 0 => a.setWidth 32
  | 1 => (a >>> 32).setWidth 32
  | _ => BitVec.ofInt 32 (sgn 8 (fld a 64 8))

/-- An accumulator with one part replaced (R390). -/
def setPart (a : BitVec 72) (p : Nat) (v : Word) : BitVec 72 :=
  match p with
  | 0 => (a &&& ~~~ (0xFFFFFFFF : BitVec 72)) ||| v.setWidth 72
  | 1 => (a &&& ~~~ ((0xFFFFFFFF : BitVec 72) <<< 32)) ||| (v.setWidth 72 <<< 32)
  | _ => (a &&& ~~~ ((0xFF : BitVec 72) <<< 64)) ||| (v.setWidth 72 <<< 64)

/-- Leading bits of `h` [14:0] that equal its sign bit, from 0 to 15 (R396). -/
def headroom (h : Nat) : Nat :=
  let sign := h / 2 ^ 15 % 2
  ((List.range 15).find? fun i => h / 2 ^ (14 - i) % 2 != sign).getD 15

/-- `SC_BEXP` follows a word (R396). -/
def followBexp (b : Bank) (w : Word) : Bank :=
  b.setSp 0x18 (BitVec.ofNat 32 (min ((b.sp 0x18).toNat % 16) (min (headroom (fld w 0 16)) (headroom (fld w 16 16)))))

/-- LDXY (R377, R392, R393). -/
def ldxy (s : State) (k : Fin 32) (x : CoreEnv) (arg : Nat) : Out :=
  let n := arg % 4
  (arLoad s k n x.data).then (arAddr (s.core k).cur n) fun s v =>
    pushOne (s.modCur k fun b => stepAr b n (arg / 4)) (BitVec.ofNat 32 v)

/-- STXY (R377, R392, R393, R396). -/
def stxy (s : State) (k : Fin 32) (arg : Nat) (w : Word) : Out :=
  let n := arg % 4
  let a := arAddr (s.core k).cur n
  if a.toNat % 4 ≠ 0 then .trap s 5 4 (some a)
  else .done ((localWrite s k a.toNat 4 w.toNat).modCur k fun b => followBexp (stepAr b n (arg / 4)) w) [] []

/-- CADD and CSUB: halves added or subtracted, saturated to 16 bits (R391). -/
def halves (s : State) (k : Nat) (r i : Int) : Out :=
  pushOne (raiseV s k ((satTo 16 r).2 || (satTo 16 i).2)) (packed (satTo 16 r).1 (satTo 16 i).1)

/-- Row 0x8 of the opcode map. -/
def semDsp (s : State) (k : Fin 32) (x : CoreEnv) (i : Insn) (d : List Word) : Out :=
  let a := cell d 1
  let b := cell d 0
  match i.op % 16 with
  | 0 => mac s k x i.arg (cprod i.arg) addAcc
  | 1 => mac s k x i.arg (cprod i.arg) putAcc
  | 2 => mac s k x i.arg (fun x y => (re x * re y, im x * im y)) addAcc
  | 3 => .done (s.modCur k fun v => { v with
      acc0 := if i.arg % 2 = 1 then 0 else v.acc0, acc1 := if i.arg / 2 % 2 = 1 then 0 else v.acc1 }) [] []
  | 4 => acrd s k i.arg
  | 5 => acrdc s k i.arg
  | 6 => pushOne s (accPart (accOf (s.core k).cur (i.arg % 2)) (i.arg / 2))
  | 7 => .done (s.modCur k fun v => setAcc v (i.arg % 2) (setPart (accOf v (i.arg % 2)) (i.arg / 2) b)) [] []
  | 8 => pushOne (s.modCur k fun v => followBexp v b) b
  | 9 => .done (s.modCur k fun v => v.setSp 0x18 15) [] []
  | 10 => ldxy s k x i.arg
  | 11 => stxy s k i.arg b
  | 12 => halves s k (re a + re b) (im a + im b)
  | 13 => halves s k (re a - re b) (im a - im b)
  | _ => pushOne s (packed (roundShift (re b) (i.arg % 16) 1) (roundShift (im b) (i.arg % 16) 1))

end Sys2Proof.Machine
end

