-- ==== Sys2Proof/Machine/CoreFlow.lean ====
section
/-! DEFINITION. Branches and delay slots, repetition, the system instructions, and the issue of one unit by a stream core
(R361, R378 to R383, R386, R400). -/

namespace Sys2Proof.Machine

/-! Control and system instructions. -/

/-- RETT: the frame's bank becomes current, its address and repetition resume (R386, R400). -/
def rett (s : State) (k : Nat) (f : Word) : Out :=
  .goto (s.setCore k { s.core k with bank := fld f 16 2, rep := bit f 18 }) (BitVec.ofNat 32 (fld f 0 16))

/-- REP: the next syllable executes `n` times, or is skipped (R380). -/
def rep (s : State) (k : Nat) (i : Insn) (d : List Word) : Out :=
  let n := if i.immU = 0 then cell d 0 else i.immU
  if n = 0 then .goto s (i.last + 4)
  else
    let s := s.modCur k fun b => b.setSp 0x09 n
    .goto (s.setCore k { s.core k with rep := true }) (i.last + 2)

/-- LAND (R428). -/
def land (s : State) (k : Fin 32) (noWait : Bool) : Out :=
  let r := takeSlot s k
  match r.2 with
  | some i => pushOne r.1 (BitVec.ofNat 32 (0x30000 + 0x60 * i))
  | none => if noWait then pushOne s 0 else .wait s

/-- DONE (R429). -/
def doneAt (s : State) (k : Fin 32) (a : Word) : Out :=
  let slot := if a = 0x30000 then some 0 else if a = 0x30060 then some 1 else none
  match slot.bind fun i => doneSlot s k i with
  | some s => .done s [] []
  | none => .trap s 6 1 none

/-- The items TAKEN in a core's landing slots, none for a cancelled one (R476). -/
def takenItems (s : State) (k : Nat) : List (Option Item) :=
  ([0, 1].filter fun i => (s.landing k i).state == .taken).map fun i =>
    (s.landing k i).item.bind fun p => s.sched.items.find? fun j => p == (j.queue, j.pos)

/-- The epoch that a core output belongs to (R476); `none` where its item is cancelled and the output is discarded (R431). -/
def outEpoch (s : State) (k : Nat) : Option Nat :=
  let l := takenItems s k
  if l = [] then some (epochNow s)
  else if l.any Option.isNone then none
  else some ((l.map fun i => (i.map (·.epoch)).getD 0).foldl max 0)

/-- An entry goes to the core's output queue (R33, R204, R382, R383, R476). -/
def outTo (s : State) (k : Nat) (q : Nat) (bs : List Byte) : Out :=
  let d := coreDomain s k
  match outEpoch s k with
  | none => .done s [] []
  | some ep =>
    if failedEpoch s d ep then .done s [] []
    else
      let r := putOutput s q bs (holdFor s d ep)
      if r.2 = .stalled then .wait r.1 else .done (r.1.setQueue q { r.1.queue q with stalled := false }) [] []

/-- OUT of a token (R382). -/
def out (s : State) (k : Nat) (arg : Nat) (data t : Word) : Out :=
  let tok : Token := { data := data, tag := BitVec.ofNat 28 (fld t 0 28), ctx := BitVec.ofNat 4 (fld t 28 4),
                       last := arg % 2 == 1, err := arg / 2 % 2 == 1 }
  match queueOfProd s 4 k none with
  | none => .done (s.count .SC_OUT_DROP 1 k) [] []
  | some q => outTo s k q (exitBytes s q tok)

/-- OUTD of the descriptor at `a` (R382). -/
def outD (s : State) (k : Fin 32) (x : CoreEnv) (a : Word) : Out :=
  if a.toNat % 32 ≠ 0 then .trap s 5 32 (some a)
  else if areaOf a.toNat ≠ 1 ∧ areaOf a.toNat ≠ 2 then .trap s 6 2 (some a)
  else match queueOfProd s 4 k none with
    | none => .done (s.count .SC_OUT_DROP 1 k) [] []
    | some q =>
      if gqKind s q ≠ 2 then .trap s 6 2 (some a)
      else (localRead s k a.toNat 32 x.data).then a fun s _ => outTo s k q (s.bytes (coreMem k a.toNat) 32)

/-- Row 0xA of the opcode map (R381). -/
def semSys (s : State) (k : Fin 32) (x : CoreEnv) (i : Insn) (d : List Word) : Out :=
  let a := cell d 0
  match i.op % 16 with
  | 0 => .trap s 9 i.arg none
  | 1 => if x.claimed && debugScope s 0 then .halt s else .trap s 10 0 none
  | 2 => .sleep s
  | 3 => land s k (i.arg % 2 == 1)
  | 4 => doneAt s k a
  | 5 => .done (ring s k ⟨a.toNat % 32, Nat.mod_lt _ (by decide)⟩ x.net) [] []
  | 6 => .done (syncCode s k) [] []
  | 7 => out s k i.arg (cell d 1) a
  | 8 => outD s k x a
  | _ => .done s [hi32 (s.rd .PWR_TB), lo32 (s.rd .PWR_TB)] []

/-- The effect of an instruction that is no branch with a delay slot, its cells `d` and `r` popped (top first). -/
def effect (s : State) (k : Fin 32) (x : CoreEnv) (i : Insn) (d r : List Word) : Out :=
  match i.op / 16 with
  | 0x0 => semStack s k (i.op % 16) d r
  | 0x1 => semLit s k i d
  | 0x2 => semReg s k i d
  | 0x3 => semAdd s k (i.op % 16) d
  | 0x4 => semMul s k (i.op % 16) d
  | 0x5 => semLogic s k (i.op % 16) d
  | 0x6 => semBits s k i d
  | 0x7 => semMem s k x i d
  | 0x8 => semDsp s k x i d
  | 0x9 => if i.op = 0x97 then rett s k (cell r 0) else rep s k i d
  | 0xA => semSys s k x i d
  | 0xB => semLocal s k i
  | 0xC => semLocalMem s k x i d
  | _ => semMisc s k i d

/-! Branches (R378, R379). -/

/-- A branch with a delay slot. -/
def isBranch (op : Nat) : Bool := (0x90 ≤ op && op ≤ 0x96) || op == 0x98 || (0xD0 ≤ op && op ≤ 0xD9)

/-- Whether a branch is taken, its target, and the return cells it pushes. -/
def branchOf (i : Insn) (d r : List Word) : Bool × Word × List Word :=
  let t := i.last + 2 * i.immS
  let ret := i.last + 4
  let a := cell d 0
  if 0xD0 ≤ i.op then (condition (i.op % 16) (cell d 1) a, t, [])
  else match i.op % 16 with
    | 1 => (a == 0, t, [])
    | 2 => (a != 0, t, [])
    | 3 => (true, t, [ret])
    | 4 => (true, a, [])
    | 5 => (true, a, [ret])
    | 6 => (true, cell r 0 &&& 0xFFFF, [])
    | 8 => (cell r 0 != 1, t, if cell r 0 != 1 then [cell r 0 - 1] else [])
    | _ => (true, t, [])

/-! One unit. -/

/-- The popped cells go back onto the stacks of the current bank, and `n` pushed return cells come off (R361). -/
def putBack (s : State) (k : Nat) (d r : List Word) (n : Nat) : State :=
  s.modCur k fun b => { b with ds := d ++ b.ds, rs := r ++ b.rs.drop n }

/-- The cells that an instruction pops come off the caches of the current bank. -/
def takeCells (s : State) (k : Nat) (n : Need) : State :=
  s.modCur k fun b => { b with ds := b.ds.drop n.pop, rs := b.rs.drop n.rpop }

/-- Cells pushed. -/
def pushCells (s : State) (k : Nat) (ds rs : List Word) : State :=
  s.modCur k fun b => { b with ds := ds ++ b.ds, rs := rs ++ b.rs }

/-- The core goes on at an address. -/
def goOn (s : State) (k : Nat) (pc : Word) : State := s.setCore k { s.core k with pc := pc, run := .running }

/-- What a core does with its unit left undone: it stays where it is (R383). -/
def setRun (s : State) (k : Nat) (r : Run) : State := s.setCore k { s.core k with run := r }

/-- A repetition is done: `SC_REPCNT` counts it, and the last one ends the repetition (R380). -/
def repDone (s : State) (k : Nat) (next : Word) : State :=
  let n := (s.core k).cur.sp 0x09
  let s := s.modCur k fun b => b.setSp 0x09 (if n = 0 then 0 else n - 1)
  if n.toNat ≤ 1 then goOn (s.setCore k { s.core k with rep := false }) k next else goOn s k (s.core k).pc

/-- A trap that opcode `op` raises in the unit at `pc`, whose next instruction lies at `next`: TRAP and BRK resume behind it
(R386). -/
def unitTrap (s : State) (k : Fin 32) (x : CoreEnv) (op cause detail : Nat) (addr : Option Word) (pc next : Word) (ds : Bool) :
    State :=
  takeTrap s k x { cause := cause, detail := detail, addr := addr, pc := pc,
                   resume := if cause = 9 ∨ cause = 10 then next else pc, ds := ds, report := op == 0x7B && cause == 6 }

/-- A trap that fetch or decode of the syllables from `at` raises, in the unit at `pc` (R384, R385). -/
def decodeTrap (s : State) (k : Fin 32) (x : CoreEnv) (cause detail : Nat) (emu pc at_ : Word) (ds : Bool) : State :=
  takeTrap s k x { cause := cause, detail := detail, emu := if cause = 2 then some (emu, at_) else none,
                   pc := pc, resume := pc, ds := ds }

/-- An instruction that is no branch with a delay slot, issued at the program counter. -/
def plainUnit (s : State) (k : Fin 32) (x : CoreEnv) (i : Insn) : State :=
  let pc := (s.core k).pc
  let next := i.last + 2
  let n := needOf i
  let m := bringCells s k (s.core k).bank n x
  if m.cause ≠ 0 then unitTrap m.s k x i.op m.cause m.detail m.addr pc next false
  else
    let b := (m.s.core k).cur
    let d := m.seen
    let r := b.rs.take n.rpop
    match effect (takeCells m.s k n) k x i d r with
    | .done s ds rs =>
      let s := pushCells s k ds rs
      if (s.core k).rep then repDone s k next else goOn s k next
    | .goto s pc => goOn s k pc
    | .trap s c e a => unitTrap (putBack s k (d.take n.pop) r 0) k x i.op c e a pc next false
    | .stall s => setRun (putBack s k (d.take n.pop) r 0) k .blocked
    | .wait s => setRun (putBack s k (d.take n.pop) r 0) k .waiting
    | .sleep s => setRun s k .inWait
    | .halt s => setRun s k .halted

/-- A branch and its delay slot: one unit for traps (R378, R379). The branch consumes its operands before the slot executes;
a slot instruction that traps or waits leaves both without effect. -/
def branchUnit (s : State) (k : Fin 32) (x : CoreEnv) (i : Insn) : State :=
  let pc := (s.core k).pc
  let slot := i.last + 2
  let n := needOf i
  let m := bringCells s k (s.core k).bank n x
  if m.cause ≠ 0 then unitTrap m.s k x i.op m.cause m.detail m.addr pc slot false
  else
    let b := (m.s.core k).cur
    let d := b.ds.take n.pop
    let r := b.rs.take n.rpop
    let br := branchOf i d r
    let undo (s : State) : State := putBack s k d r br.2.2.length
    let s := pushCells (takeCells m.s k n) k [] br.2.2
    match decodeAt s k .slot slot with
    | .trap c e _ emu => decodeTrap (undo s) k x c e emu pc slot true
    | .ok j =>
      let nj := needOf j
      let mj := bringCells s k (s.core k).bank nj x
      if mj.cause ≠ 0 then unitTrap (undo mj.s) k x j.op mj.cause mj.detail mj.addr pc (slot + 2) true
      else
        let bj := (mj.s.core k).cur
        let dj := mj.seen
        let rj := bj.rs.take nj.rpop
        match effect (takeCells mj.s k nj) k x j dj rj with
        | .done s ds rs => goOn (pushCells s k ds rs) k (if br.1 then br.2.1 else slot + 2)
        | .goto s _ | .sleep s | .halt s => undo (putBack s k (dj.take nj.pop) rj 0)
        | .stall s => setRun (undo (putBack s k (dj.take nj.pop) rj 0)) k .blocked
        | .trap s c e a => unitTrap (undo (putBack s k (dj.take nj.pop) rj 0)) k x j.op c e a pc (slot + 2) true
        | .wait s => setRun (undo (putBack s k (dj.take nj.pop) rj 0)) k .waiting

/-- What error correction finds where a core fetches (R376, R410). -/
def fetchEcc (s : State) (k : Fin 32) (x : CoreEnv) : State :=
  let pc := (s.core k).pc.toNat
  if pc < 0x8000 then applyEcc s (coreMem k pc) x.fetch else s

/-- How the syllable at the program counter is issued: by itself or as a repetition. -/
def modeOf (c : Core) : Mode := if c.rep then .rep else .normal

/-- Core `k` issues the unit at its program counter (R361 to R366). The command names the instruction: one whose opcodes
`row` does not hold is not what the core issues, and nothing happens. A core that is to stop does so behind it (R410). -/
def issue (s : State) (k : Fin 32) (x : CoreEnv) (row : Nat → Bool) : State :=
  if coreWorks s k = false ∨ (s.core k).run = .inWait then s
  else
    let s' := fetchEcc s k x
    let pc := (s.core k).pc
    match decodeAt s' k (modeOf (s.core k)) pc with
    | .trap c e op emu => if op.all row then boundaryMirrors (stopHere (decodeTrap s' k x c e emu pc pc false) k) k else s
    | .ok i =>
      if row i.op then boundaryMirrors (stopHere (if isBranch i.op then branchUnit s' k x i else plainUnit s' k x i) k) k else s

end Sys2Proof.Machine
end

