-- ==== Sys2Proof/Machine/Instructions.lean ====
section
/-! DEFINITION. The rows of the table that are a stream core's instructions: each names the opcodes that it stands for. -/

namespace Sys2Proof.Machine

/-- `NOP` (R367). -/
def execNop (k : Fin 32) (x : CoreEnv) (s : State) : Host.Outcome State Fault Refusal :=
  finish (issue s k x (· == 0x00))

/-- `DROP` (R367). -/
def execDrop (k : Fin 32) (x : CoreEnv) (s : State) : Host.Outcome State Fault Refusal :=
  finish (issue s k x (· == 0x01))

/-- `DUP` (R367). -/
def execDup (k : Fin 32) (x : CoreEnv) (s : State) : Host.Outcome State Fault Refusal :=
  finish (issue s k x (· == 0x02))

/-- `SWAP` (R367). -/
def execSwap (k : Fin 32) (x : CoreEnv) (s : State) : Host.Outcome State Fault Refusal :=
  finish (issue s k x (· == 0x03))

/-- `OVER` (R367). -/
def execOver (k : Fin 32) (x : CoreEnv) (s : State) : Host.Outcome State Fault Refusal :=
  finish (issue s k x (· == 0x04))

/-- `ROT` (R367). -/
def execRot (k : Fin 32) (x : CoreEnv) (s : State) : Host.Outcome State Fault Refusal :=
  finish (issue s k x (· == 0x05))

/-- `NIP` (R367). -/
def execNip (k : Fin 32) (x : CoreEnv) (s : State) : Host.Outcome State Fault Refusal :=
  finish (issue s k x (· == 0x06))

/-- `TUCK` (R367). -/
def execTuck (k : Fin 32) (x : CoreEnv) (s : State) : Host.Outcome State Fault Refusal :=
  finish (issue s k x (· == 0x07))

/-- `PICK` (R367). -/
def execPick (k : Fin 32) (x : CoreEnv) (s : State) : Host.Outcome State Fault Refusal :=
  finish (issue s k x (· == 0x08))

/-- `TWO_DROP` (R367). -/
def execTwoDrop (k : Fin 32) (x : CoreEnv) (s : State) : Host.Outcome State Fault Refusal :=
  finish (issue s k x (· == 0x09))

/-- `TWO_DUP` (R367). -/
def execTwoDup (k : Fin 32) (x : CoreEnv) (s : State) : Host.Outcome State Fault Refusal :=
  finish (issue s k x (· == 0x0A))

/-- `TWO_SWAP` (R367). -/
def execTwoSwap (k : Fin 32) (x : CoreEnv) (s : State) : Host.Outcome State Fault Refusal :=
  finish (issue s k x (· == 0x0B))

/-- `DEPTH` (R367). -/
def execDepth (k : Fin 32) (x : CoreEnv) (s : State) : Host.Outcome State Fault Refusal :=
  finish (issue s k x (· == 0x0C))

/-- `TOR` (R367). -/
def execTor (k : Fin 32) (x : CoreEnv) (s : State) : Host.Outcome State Fault Refusal :=
  finish (issue s k x (· == 0x0D))

/-- `FROMR` (R367). -/
def execFromr (k : Fin 32) (x : CoreEnv) (s : State) : Host.Outcome State Fault Refusal :=
  finish (issue s k x (· == 0x0E))

/-- `RFETCH` (R367). -/
def execRfetch (k : Fin 32) (x : CoreEnv) (s : State) : Host.Outcome State Fault Refusal :=
  finish (issue s k x (· == 0x0F))

/-- `LIT` (R367). -/
def execLit (k : Fin 32) (x : CoreEnv) (s : State) : Host.Outcome State Fault Refusal :=
  finish (issue s k x (· == 0x10))

/-- `LITU` (R367). -/
def execLitu (k : Fin 32) (x : CoreEnv) (s : State) : Host.Outcome State Fault Refusal :=
  finish (issue s k x (· == 0x11))

/-- `ADDI` (R367). -/
def execAddi (k : Fin 32) (x : CoreEnv) (s : State) : Host.Outcome State Fault Refusal :=
  finish (issue s k x (· == 0x12))

/-- `ANDI` (R367). -/
def execAndi (k : Fin 32) (x : CoreEnv) (s : State) : Host.Outcome State Fault Refusal :=
  finish (issue s k x (· == 0x13))

/-- `ORI` (R367). -/
def execOri (k : Fin 32) (x : CoreEnv) (s : State) : Host.Outcome State Fault Refusal :=
  finish (issue s k x (· == 0x14))

/-- `XORI` (R367). -/
def execXori (k : Fin 32) (x : CoreEnv) (s : State) : Host.Outcome State Fault Refusal :=
  finish (issue s k x (· == 0x15))

/-- `SHLI` (R367). -/
def execShli (k : Fin 32) (x : CoreEnv) (s : State) : Host.Outcome State Fault Refusal :=
  finish (issue s k x (· == 0x16))

/-- `SHRI` (R367). -/
def execShri (k : Fin 32) (x : CoreEnv) (s : State) : Host.Outcome State Fault Refusal :=
  finish (issue s k x (· == 0x17))

/-- `SARI` (R367). -/
def execSari (k : Fin 32) (x : CoreEnv) (s : State) : Host.Outcome State Fault Refusal :=
  finish (issue s k x (· == 0x18))

/-- `ROLI` (R367). -/
def execRoli (k : Fin 32) (x : CoreEnv) (s : State) : Host.Outcome State Fault Refusal :=
  finish (issue s k x (· == 0x19))

/-- `LDL` (R367). -/
def execLdl (k : Fin 32) (x : CoreEnv) (s : State) : Host.Outcome State Fault Refusal :=
  finish (issue s k x (· == 0x20))

/-- `STL` (R367). -/
def execStl (k : Fin 32) (x : CoreEnv) (s : State) : Host.Outcome State Fault Refusal :=
  finish (issue s k x (· == 0x21))

/-- `RDS` (R368). -/
def execRds (k : Fin 32) (x : CoreEnv) (s : State) : Host.Outcome State Fault Refusal :=
  finish (issue s k x (· == 0x22))

/-- `WRS` (R368). -/
def execWrs (k : Fin 32) (x : CoreEnv) (s : State) : Host.Outcome State Fault Refusal :=
  finish (issue s k x (· == 0x23))

/-- `LLIT` (R367). -/
def execLlit (k : Fin 32) (x : CoreEnv) (s : State) : Host.Outcome State Fault Refusal :=
  finish (issue s k x (fun op => 0xB0 ≤ op && op ≤ 0xB7))

/-- `LADD` (R367). -/
def execLadd (k : Fin 32) (x : CoreEnv) (s : State) : Host.Outcome State Fault Refusal :=
  finish (issue s k x (fun op => 0xB8 ≤ op && op ≤ 0xBF))

/-- `SEXTB` (R367). -/
def execSextb (k : Fin 32) (x : CoreEnv) (s : State) : Host.Outcome State Fault Refusal :=
  finish (issue s k x (· == 0xE1))

/-- `SEXTH` (R367). -/
def execSexth (k : Fin 32) (x : CoreEnv) (s : State) : Host.Outcome State Fault Refusal :=
  finish (issue s k x (· == 0xE2))

/-- `ADR` (R367). -/
def execAdr (k : Fin 32) (x : CoreEnv) (s : State) : Host.Outcome State Fault Refusal :=
  finish (issue s k x (· == 0xE4))

/-- `SATH` (R367). -/
def execSath (k : Fin 32) (x : CoreEnv) (s : State) : Host.Outcome State Fault Refusal :=
  finish (issue s k x (· == 0xE5))

/-- `ADD` (R370). -/
def execAdd (k : Fin 32) (x : CoreEnv) (s : State) : Host.Outcome State Fault Refusal :=
  finish (issue s k x (· == 0x30))

/-- `ADDS` (R370). -/
def execAdds (k : Fin 32) (x : CoreEnv) (s : State) : Host.Outcome State Fault Refusal :=
  finish (issue s k x (· == 0x31))

/-- `ADDUS` (R370). -/
def execAddus (k : Fin 32) (x : CoreEnv) (s : State) : Host.Outcome State Fault Refusal :=
  finish (issue s k x (· == 0x32))

/-- `SUB` (R370). -/
def execSub (k : Fin 32) (x : CoreEnv) (s : State) : Host.Outcome State Fault Refusal :=
  finish (issue s k x (· == 0x33))

/-- `SUBS` (R370). -/
def execSubs (k : Fin 32) (x : CoreEnv) (s : State) : Host.Outcome State Fault Refusal :=
  finish (issue s k x (· == 0x34))

/-- `SUBUS` (R370). -/
def execSubus (k : Fin 32) (x : CoreEnv) (s : State) : Host.Outcome State Fault Refusal :=
  finish (issue s k x (· == 0x35))

/-- `NEG` (R370). -/
def execNeg (k : Fin 32) (x : CoreEnv) (s : State) : Host.Outcome State Fault Refusal :=
  finish (issue s k x (· == 0x36))

/-- `ABS` (R370). -/
def execAbs (k : Fin 32) (x : CoreEnv) (s : State) : Host.Outcome State Fault Refusal :=
  finish (issue s k x (· == 0x37))

/-- `MIN` (R370). -/
def execMin (k : Fin 32) (x : CoreEnv) (s : State) : Host.Outcome State Fault Refusal :=
  finish (issue s k x (· == 0x38))

/-- `MAX` (R370). -/
def execMax (k : Fin 32) (x : CoreEnv) (s : State) : Host.Outcome State Fault Refusal :=
  finish (issue s k x (· == 0x39))

/-- `MINU` (R370). -/
def execMinu (k : Fin 32) (x : CoreEnv) (s : State) : Host.Outcome State Fault Refusal :=
  finish (issue s k x (· == 0x3A))

/-- `MAXU` (R370). -/
def execMaxu (k : Fin 32) (x : CoreEnv) (s : State) : Host.Outcome State Fault Refusal :=
  finish (issue s k x (· == 0x3B))

/-- `ADDC` (R370). -/
def execAddc (k : Fin 32) (x : CoreEnv) (s : State) : Host.Outcome State Fault Refusal :=
  finish (issue s k x (· == 0x3C))

/-- `SUBB` (R370). -/
def execSubb (k : Fin 32) (x : CoreEnv) (s : State) : Host.Outcome State Fault Refusal :=
  finish (issue s k x (· == 0x3D))

/-- `CLAMP` (R370). -/
def execClamp (k : Fin 32) (x : CoreEnv) (s : State) : Host.Outcome State Fault Refusal :=
  finish (issue s k x (· == 0x3E))

/-- `MUL` (R370). -/
def execMul (k : Fin 32) (x : CoreEnv) (s : State) : Host.Outcome State Fault Refusal :=
  finish (issue s k x (· == 0x40))

/-- `MULH` (R370). -/
def execMulh (k : Fin 32) (x : CoreEnv) (s : State) : Host.Outcome State Fault Refusal :=
  finish (issue s k x (· == 0x41))

/-- `MULHU` (R370). -/
def execMulhu (k : Fin 32) (x : CoreEnv) (s : State) : Host.Outcome State Fault Refusal :=
  finish (issue s k x (· == 0x42))

/-- `MAC` (R370). -/
def execMac (k : Fin 32) (x : CoreEnv) (s : State) : Host.Outcome State Fault Refusal :=
  finish (issue s k x (· == 0x43))

/-- `MULI` (R370). -/
def execMuli (k : Fin 32) (x : CoreEnv) (s : State) : Host.Outcome State Fault Refusal :=
  finish (issue s k x (· == 0xE3))

/-- `DIV` (R371). -/
def execDiv (k : Fin 32) (x : CoreEnv) (s : State) : Host.Outcome State Fault Refusal :=
  finish (issue s k x (· == 0x44))

/-- `DIVU` (R371). -/
def execDivu (k : Fin 32) (x : CoreEnv) (s : State) : Host.Outcome State Fault Refusal :=
  finish (issue s k x (· == 0x45))

/-- `REM` (R371). -/
def execRem (k : Fin 32) (x : CoreEnv) (s : State) : Host.Outcome State Fault Refusal :=
  finish (issue s k x (· == 0x46))

/-- `REMU` (R371). -/
def execRemu (k : Fin 32) (x : CoreEnv) (s : State) : Host.Outcome State Fault Refusal :=
  finish (issue s k x (· == 0x47))

/-- `DIVREM` (R371). -/
def execDivrem (k : Fin 32) (x : CoreEnv) (s : State) : Host.Outcome State Fault Refusal :=
  finish (issue s k x (· == 0x48))

/-- `DIVREMU` (R371). -/
def execDivremu (k : Fin 32) (x : CoreEnv) (s : State) : Host.Outcome State Fault Refusal :=
  finish (issue s k x (· == 0x49))

/-- `AND` (R370). -/
def execAnd (k : Fin 32) (x : CoreEnv) (s : State) : Host.Outcome State Fault Refusal :=
  finish (issue s k x (· == 0x50))

/-- `OR` (R370). -/
def execOr (k : Fin 32) (x : CoreEnv) (s : State) : Host.Outcome State Fault Refusal :=
  finish (issue s k x (· == 0x51))

/-- `XOR` (R370). -/
def execXor (k : Fin 32) (x : CoreEnv) (s : State) : Host.Outcome State Fault Refusal :=
  finish (issue s k x (· == 0x52))

/-- `ANDN` (R370). -/
def execAndn (k : Fin 32) (x : CoreEnv) (s : State) : Host.Outcome State Fault Refusal :=
  finish (issue s k x (· == 0x53))

/-- `NOT` (R370). -/
def execNot (k : Fin 32) (x : CoreEnv) (s : State) : Host.Outcome State Fault Refusal :=
  finish (issue s k x (· == 0x54))

/-- `SHL` (R370). -/
def execShl (k : Fin 32) (x : CoreEnv) (s : State) : Host.Outcome State Fault Refusal :=
  finish (issue s k x (· == 0x55))

/-- `SHR` (R370). -/
def execShr (k : Fin 32) (x : CoreEnv) (s : State) : Host.Outcome State Fault Refusal :=
  finish (issue s k x (· == 0x56))

/-- `SAR` (R370). -/
def execSar (k : Fin 32) (x : CoreEnv) (s : State) : Host.Outcome State Fault Refusal :=
  finish (issue s k x (· == 0x57))

/-- `ROL` (R370). -/
def execRol (k : Fin 32) (x : CoreEnv) (s : State) : Host.Outcome State Fault Refusal :=
  finish (issue s k x (· == 0x58))

/-- `ROR` (R370). -/
def execRor (k : Fin 32) (x : CoreEnv) (s : State) : Host.Outcome State Fault Refusal :=
  finish (issue s k x (· == 0x59))

/-- `CLZ` (R370). -/
def execClz (k : Fin 32) (x : CoreEnv) (s : State) : Host.Outcome State Fault Refusal :=
  finish (issue s k x (· == 0x5A))

/-- `CTZ` (R370). -/
def execCtz (k : Fin 32) (x : CoreEnv) (s : State) : Host.Outcome State Fault Refusal :=
  finish (issue s k x (· == 0x5B))

/-- `POPC` (R370). -/
def execPopc (k : Fin 32) (x : CoreEnv) (s : State) : Host.Outcome State Fault Refusal :=
  finish (issue s k x (· == 0x5C))

/-- `BSWAP` (R370). -/
def execBswap (k : Fin 32) (x : CoreEnv) (s : State) : Host.Outcome State Fault Refusal :=
  finish (issue s k x (· == 0x5D))

/-- `CMP` (R370). -/
def execCmp (k : Fin 32) (x : CoreEnv) (s : State) : Host.Outcome State Fault Refusal :=
  finish (issue s k x (· == 0x60))

/-- `SELECT` (R370). -/
def execSelect (k : Fin 32) (x : CoreEnv) (s : State) : Host.Outcome State Fault Refusal :=
  finish (issue s k x (· == 0x61))

/-- `EXTU` (R370). -/
def execExtu (k : Fin 32) (x : CoreEnv) (s : State) : Host.Outcome State Fault Refusal :=
  finish (issue s k x (· == 0x62))

/-- `EXTS` (R370). -/
def execExts (k : Fin 32) (x : CoreEnv) (s : State) : Host.Outcome State Fault Refusal :=
  finish (issue s k x (· == 0x63))

/-- `INS` (R370). -/
def execIns (k : Fin 32) (x : CoreEnv) (s : State) : Host.Outcome State Fault Refusal :=
  finish (issue s k x (· == 0x64))

/-- `CRC1` (R370). -/
def execCrc1 (k : Fin 32) (x : CoreEnv) (s : State) : Host.Outcome State Fault Refusal :=
  finish (issue s k x (· == 0x65))

/-- `CRC2` (R370). -/
def execCrc2 (k : Fin 32) (x : CoreEnv) (s : State) : Host.Outcome State Fault Refusal :=
  finish (issue s k x (· == 0x66))

/-- `CRC4` (R370). -/
def execCrc4 (k : Fin 32) (x : CoreEnv) (s : State) : Host.Outcome State Fault Refusal :=
  finish (issue s k x (· == 0x67))

/-- `HASH` (R370). -/
def execHash (k : Fin 32) (x : CoreEnv) (s : State) : Host.Outcome State Fault Refusal :=
  finish (issue s k x (· == 0x68))

/-- `FOLD` (R370). -/
def execFold (k : Fin 32) (x : CoreEnv) (s : State) : Host.Outcome State Fault Refusal :=
  finish (issue s k x (· == 0x69))

/-- `LDW` (R373). -/
def execLdw (k : Fin 32) (x : CoreEnv) (s : State) : Host.Outcome State Fault Refusal :=
  finish (issue s k x (· == 0x70))

/-- `LDH` (R373). -/
def execLdh (k : Fin 32) (x : CoreEnv) (s : State) : Host.Outcome State Fault Refusal :=
  finish (issue s k x (· == 0x71))

/-- `LDHU` (R373). -/
def execLdhu (k : Fin 32) (x : CoreEnv) (s : State) : Host.Outcome State Fault Refusal :=
  finish (issue s k x (· == 0x72))

/-- `LDB` (R373). -/
def execLdb (k : Fin 32) (x : CoreEnv) (s : State) : Host.Outcome State Fault Refusal :=
  finish (issue s k x (· == 0x73))

/-- `LDBU` (R373). -/
def execLdbu (k : Fin 32) (x : CoreEnv) (s : State) : Host.Outcome State Fault Refusal :=
  finish (issue s k x (· == 0x74))

/-- `STW` (R373). -/
def execStw (k : Fin 32) (x : CoreEnv) (s : State) : Host.Outcome State Fault Refusal :=
  finish (issue s k x (· == 0x75))

/-- `STH` (R373). -/
def execSth (k : Fin 32) (x : CoreEnv) (s : State) : Host.Outcome State Fault Refusal :=
  finish (issue s k x (· == 0x76))

/-- `STB` (R373). -/
def execStb (k : Fin 32) (x : CoreEnv) (s : State) : Host.Outcome State Fault Refusal :=
  finish (issue s k x (· == 0x77))

/-- `LDR` (R373). -/
def execLdr (k : Fin 32) (x : CoreEnv) (s : State) : Host.Outcome State Fault Refusal :=
  finish (issue s k x (fun op => 0xC0 ≤ op && op ≤ 0xC7))

/-- `STR` (R373). -/
def execStr (k : Fin 32) (x : CoreEnv) (s : State) : Host.Outcome State Fault Refusal :=
  finish (issue s k x (fun op => 0xC8 ≤ op && op ≤ 0xCF))

/-- `AMOADD` (R373). -/
def execAmoadd (k : Fin 32) (x : CoreEnv) (s : State) : Host.Outcome State Fault Refusal :=
  finish (issue s k x (· == 0x78))

/-- `SWAPM` (R373). -/
def execSwapm (k : Fin 32) (x : CoreEnv) (s : State) : Host.Outcome State Fault Refusal :=
  finish (issue s k x (· == 0x79))

/-- `CAS` (R373). -/
def execCas (k : Fin 32) (x : CoreEnv) (s : State) : Host.Outcome State Fault Refusal :=
  finish (issue s k x (· == 0x7A))

/-- `FENCE` (R374). -/
def execFence (k : Fin 32) (x : CoreEnv) (s : State) : Host.Outcome State Fault Refusal :=
  finish (issue s k x (· == 0x7B))

/-- `CMAC` (R387). -/
def execCmac (k : Fin 32) (x : CoreEnv) (s : State) : Host.Outcome State Fault Refusal :=
  finish (issue s k x (· == 0x80))

/-- `CMUL` (R387). -/
def execCmul (k : Fin 32) (x : CoreEnv) (s : State) : Host.Outcome State Fault Refusal :=
  finish (issue s k x (· == 0x81))

/-- `RMAC` (R387). -/
def execRmac (k : Fin 32) (x : CoreEnv) (s : State) : Host.Outcome State Fault Refusal :=
  finish (issue s k x (· == 0x82))

/-- `ACCLR` (R377). -/
def execAcclr (k : Fin 32) (x : CoreEnv) (s : State) : Host.Outcome State Fault Refusal :=
  finish (issue s k x (· == 0x83))

/-- `ACRD` (R390). -/
def execAcrd (k : Fin 32) (x : CoreEnv) (s : State) : Host.Outcome State Fault Refusal :=
  finish (issue s k x (· == 0x84))

/-- `ACRDC` (R390). -/
def execAcrdc (k : Fin 32) (x : CoreEnv) (s : State) : Host.Outcome State Fault Refusal :=
  finish (issue s k x (· == 0x85))

/-- `ACGET` (R390). -/
def execAcget (k : Fin 32) (x : CoreEnv) (s : State) : Host.Outcome State Fault Refusal :=
  finish (issue s k x (· == 0x86))

/-- `ACSET` (R390). -/
def execAcset (k : Fin 32) (x : CoreEnv) (s : State) : Host.Outcome State Fault Refusal :=
  finish (issue s k x (· == 0x87))

/-- `BEXP` (R396). -/
def execBexp (k : Fin 32) (x : CoreEnv) (s : State) : Host.Outcome State Fault Refusal :=
  finish (issue s k x (· == 0x88))

/-- `BEXCLR` (R396). -/
def execBexclr (k : Fin 32) (x : CoreEnv) (s : State) : Host.Outcome State Fault Refusal :=
  finish (issue s k x (· == 0x89))

/-- `LDXY` (R393). -/
def execLdxy (k : Fin 32) (x : CoreEnv) (s : State) : Host.Outcome State Fault Refusal :=
  finish (issue s k x (· == 0x8A))

/-- `STXY` (R393). -/
def execStxy (k : Fin 32) (x : CoreEnv) (s : State) : Host.Outcome State Fault Refusal :=
  finish (issue s k x (· == 0x8B))

/-- `CADD` (R391). -/
def execCadd (k : Fin 32) (x : CoreEnv) (s : State) : Host.Outcome State Fault Refusal :=
  finish (issue s k x (· == 0x8C))

/-- `CSUB` (R391). -/
def execCsub (k : Fin 32) (x : CoreEnv) (s : State) : Host.Outcome State Fault Refusal :=
  finish (issue s k x (· == 0x8D))

/-- `CSHR` (R391). -/
def execCshr (k : Fin 32) (x : CoreEnv) (s : State) : Host.Outcome State Fault Refusal :=
  finish (issue s k x (· == 0x8E))

/-- `BR` (R378). -/
def execBr (k : Fin 32) (x : CoreEnv) (s : State) : Host.Outcome State Fault Refusal :=
  finish (issue s k x (· == 0x90))

/-- `BZ` (R378). -/
def execBz (k : Fin 32) (x : CoreEnv) (s : State) : Host.Outcome State Fault Refusal :=
  finish (issue s k x (· == 0x91))

/-- `BNZ` (R378). -/
def execBnz (k : Fin 32) (x : CoreEnv) (s : State) : Host.Outcome State Fault Refusal :=
  finish (issue s k x (· == 0x92))

/-- `BRANCH_COMPARE` (R378). -/
def execBranchCompare (k : Fin 32) (x : CoreEnv) (s : State) : Host.Outcome State Fault Refusal :=
  finish (issue s k x (fun op => 0xD0 ≤ op && op ≤ 0xD9))

/-- `CALL` (R378). -/
def execCall (k : Fin 32) (x : CoreEnv) (s : State) : Host.Outcome State Fault Refusal :=
  finish (issue s k x (· == 0x93))

/-- `BRI` (R378). -/
def execBri (k : Fin 32) (x : CoreEnv) (s : State) : Host.Outcome State Fault Refusal :=
  finish (issue s k x (· == 0x94))

/-- `CALLI` (R378). -/
def execCalli (k : Fin 32) (x : CoreEnv) (s : State) : Host.Outcome State Fault Refusal :=
  finish (issue s k x (· == 0x95))

/-- `RET` (R378). -/
def execRet (k : Fin 32) (x : CoreEnv) (s : State) : Host.Outcome State Fault Refusal :=
  finish (issue s k x (· == 0x96))

/-- `RETT` (R386). -/
def execRett (k : Fin 32) (x : CoreEnv) (s : State) : Host.Outcome State Fault Refusal :=
  finish (issue s k x (· == 0x97))

/-- `LOOP` (R378). -/
def execLoop (k : Fin 32) (x : CoreEnv) (s : State) : Host.Outcome State Fault Refusal :=
  finish (issue s k x (· == 0x98))

/-- `REP` (R380). -/
def execRep (k : Fin 32) (x : CoreEnv) (s : State) : Host.Outcome State Fault Refusal :=
  finish (issue s k x (· == 0x99))

/-- `TRAP` (R381). -/
def execTrap (k : Fin 32) (x : CoreEnv) (s : State) : Host.Outcome State Fault Refusal :=
  finish (issue s k x (· == 0xA0))

/-- `BRK` (R381). -/
def execBrk (k : Fin 32) (x : CoreEnv) (s : State) : Host.Outcome State Fault Refusal :=
  finish (issue s k x (· == 0xA1))

/-- `WAIT` (R403). -/
def execWait (k : Fin 32) (x : CoreEnv) (s : State) : Host.Outcome State Fault Refusal :=
  finish (issue s k x (· == 0xA2))

/-- `LAND` (R428). -/
def execLand (k : Fin 32) (x : CoreEnv) (s : State) : Host.Outcome State Fault Refusal :=
  finish (issue s k x (· == 0xA3))

/-- `DONE` (R429). -/
def execDone (k : Fin 32) (x : CoreEnv) (s : State) : Host.Outcome State Fault Refusal :=
  finish (issue s k x (· == 0xA4))

/-- `DBELL` (R381). -/
def execDbell (k : Fin 32) (x : CoreEnv) (s : State) : Host.Outcome State Fault Refusal :=
  finish (issue s k x (· == 0xA5))

/-- `SYNCI` (R376). -/
def execSynci (k : Fin 32) (x : CoreEnv) (s : State) : Host.Outcome State Fault Refusal :=
  finish (issue s k x (· == 0xA6))

/-- `OUT` (R382). -/
def execOut (k : Fin 32) (x : CoreEnv) (s : State) : Host.Outcome State Fault Refusal :=
  finish (issue s k x (· == 0xA7))

/-- `OUTD` (R382). -/
def execOutd (k : Fin 32) (x : CoreEnv) (s : State) : Host.Outcome State Fault Refusal :=
  finish (issue s k x (· == 0xA8))

/-- `STAMP` (R381). -/
def execStamp (k : Fin 32) (x : CoreEnv) (s : State) : Host.Outcome State Fault Refusal :=
  finish (issue s k x (· == 0xA9))

/-- `RESERVED_OPCODE` (R366, R384). -/
def execReservedOpcode (k : Fin 32) (x : CoreEnv) (s : State) : Host.Outcome State Fault Refusal :=
  finish (issue s k x fun op => (formOf op).isNone)

end Sys2Proof.Machine
end

