-- ==== Sys2Proof/Machine/LinkHost.lean ====
section
/-! DEFINITION. Transactions that the host adapter card sends over Raold Link (R524 to R527), and the register side of
BULK_GRANT and SYNC. A transaction's row is the moment its last flit is taken from the receive buffer. -/

namespace Sys2Proof.Machine

/-- The bytes of a transaction as it lies in its flits: header and data, which a block write fills up to `LEN` (R524). -/
def tranBytes (x : Tran) : List Byte :=
  let w := x.ttype.toNat == 4 || x.ttype.toNat == 5
  tranHeader x.ttype.toNat x.tag.toNat 0 x.stream.toNat x.addr.toNat x.len.toNat x.word3.toNat ++ x.data ++
    List.replicate (if w then x.len.toNat - x.data.length else 0) 0

/-- The payloads of a transaction's flits (R524). -/
def tranPayloads (x : Tran) : List (List Byte) := payloads (tranBytes x) (((tranBytes x).length + 63) / 64)

/-- The receive buffer begins with a transaction, header and data (R524). -/
def tranHeld (s : State) (x : Tran) : Bool := s.link.rxq.take (tranPayloads x).length == tranPayloads x

/-- A transaction leaves the receive buffer: its flits are freed, and Quiet ends (R522, R583). -/
def takeTran (s : State) (x : Tran) : State :=
  let n := (tranPayloads x).length
  quietEnd { s with link := { s.link with rxq := s.link.rxq.drop n, freed := s.link.freed + n } }

/-- The `LEN` of a transaction lies within its type's range (R525). -/
def lenOk (x : Tran) : Bool :=
  let n := x.len.toNat
  match x.ttype.toNat with
  | 1 | 2 => n == 4
  | 3 | 4 | 5 => 4 ≤ n && n ≤ 4096 && n % 4 == 0
  | 10 | 11 => n == 0
  | _ => false

/-- A transaction is malformed: a type that a card does not send, a `LEN` out of range, or data beyond `LEN` (R525). -/
def malformed (x : Tran) : Bool := !lenOk x || decide (x.len.toNat < x.data.length)

/-- A malformed transaction is discarded whole (R525). -/
def dropTran (s : State) (x : Tran) : State :=
  linkCause ((s.count .RLK_DROP_CNT).fault .link 0x0101 x.ttype.toNat) 3

/-- What a row does with a transaction that its flits have brought: nothing while the link carries none, a drop where it is
malformed, `act` where it is of the row's type. -/
def receive (s : State) (x : Tran) (ttype : Nat) (act : State → State) : State :=
  if linkActive s && s.up .link && tranHeld s x then
    if malformed x then dropTran (takeTran s x) x
    else if x.ttype.toNat = ttype then act (takeTran s x)
    else s
  else s

/-! Completions (R525, R526). -/

/-- A CPL, or with `data` a CPL_DATA; `counts` where it ends an outstanding request. -/
def completion (s : State) (x : Tran) (counts : Bool) (status : Nat) (data : Option (List Byte)) : State :=
  let bs := data.getD []
  let h := tranHeader (if data.isSome then 7 else 6) x.tag.toNat status 0 0 bs.length 0
  sendFlits s (tranFlits 1 counts (h ++ bs))

/-- A host request is under way, or no longer. -/
def hostBusy (s : State) (b : Bool) : State := { s with link := { s.link with busy := b } }

/-- A non-posted request: one beyond 256 outstanding is answered at once and not performed (R526). One that draws no response has
no completion (R498), and one that resets the link's page has none left to send (R531, R533). -/
def nonPosted (s : State) (x : Tran) (reads : Bool) (act : State → State × Status × List Byte) : State :=
  if 256 ≤ outstanding s then completion s x false 7 (if reads then some [] else none)
  else
    let r := act (hostBusy s true)
    if r.1.link.busy = false then r.1
    else
      let t := hostBusy r.1 false
      if r.2.1 = .noAnswer then { t with link := { t.link with dead := t.link.dead + 1 } }
      else completion t x true r.2.1.code (if reads then some r.2.2 else none)

/-! Blocks (R50, R526). -/

/-- The next packet of a block access: whole 16-byte units up to the next 256-byte-aligned address, else 8 or 4 bytes. -/
def blockPacket (a left : Nat) : Nat :=
  if a % 16 = 0 ∧ 16 ≤ left then min (256 - a % 256) (left / 16 * 16)
  else if a % 8 = 0 ∧ 8 ≤ left then 8 else min left 4

/-- Packets of a block write in ascending order: the status is the first that is an error, which in register space ends the
access (R50, R526). -/
def blockWrite : Nat → State → Nat → List Byte → List Ecc → State × Status
  | 0, s, _, _, _ => (s, .ok)
  | n + 1, s, a, bs, es =>
    if bs = [] then (s, .ok) else
    let k := blockPacket a bs.length
    let r := busWrite s .host a (bs.take k) (es.headD .ok).net
    if r.2 ≠ .ok ∧ inRegs a = true then r else
    let t := blockWrite n (follow r.1) (a + k) (bs.drop k) (es.drop 1)
    (t.1, if r.2 = .ok then t.2 else r.2)

/-- Packets of a block read: a poisoned one gives its data and its status, of another error the bytes before it are returned, and
in register space it ends the access (R50, R526; log 82). `es` is what error correction finds for each packet. -/
def blockRead : Nat → State → Nat → Nat → List Ecc → State × Status × List Byte
  | 0, s, _, _, _ => (s, .ok, [])
  | n + 1, s, a, left, es =>
    if left = 0 then (s, .ok, []) else
    let k := blockPacket a left
    let r := busRead s .host a k (es.headD .ok)
    if r.2.1 = .ok ∨ r.2.1 = .poison then
      let t := blockRead n (follow r.1) (a + k) (left - k) (es.drop 1)
      (t.1, if r.2.1 = .poison then .poison else t.2.1, r.2.2 ++ t.2.2)
    else if inRegs a then (r.1, r.2.1, [])
    else ((blockRead n (follow r.1) (a + k) (left - k) (es.drop 1)).1, r.2.1, [])

/-- Packets of a posted block write: one that cannot be performed is dropped, and the others go on (R495). -/
def blockPost : Nat → State → Nat → List Byte → List Ecc → State
  | 0, s, _, _, _ => s
  | n + 1, s, a, bs, es =>
    if bs = [] then s else
    let k := blockPacket a bs.length
    blockPost n (follow (postWrite s a (bs.take k) (es.headD .ok).net)) (a + k) (bs.drop k) (es.drop 1)

/-- The data of a block write (R524). -/
def tranData (x : Tran) : List Byte := x.data ++ List.replicate (x.len.toNat - x.data.length) 0

/-! Rows. -/

/-- `REG_RD` (R525, R588). -/
def execRegRd (x : Tran) (s : State) : Host.Outcome State Fault Refusal :=
  finish (receive s x 1 fun s => nonPosted s x true fun s => busRead s .host x.addr.toNat 4 (x.ecc.headD .ok))

/-- `REG_WR` (R525, R588). -/
def execRegWr (x : Tran) (s : State) : Host.Outcome State Fault Refusal :=
  finish (receive s x 2 fun s => nonPosted s x false fun s =>
    let r := busWrite s .host x.addr.toNat (leBytes 4 x.word3.toNat) (x.ecc.headD .ok).net
    (r.1, r.2, []))

/-- `BLK_RD` (R525, R526). -/
def execBlkRd (x : Tran) (s : State) : Host.Outcome State Fault Refusal :=
  finish (receive s x 3 fun s => nonPosted s x true fun s => blockRead 1024 s x.addr.toNat x.len.toNat x.ecc)

/-- `BLK_WR` (R525, R526). -/
def execBlkWr (x : Tran) (s : State) : Host.Outcome State Fault Refusal :=
  finish (receive s x 4 fun s => nonPosted s x false fun s =>
    let r := blockWrite 1024 s x.addr.toNat (tranData x) x.ecc
    (r.1, r.2, []))

/-- `BLK_WR_P` (R525). -/
def execBlkWrP (x : Tran) (s : State) : Host.Outcome State Fault Refusal :=
  finish (receive s x 5 fun s => blockPost 1024 s x.addr.toNat (tranData x) x.ecc)

/-- Bytes that a stalled stream needs below its grant position to go on. -/
def streamNeed (s : State) (i : Nat) : Nat :=
  match streamQueue s i with
  | some q =>
    let v := s.stream i
    let p := if v.span.isNone then skipFree s q v.next else v.next
    max 32 (min 4096 (v.span.getD (p + entrySize s q p) - p))
  | none => 0

/-- `BULK_GRANT` (R525, R529): the latest grant position; a stream that has room again is no longer stalled. -/
def bulkGrant (s : State) (x : Tran) : State :=
  let i := x.stream.toNat
  if 16 ≤ i then s else
  let s := s.wr .RLK_BS_GRANT (x.addr.setWidth 64) 0 i
  if streamNeed s i ≤ grantRoom s i (s.stream i).next then s.wrf .RLK_BS_STATUS 1 1 0 0 i else s

/-- `BULK_GRANT`. -/
def execBulkGrant (x : Tran) (s : State) : Host.Outcome State Fault Refusal :=
  finish (receive s x 10 fun s => bulkGrant s x)

/-- `SYNC` (R525): SYNC_RSP carries the cookie, the arrival stamp and the stamp at which it departs. -/
def execSync (x : Tran) (depart : DWord) (s : State) : Host.Outcome State Fault Refusal :=
  finish (receive s x 11 fun s =>
    sendFlits s (tranFlits 1 false (tranHeader 12 x.tag.toNat 0 0 0 16 x.word3.toNat ++
      leBytes 8 (s.rd .PWR_TB).toNat ++ leBytes 8 depart.toNat)))

end Sys2Proof.Machine
end

