-- ==== Sys2Proof/Machine/Dispatch.lean ====
section
/-! DEFINITION. One arm per command: the meaning it calls. -/

namespace Sys2Proof.Machine

def exec (i : Instr) (s : State) : Host.Outcome State Fault Refusal :=
  match i with
  | .registerWrite q a v => Sys2Proof.Machine.execRegisterWrite q a v s
  | .rcRead q a inc => Sys2Proof.Machine.execRcRead q a inc s
  | .stagedLowWordWrite q a v => Sys2Proof.Machine.execStagedLowWordWrite q a v s
  | .lowWordReadCapture q a => Sys2Proof.Machine.execLowWordReadCapture q a s
  | .evtStatusClear q b v => Sys2Proof.Machine.execEvtStatusClear q b v s
  | .evtForce q b v => Sys2Proof.Machine.execEvtForce q b v s
  | .faultCountClear q b v coin => Sys2Proof.Machine.execFaultCountClear q b v coin s
  | .perfSelWrite q b n v => Sys2Proof.Machine.execPerfSelWrite q b n v s
  | .softResetK q b => Sys2Proof.Machine.execSoftResetK q b s
  | .softResetComplete b => Sys2Proof.Machine.execSoftResetComplete b s
  | .domainPowerDown q d => Sys2Proof.Machine.execDomainPowerDown q d s
  | .drainComplete d => Sys2Proof.Machine.execDrainComplete d s
  | .drainTimeout d => Sys2Proof.Machine.execDrainTimeout d s
  | .domainPowerUp q d => Sys2Proof.Machine.execDomainPowerUp q d s
  | .domainPowerUpComplete d => Sys2Proof.Machine.execDomainPowerUpComplete d s
  | .quadPllWrite q n rate v => Sys2Proof.Machine.execQuadPllWrite q n rate v s
  | .pllLock n => Sys2Proof.Machine.execPllLock n s
  | .pllNoLock n => Sys2Proof.Machine.execPllNoLock n s
  | .pllLockLoss n => Sys2Proof.Machine.execPllLockLoss n s
  | .laneWord l w => Sys2Proof.Machine.execLaneWord l w s
  | .adaptDone l eye eq => Sys2Proof.Machine.execAdaptDone l eye eq s
  | .adaptTimeout l => Sys2Proof.Machine.execAdaptTimeout l s
  | .laneEqDataWrite q l v => Sys2Proof.Machine.execLaneEqDataWrite q l v s
  | .eyeScanStart q l v => Sys2Proof.Machine.execEyeScanStart q l v s
  | .eyeScanDone l errs => Sys2Proof.Machine.execEyeScanDone l errs s
  | .txWordSlot l heath => Sys2Proof.Machine.execTxWordSlot l heath s
  | .bondAligned m => Sys2Proof.Machine.execBondAligned m s
  | .bondSkew g spread => Sys2Proof.Machine.execBondSkew g spread s
  | .bondAlignLoss g => Sys2Proof.Machine.execBondAlignLoss g s
  | .loopbackSelect q l v => Sys2Proof.Machine.execLoopbackSelect q l v s
  | .laneCntClr q l => Sys2Proof.Machine.execLaneCntClr q l s
  | .treeSwitch q n v => Sys2Proof.Machine.execTreeSwitch q n v s
  | .treeRestart n => Sys2Proof.Machine.execTreeRestart n s
  | .treeStopped n => Sys2Proof.Machine.execTreeStopped n s
  | .captureDecision l ds => Sys2Proof.Machine.execCaptureDecision l ds s
  | .heathCaptureUnit p u => Sys2Proof.Machine.execHeathCaptureUnit p u s
  | .heathExitToken n k => Sys2Proof.Machine.execHeathExitToken n k s
  | .hthLoad q => Sys2Proof.Machine.execHthLoad q s
  | .loadFrame => Sys2Proof.Machine.execLoadFrame s
  | .loadCheckDone => Sys2Proof.Machine.execLoadCheckDone s
  | .hthRelease q => Sys2Proof.Machine.execHthRelease q s
  | .hthAbort q => Sys2Proof.Machine.execHthAbort q s
  | .releaseStage => Sys2Proof.Machine.execReleaseStage s
  | .scrubFrameCheck upset => Sys2Proof.Machine.execScrubFrameCheck upset s
  | .hthRunClr q => Sys2Proof.Machine.execHthRunClr q s
  | .heathEntryDelivery n => Sys2Proof.Machine.execHeathEntryDelivery n s
  | .arm q => Sys2Proof.Machine.execArm q s
  | .disarm q => Sys2Proof.Machine.execDisarm q s
  | .stairEdge l => Sys2Proof.Machine.execStairEdge l s
  | .trigInputChange balls => Sys2Proof.Machine.execTrigInputChange balls s
  | .tclkLost => Sys2Proof.Machine.execTclkLost s
  | .tclkResume => Sys2Proof.Machine.execTclkResume s
  | .eventStampEdge e l t => Sys2Proof.Machine.execEventStampEdge e l t s
  | .strStampPop q v => Sys2Proof.Machine.execStrStampPop q v s
  | .queueEnable q n v => Sys2Proof.Machine.execQueueEnable q n v s
  | .queueDisable q n v => Sys2Proof.Machine.execQueueDisable q n v s
  | .read q p n arg => Sys2Proof.Machine.execRead q p n arg s
  | .advance q p n arg => Sys2Proof.Machine.execAdvance q p n arg s
  | .mark q p n arg => Sys2Proof.Machine.execMark q p n arg s
  | .rewind q p n arg => Sys2Proof.Machine.execRewind q p n arg s
  | .release q p n arg => Sys2Proof.Machine.execRelease q p n arg s
  | .writeAdv q p n arg => Sys2Proof.Machine.execWriteAdv q p n arg s
  | .flush q p n arg => Sys2Proof.Machine.execFlush q p n arg s
  | .reset q p n arg => Sys2Proof.Machine.execReset q p n arg s
  | .recordAppend p poison => Sys2Proof.Machine.execRecordAppend p poison s
  | .recordVisible q => Sys2Proof.Machine.execRecordVisible q s
  | .heldProducerResume q => Sys2Proof.Machine.execHeldProducerResume q s
  | .channelWaitResume q => Sys2Proof.Machine.execChannelWaitResume q s
  | .positionCheckPass bad => Sys2Proof.Machine.execPositionCheckPass bad s
  | .channelEnable q c => Sys2Proof.Machine.execChannelEnable q c s
  | .channelInitDone c => Sys2Proof.Machine.execChannelInitDone c s
  | .trainingDone c r => Sys2Proof.Machine.execTrainingDone c r s
  | .channelDisable q c => Sys2Proof.Machine.execChannelDisable q c s
  | .mcRetrain q c => Sys2Proof.Machine.execMcRetrain q c s
  | .srEnter q c => Sys2Proof.Machine.execSrEnter q c s
  | .srExit q c => Sys2Proof.Machine.execSrExit q c s
  | .caparRetry c fails => Sys2Proof.Machine.execCaparRetry c fails s
  | .trackingPass c delays hot => Sys2Proof.Machine.execTrackingPass c delays hot s
  | .arbitrationWindow a => Sys2Proof.Machine.execArbitrationWindow a s
  | .scrubBurst c e => Sys2Proof.Machine.execScrubBurst c e s
  | .mcLoopStart q c => Sys2Proof.Machine.execMcLoopStart q c s
  | .mcLoopDone c firstDq fails => Sys2Proof.Machine.execMcLoopDone c firstDq fails s
  | .tokenArrival t src parity way => Sys2Proof.Machine.execTokenArrival t src parity way s
  | .fuFire t f p e => Sys2Proof.Machine.execFuFire t f p e s
  | .dividerResult t d bad => Sys2Proof.Machine.execDividerResult t d bad s
  | .memoryOpResponse t n e => Sys2Proof.Machine.execMemoryOpResponse t n e s
  | .entryAdmit n => Sys2Proof.Machine.execEntryAdmit n s
  | .exitAccept t x => Sys2Proof.Machine.execExitAccept t x s
  | .exitPortDisable q n => Sys2Proof.Machine.execExitPortDisable q n s
  | .tileMarkerPass m => Sys2Proof.Machine.execTileMarkerPass m s
  | .remapArm q t => Sys2Proof.Machine.execRemapArm q t s
  | .remapCancel q t => Sys2Proof.Machine.execRemapCancel q t s
  | .tilePause q t v => Sys2Proof.Machine.execTilePause q t v s
  | .spillEnable q t => Sys2Proof.Machine.execSpillEnable q t s
  | .spillFillDone t => Sys2Proof.Machine.execSpillFillDone t s
  | .spillOperationDone t f p e0 e1 e2 e3 => Sys2Proof.Machine.execSpillOperationDone t f p e0 e1 e2 e3 s
  | .heldStoreRetry t f p e0 e1 e2 e3 => Sys2Proof.Machine.execHeldStoreRetry t f p e0 e1 e2 e3 s
  | .spillScan t e => Sys2Proof.Machine.execSpillScan t e s
  | .stallDetected t => Sys2Proof.Machine.execStallDetected t s
  | .tileLdrLoad q => Sys2Proof.Machine.execTileLdrLoad q s
  | .tileLdrAbort q => Sys2Proof.Machine.execTileLdrAbort q s
  | .checkingDone => Sys2Proof.Machine.execCheckingDone s
  | .bindingDone => Sys2Proof.Machine.execBindingDone s
  | .verifyingDone => Sys2Proof.Machine.execVerifyingDone s
  | .writingDone => Sys2Proof.Machine.execWritingDone s
  | .nop k x => Sys2Proof.Machine.execNop k x s
  | .drop k x => Sys2Proof.Machine.execDrop k x s
  | .dup k x => Sys2Proof.Machine.execDup k x s
  | .swap k x => Sys2Proof.Machine.execSwap k x s
  | .over k x => Sys2Proof.Machine.execOver k x s
  | .rot k x => Sys2Proof.Machine.execRot k x s
  | .nip k x => Sys2Proof.Machine.execNip k x s
  | .tuck k x => Sys2Proof.Machine.execTuck k x s
  | .pick k x => Sys2Proof.Machine.execPick k x s
  | .twoDrop k x => Sys2Proof.Machine.execTwoDrop k x s
  | .twoDup k x => Sys2Proof.Machine.execTwoDup k x s
  | .twoSwap k x => Sys2Proof.Machine.execTwoSwap k x s
  | .depth k x => Sys2Proof.Machine.execDepth k x s
  | .tor k x => Sys2Proof.Machine.execTor k x s
  | .fromr k x => Sys2Proof.Machine.execFromr k x s
  | .rfetch k x => Sys2Proof.Machine.execRfetch k x s
  | .lit k x => Sys2Proof.Machine.execLit k x s
  | .litu k x => Sys2Proof.Machine.execLitu k x s
  | .addi k x => Sys2Proof.Machine.execAddi k x s
  | .andi k x => Sys2Proof.Machine.execAndi k x s
  | .ori k x => Sys2Proof.Machine.execOri k x s
  | .xori k x => Sys2Proof.Machine.execXori k x s
  | .shli k x => Sys2Proof.Machine.execShli k x s
  | .shri k x => Sys2Proof.Machine.execShri k x s
  | .sari k x => Sys2Proof.Machine.execSari k x s
  | .roli k x => Sys2Proof.Machine.execRoli k x s
  | .ldl k x => Sys2Proof.Machine.execLdl k x s
  | .stl k x => Sys2Proof.Machine.execStl k x s
  | .rds k x => Sys2Proof.Machine.execRds k x s
  | .wrs k x => Sys2Proof.Machine.execWrs k x s
  | .llit k x => Sys2Proof.Machine.execLlit k x s
  | .ladd k x => Sys2Proof.Machine.execLadd k x s
  | .sextb k x => Sys2Proof.Machine.execSextb k x s
  | .sexth k x => Sys2Proof.Machine.execSexth k x s
  | .adr k x => Sys2Proof.Machine.execAdr k x s
  | .sath k x => Sys2Proof.Machine.execSath k x s
  | .add k x => Sys2Proof.Machine.execAdd k x s
  | .adds k x => Sys2Proof.Machine.execAdds k x s
  | .addus k x => Sys2Proof.Machine.execAddus k x s
  | .sub k x => Sys2Proof.Machine.execSub k x s
  | .subs k x => Sys2Proof.Machine.execSubs k x s
  | .subus k x => Sys2Proof.Machine.execSubus k x s
  | .neg k x => Sys2Proof.Machine.execNeg k x s
  | .abs k x => Sys2Proof.Machine.execAbs k x s
  | .min k x => Sys2Proof.Machine.execMin k x s
  | .max k x => Sys2Proof.Machine.execMax k x s
  | .minu k x => Sys2Proof.Machine.execMinu k x s
  | .maxu k x => Sys2Proof.Machine.execMaxu k x s
  | .addc k x => Sys2Proof.Machine.execAddc k x s
  | .subb k x => Sys2Proof.Machine.execSubb k x s
  | .clamp k x => Sys2Proof.Machine.execClamp k x s
  | .mul k x => Sys2Proof.Machine.execMul k x s
  | .mulh k x => Sys2Proof.Machine.execMulh k x s
  | .mulhu k x => Sys2Proof.Machine.execMulhu k x s
  | .mac k x => Sys2Proof.Machine.execMac k x s
  | .muli k x => Sys2Proof.Machine.execMuli k x s
  | .div k x => Sys2Proof.Machine.execDiv k x s
  | .divu k x => Sys2Proof.Machine.execDivu k x s
  | .rem k x => Sys2Proof.Machine.execRem k x s
  | .remu k x => Sys2Proof.Machine.execRemu k x s
  | .divrem k x => Sys2Proof.Machine.execDivrem k x s
  | .divremu k x => Sys2Proof.Machine.execDivremu k x s
  | .and k x => Sys2Proof.Machine.execAnd k x s
  | .or k x => Sys2Proof.Machine.execOr k x s
  | .xor k x => Sys2Proof.Machine.execXor k x s
  | .andn k x => Sys2Proof.Machine.execAndn k x s
  | .not k x => Sys2Proof.Machine.execNot k x s
  | .shl k x => Sys2Proof.Machine.execShl k x s
  | .shr k x => Sys2Proof.Machine.execShr k x s
  | .sar k x => Sys2Proof.Machine.execSar k x s
  | .rol k x => Sys2Proof.Machine.execRol k x s
  | .ror k x => Sys2Proof.Machine.execRor k x s
  | .clz k x => Sys2Proof.Machine.execClz k x s
  | .ctz k x => Sys2Proof.Machine.execCtz k x s
  | .popc k x => Sys2Proof.Machine.execPopc k x s
  | .bswap k x => Sys2Proof.Machine.execBswap k x s
  | .cmp k x => Sys2Proof.Machine.execCmp k x s
  | .select k x => Sys2Proof.Machine.execSelect k x s
  | .extu k x => Sys2Proof.Machine.execExtu k x s
  | .exts k x => Sys2Proof.Machine.execExts k x s
  | .ins k x => Sys2Proof.Machine.execIns k x s
  | .crc1 k x => Sys2Proof.Machine.execCrc1 k x s
  | .crc2 k x => Sys2Proof.Machine.execCrc2 k x s
  | .crc4 k x => Sys2Proof.Machine.execCrc4 k x s
  | .hash k x => Sys2Proof.Machine.execHash k x s
  | .fold k x => Sys2Proof.Machine.execFold k x s
  | .ldw k x => Sys2Proof.Machine.execLdw k x s
  | .ldh k x => Sys2Proof.Machine.execLdh k x s
  | .ldhu k x => Sys2Proof.Machine.execLdhu k x s
  | .ldb k x => Sys2Proof.Machine.execLdb k x s
  | .ldbu k x => Sys2Proof.Machine.execLdbu k x s
  | .stw k x => Sys2Proof.Machine.execStw k x s
  | .sth k x => Sys2Proof.Machine.execSth k x s
  | .stb k x => Sys2Proof.Machine.execStb k x s
  | .ldr k x => Sys2Proof.Machine.execLdr k x s
  | .str k x => Sys2Proof.Machine.execStr k x s
  | .amoadd k x => Sys2Proof.Machine.execAmoadd k x s
  | .swapm k x => Sys2Proof.Machine.execSwapm k x s
  | .cas k x => Sys2Proof.Machine.execCas k x s
  | .fence k x => Sys2Proof.Machine.execFence k x s
  | .cmac k x => Sys2Proof.Machine.execCmac k x s
  | .cmul k x => Sys2Proof.Machine.execCmul k x s
  | .rmac k x => Sys2Proof.Machine.execRmac k x s
  | .acclr k x => Sys2Proof.Machine.execAcclr k x s
  | .acrd k x => Sys2Proof.Machine.execAcrd k x s
  | .acrdc k x => Sys2Proof.Machine.execAcrdc k x s
  | .acget k x => Sys2Proof.Machine.execAcget k x s
  | .acset k x => Sys2Proof.Machine.execAcset k x s
  | .bexp k x => Sys2Proof.Machine.execBexp k x s
  | .bexclr k x => Sys2Proof.Machine.execBexclr k x s
  | .ldxy k x => Sys2Proof.Machine.execLdxy k x s
  | .stxy k x => Sys2Proof.Machine.execStxy k x s
  | .cadd k x => Sys2Proof.Machine.execCadd k x s
  | .csub k x => Sys2Proof.Machine.execCsub k x s
  | .cshr k x => Sys2Proof.Machine.execCshr k x s
  | .br k x => Sys2Proof.Machine.execBr k x s
  | .bz k x => Sys2Proof.Machine.execBz k x s
  | .bnz k x => Sys2Proof.Machine.execBnz k x s
  | .branchCompare k x => Sys2Proof.Machine.execBranchCompare k x s
  | .call k x => Sys2Proof.Machine.execCall k x s
  | .bri k x => Sys2Proof.Machine.execBri k x s
  | .calli k x => Sys2Proof.Machine.execCalli k x s
  | .ret k x => Sys2Proof.Machine.execRet k x s
  | .rett k x => Sys2Proof.Machine.execRett k x s
  | .loop k x => Sys2Proof.Machine.execLoop k x s
  | .rep k x => Sys2Proof.Machine.execRep k x s
  | .trap k x => Sys2Proof.Machine.execTrap k x s
  | .brk k x => Sys2Proof.Machine.execBrk k x s
  | .wait k x => Sys2Proof.Machine.execWait k x s
  | .land k x => Sys2Proof.Machine.execLand k x s
  | .done k x => Sys2Proof.Machine.execDone k x s
  | .dbell k x => Sys2Proof.Machine.execDbell k x s
  | .synci k x => Sys2Proof.Machine.execSynci k x s
  | .out k x => Sys2Proof.Machine.execOut k x s
  | .outd k x => Sys2Proof.Machine.execOutd k x s
  | .stamp k x => Sys2Proof.Machine.execStamp k x s
  | .interruptEntry k x => Sys2Proof.Machine.execInterruptEntry k x s
  | .coreRun q k => Sys2Proof.Machine.execCoreRun q k s
  | .coreStop q k => Sys2Proof.Machine.execCoreStop q k s
  | .coreReset q k run => Sys2Proof.Machine.execCoreReset q k run s
  | .coreResetDone k => Sys2Proof.Machine.execCoreResetDone k s
  | .doorbellSet q k => Sys2Proof.Machine.execDoorbellSet q k s
  | .bankMirrorWrite q k b which v => Sys2Proof.Machine.execBankMirrorWrite q k b which v s
  | .dispatch => Sys2Proof.Machine.execDispatch s
  | .slotFill k n e => Sys2Proof.Machine.execSlotFill k n e s
  | .affExpire f => Sys2Proof.Machine.execAffExpire f s
  | .starved f => Sys2Proof.Machine.execStarved f s
  | .flowEnable q f => Sys2Proof.Machine.execFlowEnable q f s
  | .bankHandover q b v => Sys2Proof.Machine.execBankHandover q b v s
  | .bankDmaStart q b out => Sys2Proof.Machine.execBankDmaStart q b out s
  | .bankDmaAbort q b => Sys2Proof.Machine.execBankDmaAbort q b s
  | .bankDmaEnd b e => Sys2Proof.Machine.execBankDmaEnd b e s
  | .bankPowerRequest q b v => Sys2Proof.Machine.execBankPowerRequest q b v s
  | .bankPowerDone b => Sys2Proof.Machine.execBankPowerDone b s
  | .rowTest b fails spares => Sys2Proof.Machine.execRowTest b fails spares s
  | .epochBoundary upsets => Sys2Proof.Machine.execEpochBoundary upsets s
  | .epochOutEnd => Sys2Proof.Machine.execEpochOutEnd s
  | .epochSyncEdge since => Sys2Proof.Machine.execEpochSyncEdge since s
  | .syncWindowClose upsets => Sys2Proof.Machine.execSyncWindowClose upsets s
  | .realignTimeout upsets => Sys2Proof.Machine.execRealignTimeout upsets s
  | .epochCommit d => Sys2Proof.Machine.execEpochCommit d s
  | .recoveryComplete d lost => Sys2Proof.Machine.execRecoveryComplete d lost s
  | .corridorRd q tag a n e x => Sys2Proof.Machine.execCorridorRd q tag a n e x s
  | .corridorWr q tag a bs x => Sys2Proof.Machine.execCorridorWr q tag a bs x s
  | .corridorWrp a bs x => Sys2Proof.Machine.execCorridorWrp a bs x s
  | .corridorAmoadd q tag a v e x => Sys2Proof.Machine.execCorridorAmoadd q tag a v e x s
  | .corridorSwap q tag a v e x => Sys2Proof.Machine.execCorridorSwap q tag a v e x s
  | .corridorCas q tag a want v e x => Sys2Proof.Machine.execCorridorCas q tag a want v e x s
  | .corridorDbell q k x => Sys2Proof.Machine.execCorridorDbell q k x s
  | .rspData q tag x => Sys2Proof.Machine.execRspData q tag x s
  | .rspNodata q tag x => Sys2Proof.Machine.execRspNodata q tag x s
  | .responseTimeout q tag => Sys2Proof.Machine.execResponseTimeout q tag s
  | .apply q r => Sys2Proof.Machine.execApply q r s
  | .reconfigDone r => Sys2Proof.Machine.execReconfigDone r s
  | .quiesceTimeout r => Sys2Proof.Machine.execQuiesceTimeout r s
  | .trainEnable q v => Sys2Proof.Machine.execTrainEnable q v s
  | .signalDetected => Sys2Proof.Machine.execSignalDetected s
  | .linkAligned rx later skew => Sys2Proof.Machine.execLinkAligned rx later skew s
  | .linkUp => Sys2Proof.Machine.execLinkUp s
  | .lockLost => Sys2Proof.Machine.execLockLost s
  | .rlkRetrain q => Sys2Proof.Machine.execRlkRetrain q s
  | .retrainTimeout => Sys2Proof.Machine.execRetrainTimeout s
  | .loopbackSignalLoss => Sys2Proof.Machine.execLoopbackSignalLoss s
  | .dataFlit payload ctl => Sys2Proof.Machine.execDataFlit payload ctl s
  | .nullFlit payload ctl => Sys2Proof.Machine.execNullFlit payload ctl s
  | .nak payload ctl => Sys2Proof.Machine.execNak payload ctl s
  | .replayTimeout => Sys2Proof.Machine.execReplayTimeout s
  | .linkReset payload ctl => Sys2Proof.Machine.execLinkReset payload ctl s
  | .regRd x => Sys2Proof.Machine.execRegRd x s
  | .regWr x => Sys2Proof.Machine.execRegWr x s
  | .blkRd x => Sys2Proof.Machine.execBlkRd x s
  | .blkWr x => Sys2Proof.Machine.execBlkWr x s
  | .blkWrP x => Sys2Proof.Machine.execBlkWrP x s
  | .bulkGrant x => Sys2Proof.Machine.execBulkGrant x s
  | .sync x depart => Sys2Proof.Machine.execSync x depart s
  | .bulkData n => Sys2Proof.Machine.execBulkData n s
  | .bulkStall n => Sys2Proof.Machine.execBulkStall n s
  | .rlkLoopStart q => Sys2Proof.Machine.execRlkLoopStart q s
  | .bootLink q => Sys2Proof.Machine.execBootLink q s
  | .bootCopyA q => Sys2Proof.Machine.execBootCopyA q s
  | .bootCopyB q => Sys2Proof.Machine.execBootCopyB q s
  | .keyCommand q => Sys2Proof.Machine.execKeyCommand q s
  | .debugOpen q => Sys2Proof.Machine.execDebugOpen q s
  | .debugClose q => Sys2Proof.Machine.execDebugClose q s
  | .debugChallenge q => Sys2Proof.Machine.execDebugChallenge q s
  | .quote q => Sys2Proof.Machine.execQuote q s
  | .cfgRollback q n => Sys2Proof.Machine.execCfgRollback q n s
  | .flashBoot a b r => Sys2Proof.Machine.execFlashBoot a b r s
  | .tempSample ts => Sys2Proof.Machine.execTempSample ts s
  | .vmonSample vs => Sys2Proof.Machine.execVmonSample vs s
  | .ledgerPass ps => Sys2Proof.Machine.execLedgerPass ps s
  | .avsStep start fail => Sys2Proof.Machine.execAvsStep start fail s
  | .avsConfirm reading fail => Sys2Proof.Machine.execAvsConfirm reading fail s
  | .rotationStart => Sys2Proof.Machine.execRotationStart s
  | .rotationDrained => Sys2Proof.Machine.execRotationDrained s
  | .rotateAbandoned => Sys2Proof.Machine.execRotateAbandoned s
  | .bistSlice fails => Sys2Proof.Machine.execBistSlice fails s
  | .gapVector t f good => Sys2Proof.Machine.execGapVector t f good s
  | .quiet q => Sys2Proof.Machine.execQuiet q s
  | .active q => Sys2Proof.Machine.execActive q s
  | .standby q => Sys2Proof.Machine.execStandby q s
  | .standbyEntered => Sys2Proof.Machine.execStandbyEntered s
  | .wake w => Sys2Proof.Machine.execWake w s
  | .wakeComplete => Sys2Proof.Machine.execWakeComplete s
  | .holdStart => Sys2Proof.Machine.execHoldStart s
  | .holdEnd mv us => Sys2Proof.Machine.execHoldEnd mv us s
  | .resetP => Sys2Proof.Machine.execResetP s
  | .resetB sram kept mv us => Sys2Proof.Machine.execResetB sram kept mv us s
  | .resetE => Sys2Proof.Machine.execResetE s
  | .watchdogExpiry => Sys2Proof.Machine.execWatchdogExpiry s
  | .wdtKick q v => Sys2Proof.Machine.execWdtKick q v s
  | .resetRelease sel vsel => Sys2Proof.Machine.execResetRelease sel vsel s
  | .flogClear q v => Sys2Proof.Machine.execFlogClear q v s
  | .functionSwitch q n v => Sys2Proof.Machine.execFunctionSwitch q n v s
  | .gpioOutSet q w v => Sys2Proof.Machine.execGpioOutSet q w v s
  | .gpioOutClr q w v => Sys2Proof.Machine.execGpioOutClr q w v s
  | .gpioPinEvent n l => Sys2Proof.Machine.execGpioPinEvent n l s
  | .ppsEdge t => Sys2Proof.Machine.execPpsEdge t s
  | .smbusReadWord addr write cmd => Sys2Proof.Machine.execSmbusReadWord addr write cmd s
  | .laneLockChange l cdr lock eidle ppm => Sys2Proof.Machine.execLaneLockChange l cdr lock eidle ppm s
  | .trigClkEdge => Sys2Proof.Machine.execTrigClkEdge s
  | .rlkLoopDone fails => Sys2Proof.Machine.execRlkLoopDone fails s
  | .secCommandDone chal r => Sys2Proof.Machine.execSecCommandDone chal r s
  | .reservedOpcode k x => Sys2Proof.Machine.execReservedOpcode k x s

end Sys2Proof.Machine
end

