-- ==== Sys2Proof/Machine/Tick.lean ====
section
/-! DEFINITION. What the clock alone does: one 10 ns tick of the timebase, taken when no command waits (log 5). -/

namespace Sys2Proof.Machine

/-- Performance event 1 at a tick: the counters that select it, in blocks that are enabled (R635). -/
def perfTick (s : State) : State :=
  s.regs.foldl (fun s e =>
    if e.1.reg = .PERF_SEL ∧ fld e.2 0 8 = 1 ∧ bit (s.rd .BLK_CTRL e.1.inst) 0 = true then
      s.count .PERF_CNT 1 e.1.inst e.1.idx else s) s

/-- The timebase, in units of 2⁻¹⁰ ns, advances by one tick: stamp entries from before it and after it are not of one edge
(R171). -/
def timeTick (s : State) : State := withStair (s.wr .PWR_TB (s.rd .PWR_TB + 10240)) fun v => { v with edges := v.edges + 1 }

/-- Edges of tree `i` in this tick: those of its source, of which the timebase gives one and the others open numbers, through its
divider (R118; log 128). -/
def treeEdges (s : State) (i : Nat) : Nat × Nat :=
  let n := treeSrc s i
  let k := tget 0 s.heath.divs i
  let k' := k + (if n = 17 then 1 else Config.sourceEdges n (s.rd .PWR_TB).toNat)
  let d := 2 ^ s.rdf .HTH_CLK_CTRL 5 2 0 i
  (k' / d - k / d, k' % d)

/-- Every global tree that runs gives its edges to the programmable logic (R114 to R123, R139; log 128). -/
def fabricTick (s : State) : State :=
  if s.ready .heath = false then s
  else (List.range 8).foldl (fun s i =>
    if treeRuns s i then
      let e := treeEdges s i
      let g : Logic := { fr := s.heath.frames, ffs := hthState s == 5, we := bit (s.rd .HTH_RELEASE) 1
                         lit := (List.range 8).filter (treeRuns s) }
      let s := if 0 < e.1 then setAlive s i true else s
      { s with heath := { s.heath with
        divs := tset id 0 s.heath.divs i e.2, fab := (List.range e.1).foldl (fun b _ => fabricEdge g b i) s.heath.fab } }
    else s) s

/-- Pattern port `p` presents the next entry of its queue when the design asks for one, and idle where there is none
(R87, R177, R197). -/
def patternPort (s : State) (p : Nat) : State :=
  let present (s : State) (w : Option TxWord) : State :=
    { s with heath := { s.heath with pattern := tset id none s.heath.pattern p w } }
  if Config.heathAsksPattern s.heath.fab.edges p = false then s
  else match queueOfCons s 4 p with
    | some q => let r := takePattern s q; present r.1 r.2
    | none => present s none

/-- The pattern ports serve the design while its outputs are on (R139, R177). -/
def patternTick (s : State) : State := if heathOut s && s.ready .gallery then (List.range 8).foldl patternPort s else s

/-- One tick of the timebase: the counts that follow it advance (R593, R635), the Heath's trees and the pins' detectors go on,
and the link sends. A tick is no edge of the Stair (DESIGN CHOICE, logs 5, 130). -/
def tick (s : State) : State := linkTick (pinTick (patternTick (fabricTick (wdtTick (perfTick (timeTick (handoverTick s)))))))

end Sys2Proof.Machine
end

