-- ==== Sys2Proof/Machine/Tap.lean ====
section
/-! DEFINITION. The IEEE 1149.1 test access port (R550, R612, R629): the controller, the instructions that the debug state
admits, the boundary-scan chain and the AC-coupled tests of the lanes. No row of the table drives `TCK` (log 143). -/

namespace Sys2Proof.Machine

/-- The next state of the TAP controller at a rising edge of `TCK` (IEEE 1149.1). -/
def TapState.next : TapState → Bool → TapState
  | .reset, tms => if tms then .reset else .idle
  | .idle, tms => if tms then .selectDr else .idle
  | .selectDr, tms => if tms then .selectIr else .captureDr
  | .captureDr, tms => if tms then .exit1Dr else .shiftDr
  | .shiftDr, tms => if tms then .exit1Dr else .shiftDr
  | .exit1Dr, tms => if tms then .updateDr else .pauseDr
  | .pauseDr, tms => if tms then .exit2Dr else .pauseDr
  | .exit2Dr, tms => if tms then .updateDr else .shiftDr
  | .updateDr, tms => if tms then .selectDr else .idle
  | .selectIr, tms => if tms then .reset else .captureIr
  | .captureIr, tms => if tms then .exit1Ir else .shiftIr
  | .shiftIr, tms => if tms then .exit1Ir else .shiftIr
  | .exit1Ir, tms => if tms then .updateIr else .pauseIr
  | .pauseIr, tms => if tms then .exit2Ir else .pauseIr
  | .exit2Ir, tms => if tms then .updateIr else .shiftIr
  | .updateIr, tms => if tms then .selectDr else .idle

/-- The instructions that IEEE 1149.1 makes mandatory. -/
def TapInstr.mandatory : TapInstr → Bool
  | .bypass | .sample | .preload | .extest => true
  | _ => false

/-- The debug state admits an instruction (R550). -/
def tapAdmits (s : State) (i : TapInstr) : Bool := i.mandatory || debugScope s 1

/-- A pin has a cell in the boundary-scan chain (R629). -/
def TapPin.inChain : TapPin → Bool
  | .linkLane _ | .refclk _ => false
  | _ => true

/-- The instruction of a shifted code; all ones is BYPASS. -/
def tapInstr (bits : List Bool) : TapInstr :=
  if bits.all id then .bypass
  else
    match Config.tapCode bits with
    | 0 => .bypass | 1 => .sample | 2 => .preload | 3 => .extest | 4 => .extestPulse | 5 => .extestTrain
    | n => .other n

/-- An instruction works on the boundary-scan chain. -/
def TapInstr.scans : TapInstr → Bool
  | .sample | .preload | .extest | .extestPulse | .extestTrain => true
  | _ => false

/-- A lane's test receiver: its level turns where the differential input passes its hysteretic threshold of 50 to 150 mV
(R629). -/
def testReceive (l : Nat) (was : Bool) (mv : Int) : Bool :=
  let thr : Int := 50 + (Config.tapThreshold l).val
  if thr ≤ mv then true else if mv ≤ -thr then false else was

/-- The port changed. -/
def withTap (s : State) (f : Tap → Tap) : State := { s with tap := f s.tap }

/-- The inputs of the lanes' test receivers move to `mv` (R629). -/
def tapReceive (s : State) (mv : List Int) : State :=
  withTap s fun v => { v with seen := (List.range 24).foldl (fun (b : BitVec 24) l =>
    if testReceive l (v.seen.getLsbD l) (mv.getD l 0) then b ||| (1#24 <<< l) else b &&& ~~~(1#24 <<< l)) v.seen }

/-- What a cell captures: the level of its pin, or in the AC-coupled tests what a lane's test receiver has seen. -/
def cellCapture (v : Tap) (x : TapPin × Bool) : Bool :=
  match v.instr, x.1 with
  | .extestPulse, .laneRx l | .extestTrain, .laneRx l => v.seen.getLsbD l
  | _, _ => x.2

/-- The lane transmitters drive the opposite of their cells as the port enters state `st`: for one visit of Run-Test/Idle in
EXTEST_PULSE, at every other edge in it in EXTEST_TRAIN (IEEE 1149.6). -/
def tapInverts (v : Tap) (st : TapState) : Bool :=
  decide (v.state = .idle ∧ v.instr = .extestTrain ∧ v.inverted = false) || decide (st = .idle ∧ v.instr = .extestPulse)

/-- A rising edge of `TCK` with `TMS` and `TDI`; `pins` are the chip's pins in chain order with their levels. -/
def tapClock (s : State) (tms tdi : Bool) (pins : List (TapPin × Bool)) : State :=
  let chain := pins.filter fun x => x.1.inChain
  let v := s.tap
  let st := v.state.next tms
  let v := { v with
    inverted := tapInverts v st
    shift := match v.state with
      | .captureDr => if v.instr.scans then chain.map (cellCapture v) else [false]
      | .captureIr => (List.range Config.tapWidth).map (· == 0)
      | .shiftDr | .shiftIr => v.shift.drop 1 ++ [tdi]
      | _ => v.shift }
  let v :=
    match st with
    | .reset => { v with instr := .bypass, inverted := false }
    | .updateDr => if v.instr.scans then { v with cells := v.shift } else v
    | .updateIr => { v with instr := if tapAdmits s (tapInstr v.shift) then tapInstr v.shift else .bypass }
    | _ => v
  withTap s fun _ => { v with state := st }

/-- `TRST_N` low. -/
def tapReset (s : State) : State := withTap s fun v => { v with state := .reset, instr := .bypass, inverted := false }

/-- What the `i`-th cell of the chain drives on its pin: in EXTEST its update stage; in the AC-coupled tests a lane transmitter
drives the opposite of it while the pulse or train has it so (R629). -/
def cellDrive (s : State) (i : Nat) (pin : TapPin) : Option Bool :=
  let b := s.tap.cells.getD i false
  match s.tap.instr, pin with
  | .extest, _ => some b
  | .extestPulse, .laneTx _ | .extestTrain, .laneTx _ => some (b != s.tap.inverted)
  | .extestPulse, _ | .extestTrain, _ => some b
  | _, _ => none

end Sys2Proof.Machine
end

