-- ==== Sys2Proof/WellFormed.lean ====
section
/-! DEFINITION. Which commands the block's surroundings can send: the bounds of operands that the spec states and that the
types of Syntax.lean do not already hold. -/

namespace Sys2Proof.WellFormed

/-- A packet carries 1, 2, 4 or 8 bytes, or 16-byte units up to 256 (R494). -/
def packetSize (n : Nat) : Bool := n == 1 || n == 2 || n == 4 || n == 8 || (n % 16 == 0 && 16 ≤ n && n ≤ 256)

/-- A transaction carries at most 4,096 bytes (R524). -/
def tranSize (x : Tran) : Bool := x.data.length ≤ 4096

/-- Adaptation gives equaliser elements 0 to 25 (R82). -/
def eqElements (l : List (BitVec 8)) : Bool := l.length == 26

/-- There are 32 temperature sensors, 24 voltage monitors and 96 sentinels (R556, R559). -/
def sensors (l : List (BitVec 12)) : Bool := l.length == 32
/-- Voltage monitors. -/
def monitors (l : List (BitVec 12)) : Bool := l.length == 24
/-- Sentinels. -/
def sentinels (l : List (Option (BitVec 16))) : Bool := l.length == 96

/-- A skew that counts is above 64 UI (R96). -/
def wideSkew (n : Nat) : Bool := 64 < n

end Sys2Proof.WellFormed

namespace Sys2Proof

/-- A command that the block's surroundings can send. -/
def WellFormed.command (i : Instr) : Bool :=
  match i with
  | .corridorRd _ _ _ n _ _ => WellFormed.packetSize n
  | .corridorWr _ _ _ bs _ => WellFormed.packetSize bs.length
  | .corridorWrp _ bs _ => WellFormed.packetSize bs.length
  | .regRd x => WellFormed.tranSize x
  | .regWr x => WellFormed.tranSize x
  | .blkRd x => WellFormed.tranSize x
  | .blkWr x => WellFormed.tranSize x
  | .blkWrP x => WellFormed.tranSize x
  | .bulkGrant x => WellFormed.tranSize x
  | .sync x _ => WellFormed.tranSize x
  | .adaptDone _ _ eq => WellFormed.eqElements eq
  | .tempSample ts => WellFormed.sensors ts
  | .vmonSample vs => WellFormed.monitors vs
  | .ledgerPass ps => WellFormed.sentinels ps
  | .bondSkew _ n => WellFormed.wideSkew n
  | _ => true

end Sys2Proof
end

