-- ==== Sys2Proof/Safety.lean ====
section
/-! DEFINITION. What a safe state and a safe step of the block are, in the terms that claims use. -/

namespace Sys2Proof

open Machine

/-- The event controller's levels are those of the blocks' event bits (R61, R62, R64), and no re-arm is pending (R69). -/
def Safety.levelsFollow (s : State) : Prop := s.levels = sourceLevels s ∧ s.rearm = 0

/-- Memory is in its canonical form. -/
def Safety.memoryCanonical (s : State) : Prop := Memory.wf s.mem = true

/-- A step that ends in a next state. -/
def Safety.proceeds (o : Host.Outcome State Fault Refusal) : Prop := ∃ t, o = .next t

/-! Frames. -/

/-- The parts of the state beside the registers. Left out are the answer to the last access (`rsp`) and what the event
controller keeps to itself (`levels`, `sums`, `rearm`, host messages): they follow every command. -/
inductive Safety.Part where
  | pending | staged | captured | force | reqs | resetting | dom | mem | quads | lanes | groups | mcs | bad | spbs | handing
  | posted | queues | ports | bounds | sched | slots | cores | tiles | exports | epo | hthOut | discOut | heath | stair | ldr | sec
  | link | health | gpio | power | fuses | draws | detourDiff | tap
  deriving DecidableEq, Repr

/-- Registers that any command may move on the side: performance counters (R635), the end of Quiet at an event delivery
(R583), and what a refused response counts at its router (R500, R509). -/
def Safety.ambient (r : Reg) : Bool :=
  match r with
  | .PERF_CNT | .PWR_STATUS | .CRT_DROP_RSP | .CRT_CAUSE => true
  | _ => false

/-- `EVT_STATUS` of a block (R44). -/
def Safety.eventOf (b : Block) (r : Reg) (i : Nat) : Bool := r == .EVT_STATUS && i == pageOf b

/-- The registers that a fault of a block writes: its record and count (R46), and the first-fault log (R600). -/
def Safety.faultOf (b : Block) (r : Reg) (i : Nat) : Bool :=
  ((r == .FAULT_REC0 || r == .FAULT_REC1 || r == .FAULT_COUNT) && i == pageOf b) || r == .PWR_FLOG || r == .PWR_FLOG_CNT

/-- Every register outside `rs` holds what it held. -/
def Safety.regsKept (rs : Reg → Nat → Nat → Bool) (s t : State) : Prop :=
  ∀ r i j, rs r i j = false → Safety.ambient r = false → t.rd r i j = s.rd r i j

/-- The requests that a response may still reach: all but those whose answer is lost and that have completed with TIMEOUT,
which keep their tag (R498) and show nothing else. -/
def Safety.awaited (l : List Req) : List Req := l.filter fun r => !(r.late && r.lost)

/-- One part of the state is as it was. A core that waits in WAIT is left out: a request or a doorbell ends its wait (R403); so
are the tags that lost answers keep (R498). -/
def Safety.partKept (p : Safety.Part) (s t : State) : Prop :=
  match p with
  | .pending => t.pending = s.pending
  | .staged => t.staged = s.staged
  | .captured => t.captured = s.captured
  | .force => t.force = s.force
  | .reqs => Safety.awaited t.reqs = Safety.awaited s.reqs
  | .resetting => t.resetting = s.resetting
  | .dom => t.dom = s.dom
  | .mem => ∀ a, t.byte a = s.byte a
  | .quads => t.quads = s.quads
  | .lanes => t.lanes = s.lanes
  | .groups => t.groups = s.groups
  | .mcs => t.mcs = s.mcs
  | .bad => t.bad = s.bad
  | .spbs => t.spbs = s.spbs
  | .handing => t.handing = s.handing
  | .posted => t.posted = s.posted
  | .queues => t.queues = s.queues
  | .ports => t.ports = s.ports
  | .bounds => t.bounds = s.bounds
  | .sched => t.sched = s.sched
  | .slots => t.slots = s.slots
  | .cores => ∀ k, (s.core k).run ≠ .inWait → t.core k = s.core k
  | .tiles => t.tiles = s.tiles
  | .exports => t.exports = s.exports
  | .epo => t.epo = s.epo
  | .hthOut => t.hthOut = s.hthOut
  | .discOut => t.discOut = s.discOut
  | .heath => t.heath = s.heath
  | .stair => t.stair = s.stair
  | .ldr => t.ldr = s.ldr
  | .sec => t.sec = s.sec
  | .link => t.link = s.link
  | .health => t.health = s.health
  | .gpio => t.gpio = s.gpio
  | .power => t.power = s.power
  | .fuses => t.fuses = s.fuses
  | .draws => t.draws = s.draws
  | .detourDiff => t.detourDiff = s.detourDiff
  | .tap => t.tap = s.tap

/-- Only registers in `rs` and the parts `ps` differ. -/
def Safety.changesOnly (rs : Reg → Nat → Nat → Bool) (ps : List Safety.Part) (s t : State) : Prop :=
  Safety.regsKept rs s t ∧ ∀ p, p ∉ ps → Safety.partKept p s t

/-- No fault stands detected: what holds between any two commands. -/
def Safety.calm (s : State) : Prop := s.epo.detected = []

/-- A packet of `n` bytes by `q` to `a` reaches its target whole: it finds its route and a powered target, and no router on its
way or on that of the response finds its detour table amiss (R500, R504, R507). -/
def Safety.comesTo (s : State) (q : Requester) (a n : Nat) (d : Endpoint) : Prop :=
  ∀ c, carry s q (requestOf q c a n) = (s, .target d false) ∧ approach s q (requestOf q c a n) = (s, .target d false)

/-- The answer to an access of `n` bytes at `a` by `q` comes back (R500). -/
def Safety.answers (s : State) (q : Requester) (a n : Nat) : Prop :=
  ∀ d, Safety.comesTo s q a n d → ∀ p, (reply s q d.router (some d.port) p .ok).2 = .ok

/-- A 32-bit write or read by `q` of register `r[i][j]` of block `b` is performed: the debug port has the scope it needs
(R550), the address holds that register, the request reaches it (R500, R504), the page admits it (R549), and no soft reset of
the block is in progress (R47). -/
def Safety.serves (s : State) (q : Requester) (b : Block) (r : Reg) (i j : Nat) : Prop :=
  portOpen s q = true ∧
  (∃ place, slotAt (regAddr r i j - regBase) = some ⟨b, place, some ⟨r, i, j⟩, false⟩) ∧
  inRegs (regAddr r i j) = true ∧ regAddr r i j % 4 = 0 ∧ spans s q (regAddr r i j) 4 = false ∧
  (∃ d, Safety.comesTo s q (regAddr r i j) 4 d) ∧ admitted s q r = true ∧
  tget false s.resetting (pageOf b) = false

/-- Both words of a 64-bit register are served (R50, R51). -/
def Safety.servesWide (s : State) (q : Requester) (b : Block) (r : Reg) (i j : Nat) : Prop :=
  Safety.serves s q b r i j ∧
  (∃ place, slotAt (regAddr r i j + 4 - regBase) = some ⟨b, place, some ⟨r, i, j⟩, true⟩) ∧
  inRegs (regAddr r i j + 4) = true ∧ (regAddr r i j + 4) % 4 = 0 ∧ spans s q (regAddr r i j + 4) 4 = false ∧
  ∃ d, Safety.comesTo s q (regAddr r i j + 4) 4 d

/-- A queue operation through port `p` ended with status `c`, the read position before it being that of `n` in `s`. -/
def Safety.answered (s t : State) (p n : Nat) (c : OpStatus) : Prop :=
  (t.rd .GAL_OP_RES 0 p).toNat = c.code ∧ t.rd .GAL_OP_POS 0 p = s.rd .GQ_READ n

/-- The producer kind and index of a capture port (R176): a lane, a bonding group, a Heath port. -/
def Safety.capKey (p : Nat) : Nat × Nat := if p < 24 then (1, p) else if p < 32 then (7, p - 24) else (2, p - 32)

/-- The two copies of every enabled queue's positions agree (R209). -/
def Safety.copiesAgree (s : State) : Prop :=
  ∀ n, n ∈ enabledQueues s → ∀ i, i < 4 → tget 0 (s.queue n).twin i = s.rd (posReg i) n

/-- Nobody waits at the array exit port that produces into a queue, where one does. -/
def Safety.nobodyWaits (s : State) (q : Nat) : Prop :=
  (gqProd s q).1 = 3 → tget [] (s.tile (portTile (gqProd s q).2)).exitWait ((gqProd s q).2 % 4) = []

/-- When the first token of source `src` of tile `t` leaves it, nothing else on the express network moves. -/
def Safety.staysCalm (s : State) (t src : Nat) : Prop :=
  ((src < 128 ∨ 132 ≤ src) ∧ sentHead (popSource s t src) t src = none) ∨ nextHop (popSource s t src) = none

/-- Token `k` of this domain waits longest at source `src` of its own tile `t` and may reach its FU port: its tile has passed
every marker before it (R470), and nothing on its way stands still. -/
def Safety.arrives (s : State) (t src : Nat) (k : Sent) : Prop :=
  sentHead s t src = some k ∧ k.kind ≤ 3 ∧ k.tile = t ∧ k.port < 3 ∧ recovering s (tileDomain s t) = false ∧
  k.tok.epoch ≤ (s.tile t).epoch ∧ deliveryStopped s t = false ∧ tileDomain s k.frm = tileDomain s t ∧
  Safety.staysCalm s t src

/-- Token `k` waits longest at source `src` of the tile `t` of the exit port that it goes to, and may reach it: none of an earlier
epoch may come there still (R470). -/
def Safety.leaves (s : State) (t src : Nat) (k : Sent) : Prop :=
  sentHead s t src = some k ∧ k.kind = 4 ∧ k.fu < 64 ∧ portTile k.fu = t ∧ recovering s (tileDomain s t) = false ∧
  mayLeave s t k.fu src = true ∧ tileDomain s k.frm = tileDomain s t ∧ Safety.staysCalm s t src

/-- The tokens at a source once `ks` have joined those that wait there, each before those of later epochs (R470). -/
def Safety.joined (l ks : List Sent) : List Sent := ks.foldl (fun a k => joinSent k a) l

/-- The FU port that a token on its way reaches. -/
def Safety.portAt (k : Sent) : Nat := 3 * k.fu + k.port

/-- The context word that a token selects at its FU (R248, R257). -/
def Safety.wordFor (s : State) (k : Sent) : BitVec 128 := ctxWord s k.tile k.fu (remapOf s k.tile k.tok.ctx)

/-- The tokens that a firing's outputs set out (R290, R292), lowest output first. -/
def Safety.results (t : Nat) (f : Firing) (r r2 : Word) (p : Bool) (tag : BitVec 28) (err poison : Bool) : List Sent :=
  ([0, 1].filter fun o => outOn f.word o p).map fun o => sentTo t f.word o (resultToken f r r2 tag err poison o) f.op

/-- Every output of a context word of tile `t` goes to an FU or an exit port of that tile: over no express link. -/
def Safety.outputsGo (t : Nat) (w : BitVec 128) : Prop :=
  ∀ o, o = 0 ∨ o = 1 → cKind w o ≤ 4 ∧ (cKind w o = 0 ∨ sentTile (sentTo t w o {} 0) = t)

/-- The operands that the head of port `p` of FU `f` holds ready are those that its context word names. -/
def Safety.headFits (s : State) (t f p : Nat) : Bool :=
  match (portOf s t (3 * f + p)).head with
  | .ready x a b c => fits (ctxWord s t f x) a b c
  | _ => true

/-- The registers in which operation port `p` answers. -/
def Safety.opRegs (p : Nat) (r : Reg) (j : Nat) : Bool :=
  ((r == .GAL_OP_RES || r == .GAL_OP_POS) && j == p) || (r == .GAL_OP_DATA && j / 16 == p)

/-! Stream cores. -/

/-- The caches of the current bank hold the cells that an instruction pops and have room for those it pushes: no cell moves
(R397, R405). -/
def Safety.cellsReady (c : Core) (n : Need) : Prop :=
  n.pop ≤ c.cur.ds.length ∧ n.rpop ≤ c.cur.rs.length ∧
  c.cur.ds.length - n.pop + n.push ≤ (if c.bank = bankT then 8 else 16) ∧ c.cur.rs.length - n.rpop + n.rpush ≤ 8

/-- Core `k` works, repeats nothing, is not to stop, has no page write of a bound or pointer waiting (R407), and issues
instruction `i` with opcode `op` next, its cells ready. -/
def Safety.issues (s : State) (k : Fin 32) (x : CoreEnv) (op : Nat) (i : Insn) : Prop :=
  coreWorks s k = true ∧ (s.core k).stopping = false ∧ (s.core k).mirrors = [] ∧ (s.core k).run ≠ .inWait ∧
  (s.core k).rep = false ∧ x.fetch = .ok ∧ decodeAt s k .normal (s.core k).pc = .ok i ∧ i.op = op ∧
  Safety.cellsReady (s.core k) (needOf i)

/-- The data stack of the current bank of core `k`, top first, as far as it is cached. -/
def Safety.ds (s : State) (k : Fin 32) : List Word := (s.core k).cur.ds
/-- Its return stack. -/
def Safety.rs (s : State) (k : Fin 32) : List Word := (s.core k).cur.rs
/-- Its `SC_STATUS`. -/
def Safety.status (s : State) (k : Fin 32) : Word := (s.core k).cur.sp 0

/-- `SC_STATUS` once V has been raised, or not (R369). -/
def Safety.flagged (w : Word) (v : Bool) : Word := if v then w ||| 1 else w
/-- `SC_STATUS` once V has been raised, or not, and C takes `c` (R369). -/
def Safety.carried (w : Word) (v c : Bool) : Word := (Safety.flagged w v &&& ~~~ (4 : Word)) ||| (if c then 4 else 0)

/-- What a unit of core `k` leaves alone: all of the core but its program counter, what it does, the two stacks of its current
bank, and, of that bank, the special registers in `spec`, the local registers in `locals`, the accumulators where `accs`. -/
def Safety.coreKept (spec locals : Nat → Bool) (accs : Bool) (s t : State) (k : Fin 32) : Prop :=
  (t.core k).bank = (s.core k).bank ∧ (t.core k).vbase = (s.core k).vbase ∧ (t.core k).code = (s.core k).code ∧
  (t.core k).storeErr = (s.core k).storeErr ∧ (t.core k).window = (s.core k).window ∧
  (t.core k).hung = (s.core k).hung ∧ (t.core k).mirrors = (s.core k).mirrors ∧
  (t.core k).stopped = (s.core k).stopped ∧ (t.core k).stopping = (s.core k).stopping ∧
  (t.core k).inReset = (s.core k).inReset ∧ (t.core k).fresh = (s.core k).fresh ∧
  (∀ n, spec n = false → (t.core k).cur.sp n = (s.core k).cur.sp n) ∧
  (∀ n, locals n = false → (t.core k).cur.local n = (s.core k).cur.local n) ∧
  (accs = false → (t.core k).cur.acc0 = (s.core k).cur.acc0 ∧ (t.core k).cur.acc1 = (s.core k).cur.acc1) ∧
  (t.core k).cur.dsp = (s.core k).cur.dsp ∧ (t.core k).cur.rsp = (s.core k).cur.rsp ∧
  (∀ b, b ≠ (s.core k).bank → (t.core k).bk b = (s.core k).bk b) ∧
  (∀ j, j ≠ k.val → (s.core j).run ≠ .inWait → t.core j = s.core j)

/-- No special or local register. -/
def Safety.nothing (_ : Nat) : Bool := false

/-- Core `k` has completed a unit: it goes on at `next` with these stacks. -/
def Safety.goesOn (t : State) (k : Fin 32) (next : Word) (ds rs : List Word) : Prop :=
  (t.core k).pc = next ∧ (t.core k).run = .running ∧ (t.core k).rep = false ∧ Safety.ds t k = ds ∧ Safety.rs t k = rs

/-- Command `c` completes an instruction of core `k` at `next` with these stacks and this `SC_STATUS`, and changes nothing
else. -/
def Safety.computes (s : State) (k : Fin 32) (c : Instr) (next : Word) (ds rs : List Word) (status : Word) : Prop :=
  ∃ t, exec c s = .next t ∧ Safety.goesOn t k next ds rs ∧ Safety.status t k = status ∧
    Safety.coreKept (fun n => n == 0) Safety.nothing false s t k ∧ Safety.changesOnly (fun _ _ _ => false) [.cores] s t

/-- Core `k` takes a trap in its current bank, not bank T, which has room for the frame (R384 to R386): the frame holds the
resume address, `SC_TRAP_PC` and `SC_TRAP_CAUSE` say where and why, and the core goes on at the vector of the cause. -/
def Safety.traps (s t : State) (k : Fin 32) (cause detail : Nat) (resume : Word) (ds : List Word) (slot : Bool) : Prop :=
  (t.core k).pc = (s.core k).vbase + BitVec.ofNat 32 (16 * cause) ∧ (t.core k).run = .running ∧ (t.core k).rep = false ∧
  (t.core k).bank = (s.core k).bank ∧ Safety.ds t k = ds ∧
  Safety.rs t k = frame resume (s.core k).bank false :: Safety.rs s k ∧ (t.core k).cur.sp 3 = (s.core k).pc ∧
  (t.core k).cur.sp 4 = BitVec.ofNat 32 (cause + 256 * detail + 65536 * (s.core k).bank + 262144 * slot.toNat)

/-- A trap of core `k` in its current bank needs no cell to move. -/
def Safety.trapRoom (s : State) (k : Fin 32) : Prop :=
  (s.core k).bank < 4 ∧ (Safety.ds s k).length ≤ 16 ∧ (Safety.rs s k).length < 8

/-! The scheduler. -/

/-- The flows with an item to dispatch and a core for it (R417, R421, R423). -/
def Safety.candidates (s : State) : List Nat :=
  (enabledFlows s).filter fun f =>
    match offer s f with
    | some o => (coreFor s f (isAgain o)).isSome
    | none => false

/-- No queue of the scheduler has a stray head. -/
def Safety.noStrays (s : State) : Prop := ∀ q, q ∈ itemQueues s → ∀ d, headItem s q = some d → isStray s q d = false

/-- The slot of core `k` that a dispatch fills (R423). -/
def Safety.freeSlot (s : State) (k : Nat) : Nat := if (s.landing k 0).state = .empty then 0 else 1

/-! The Corridor. -/

/-- An access of `n` bytes of plain memory at `a` by `q` is performed (R492, R494, R500, R504): the debug port has its
scope, the packet has a form and one destination, its route and that of its response are usable, and the target answers OK. -/
def Safety.reaches (s : State) (q : Requester) (a n : Nat) (write : Bool) : Prop :=
  portOpen s q = true ∧ packetForm a n = true ∧ spans s q a n = false ∧ inRegs a = false ∧ memStatus s q a n write = .ok ∧
  ∃ d, Safety.comesTo s q a n d ∧ ∀ p, reply s q d.router (some d.port) p .ok = (s, .ok)

/-- The response to request `r` comes back to `q`: its way is usable, and no router on it finds its detour table amiss (R500,
R507). -/
def Safety.returns (s : State) (q : Requester) (r : Req) : Prop :=
  compareBack s q r.router (responseTo r.reads r.addr r.data.length r.status r.tag.toNat) {} = s ∧
  backRefused s q r.router r.port = none

/-! Raold Link. -/

/-- What a receive lane takes in when blocks `bs` are sent to it after the history `h` (R511, R514). -/
def Safety.heard (inverted : Bool) (h : BitVec 58) (bs : List TrainBlock) : List (BitVec 66) :=
  (trainUnits h bs).map fun u => if inverted then ~~~u else u

/-- A flit of channel `ch` whose payload begins the transaction `bs` waits on the link or has left (R519, R524). -/
def Safety.carries (t : State) (ch : Nat) (bs : List Byte) : Prop :=
  ∃ f, f ∈ t.link.waiting ++ t.link.replay ∧ f.ch = ch ∧
    f.payload = bs.take 64 ++ List.replicate (64 - (bs.take 64).length) 0

/-- The completion of transaction `x` with `status`, and with the data of a read, is on its way (R525). -/
def Safety.completes (t : State) (x : Tran) (status : Nat) (data : Option (List Byte)) : Prop :=
  Safety.carries t 1 (tranHeader (if data.isSome then 7 else 6) x.tag.toNat status 0 0 (data.getD []).length 0 ++ data.getD [])

/-- A transaction of type `ty` is taken in: the link is ACTIVE, the device Active, the flits that carry it have come, it is well
formed, and fewer than 256 requests are outstanding (R514, R519, R525, R526). -/
def Safety.takes (s : State) (x : Tran) (ty : Nat) : Prop :=
  linkState s = 4 ∧ s.up .link = true ∧ s.pwrState = 0 ∧ tranHeld s x = true ∧ malformed x = false ∧ x.ttype.toNat = ty ∧
  outstanding s < 256

end Sys2Proof
end

