-- ==== Sys2Proof/Certificates/Slice0/Obligations.lean ====
section
/-! DEFINITION. The statements for the provers, by chapter of the spec. The rules in parentheses are those a statement draws on: it
claims of them what its clauses say. Logs are notes/assumptions; what a core's row means is the model's choice (logs 24, 25). -/

section

open Sys2Proof Sys2Proof.Machine

/-! The block as a whole. -/

/-- A step takes the command at the front of the queue and runs it with the queue's rest; with no command waiting, one tick of
the timebase passes, which is the model's choice (log 5): while no design drives its outputs and no watchdog runs, it moves no
byte of memory. -/
def Obligations.StepTakesTheFrontCommand : Prop :=
  (∀ (c : Instr) (rest : List Instr) (s : State), step { s with pending := c :: rest } = exec c { s with pending := rest }) ∧
  (∀ (s : State), s.pending = [] → ∃ t, step s = .next t) ∧
  (∀ (s : State), Safety.calm s → s.pending = [] → heathOut s = false → bit (s.rd .PWR_WDT_CTRL) 0 = false →
    ∃ t, step s = .next t ∧ t.rd .PWR_TB = s.rd .PWR_TB + 10240 ∧ t.pending = [] ∧ ∀ a, t.byte a = s.byte a)

/-- The state right after reset meets the invariants that every step keeps, its queue is empty, and registers hold the values
that the spec gives for power-on. -/
def Obligations.ResetMeetsTheInvariants : Prop :=
  Safety.levelsFollow State.reset ∧ Safety.calm State.reset ∧ Safety.memoryCanonical State.reset ∧
  State.reset.pending = [] ∧ State.reset.rd .EPO_PERIOD = 100000 ∧ State.reset.rd .EPO_NUMBER = 0 ∧
  State.reset.rd .EPO_SLIP_LIMIT = 3 ∧ State.reset.rd .RLK_CTRL = 0x401 ∧ State.reset.rd .CRT_RSP_TIMEOUT 5 = 100 ∧
  State.reset.rd .CRT_NEXT_VN_PART 5 = 0x6486 ∧ State.reset.rd .SPB_OWNER 12 = 4 ∧ State.reset.rd .HLT_AVS_TARGET = 1700 ∧
  State.reset.rd .FLW_LIMIT 17 = 64 ∧ State.reset.rd .EPO_COMMITTED 0 2 = 0xFFFFFFFFFFFFFFFF

/-- Every step ends in a next state, in which the event controller's source levels are those of the blocks' enabled event bits
(R61, R62, R64), no re-arm is pending (R69), and every detected fault has been acted on (R477). -/
def Obligations.LevelsFollowEveryStep : Prop :=
  ∀ (s : State), ∃ t, step s = .next t ∧ Safety.levelsFollow t ∧ Safety.calm t

/-- Memory keeps its canonical form at every step: addresses rise, and no entry reads as an unlisted byte does.
The model's choices in it: log 7. -/
def Obligations.MemoryStaysCanonical : Prop :=
  ∀ (s t : State), Safety.memoryCanonical s → step s = .next t → Safety.memoryCanonical t

/-! Chapter 02: registers, faults, events, soft resets, power domains. -/

/-- A register takes the value written, but a field written with a reserved value keeps its own and records
RESERVED_VALUE, and a read-only register keeps its value (R49, R55, R56): shown on `EVT_ENABLE` of every block, on
`LANE_ADAPT`, and on `BLK_ID`. -/
def Obligations.RegisterWritesTakeEffect : Prop :=
  (∀ (q : Requester) (b : Block) (a : Addr) (v : Word) (s : State), Safety.calm s → a.toNat = regAddr .EVT_ENABLE (pageOf b) →
    Safety.serves s q b .EVT_ENABLE (pageOf b) 0 →
    ∃ t, exec (.registerWrite q a v) s = .next t ∧
      t.rd .EVT_ENABLE (pageOf b) = merge (BitVec.ofNat 64 (evtMask b)) (s.rd .EVT_ENABLE (pageOf b)) (ext v) ∧
      Safety.changesOnly (fun r i _ => r == .EVT_ENABLE && i == pageOf b) [.captured] s t) ∧
  (∀ (q : Requester) (l : Fin 24) (a : Addr) (v : Word) (s : State), Safety.calm s → a.toNat = regAddr .LANE_ADAPT l →
    Safety.serves s q (.lane l) .LANE_ADAPT l 0 → fld v 0 2 ≠ 3 →
    ∃ t, exec (.registerWrite q a v) s = .next t ∧ t.rdf .LANE_ADAPT 0 2 l = fld v 0 2 ∧
      (t.lane l).adapting = decide (fld v 0 2 ≠ 0) ∧
      Safety.changesOnly (fun r i _ => r == .LANE_ADAPT && i == l) [.captured, .lanes] s t) ∧
  (∀ (q : Requester) (l : Fin 24) (a : Addr) (v : Word) (s : State), Safety.calm s → a.toNat = regAddr .LANE_ADAPT l →
    Safety.serves s q (.lane l) .LANE_ADAPT l 0 → fld v 0 2 = 3 → s.rd .FAULT_COUNT (pageOf (.lane l)) = 0 →
    ∃ t, exec (.registerWrite q a v) s = .next t ∧ t.rdf .LANE_ADAPT 0 2 l = s.rdf .LANE_ADAPT 0 2 l ∧
      t.rd .FAULT_REC0 (pageOf (.lane l)) = 0x00010050 ∧ t.rd .FAULT_REC1 (pageOf (.lane l)) = ext v ∧
      t.rdf .FAULT_COUNT 0 16 (pageOf (.lane l)) = 1) ∧
  (∀ (q : Requester) (b : Block) (a : Addr) (v : Word) (s : State), Safety.calm s → a.toNat = regAddr .BLK_ID (pageOf b) →
    Safety.serves s q b .BLK_ID (pageOf b) 0 →
    ∃ t, exec (.registerWrite q a v) s = .next t ∧ Safety.changesOnly (fun _ _ _ => false) [.captured] s t)

/-- Reads (R10, R11, R51, R52): an RC counter returns its value and holds what came in with the read; the low word of a
64-bit register is staged by a write, and a read of it captures the high word. -/
def Obligations.RegisterReadsAnswer : Prop :=
  (∀ (q : Requester) (n : Fin 1024) (a : Addr) (inc : Nat) (s : State), Safety.calm s → a.toNat = regAddr .GQ_LOST n →
    Safety.serves s q .gallery .GQ_LOST n 0 → inc < 2 ^ 32 → Safety.answers s q a.toNat 4 →
    ∃ t, exec (.rcRead q a inc) s = .next t ∧ t.rsp.status = .ok ∧ t.rsp.data = leBytes 4 (lo32 (s.rd .GQ_LOST n)).toNat ∧
      (t.rd .GQ_LOST n).toNat = inc ∧ (inc ≠ 0 → bit (t.rd .GQ_STATUS n) 1 = true) ∧
      Safety.changesOnly (fun r i _ => (r == .GQ_LOST || (r == .GQ_STATUS && decide (inc ≠ 0))) && i == n) [] s t) ∧
  (∀ (q : Requester) (b : Block) (r : Reg) (i j : Nat) (a : Addr) (v : Word) (s : State), Safety.calm s →
    a.toNat = regAddr r i j → Safety.serves s q b r i j → (regDesc r).wide = true → (regDesc r).acc ≠ .ro →
    ∃ t, exec (.stagedLowWordWrite q a v) s = .next t ∧ tget none t.staged ⟨r, i, j⟩ = some v ∧
      Safety.changesOnly (fun _ _ _ => false) [.staged, .captured] s t) ∧
  (∀ (q : Requester) (b : Block) (r : Reg) (i j : Nat) (a : Addr) (s : State), Safety.calm s → a.toNat = regAddr r i j →
    Safety.serves s q b r i j → (regDesc r).wide = true → (regDesc r).acc ≠ .wo → Safety.answers s q a.toNat 4 →
    ∃ t, exec (.lowWordReadCapture q a) s = .next t ∧
      tget none t.captured ⟨r, i, j⟩ = some (hi32 (regView s b ⟨r, i, j⟩)) ∧
      t.rsp.data = leBytes 4 (lo32 (regView s b ⟨r, i, j⟩)).toNat ∧
      Safety.changesOnly (fun _ _ _ => false) [.captured] s t)

/-- Event and fault registers of a block (R46, R48, R62). -/
def Obligations.EventAndFaultRegisters : Prop :=
  (∀ (q : Requester) (b : Block) (v : Word) (s : State), Safety.calm s → Safety.serves s q b .EVT_STATUS (pageOf b) 0 →
    summaryMask b = 0 →
    ∃ t, exec (.evtStatusClear q b v) s = .next t ∧
      (∀ i, i < 16 → bit (t.rd .EVT_STATUS (pageOf b)) i =
        (bit (s.rd .EVT_STATUS (pageOf b)) i && !(bit v i && decide (evtMask b / 2 ^ i % 2 = 1)))) ∧
      Safety.changesOnly (fun r i _ => Safety.eventOf b r i) [.captured] s t) ∧
  (∀ (q : Requester) (b : Block) (v : Word) (s : State), Safety.calm s → Safety.serves s q b .EVT_STATUS (pageOf b) 0 →
    summaryMask b ≠ 0 →
    ∃ t, exec (.evtStatusClear q b v) s = .next t ∧ (∀ i, i < 16 → bit (tget 0 t.force (pageOf b)) i =
        (bit (tget 0 s.force (pageOf b)) i && !(bit v i && decide (evtMask b / 2 ^ i % 2 = 1)))) ∧
      Safety.changesOnly (fun r i _ => Safety.eventOf b r i) [.captured, .force] s t) ∧
  (∀ (q : Requester) (b : Block) (v : Word) (s : State), Safety.calm s → Safety.serves s q b .EVT_FORCE (pageOf b) 0 →
    ∃ t, exec (.evtForce q b v) s = .next t ∧
      (∀ i, i < 16 → bit v i = true → evtMask b / 2 ^ i % 2 = 1 → bit (evtStatus t b) i = true) ∧
      Safety.changesOnly (fun r i _ => Safety.eventOf b r i) [.captured, .force] s t) ∧
  (∀ (q : Requester) (b : Block) (v : Word) (s : State), Safety.calm s → Safety.serves s q b .FAULT_COUNT (pageOf b) 0 →
    ∃ t, exec (.faultCountClear q b v none) s = .next t ∧ t.rd .FAULT_COUNT (pageOf b) = 0 ∧
      t.rd .FAULT_REC0 (pageOf b) = 0 ∧ t.rd .FAULT_REC1 (pageOf b) = 0 ∧
      Safety.changesOnly (fun r i _ => Safety.faultOf b r i) [.captured] s t) ∧
  (∀ (q : Requester) (b : Block) (v : Word) (f : FaultRec) (s : State), Safety.calm s →
    Safety.serves s q b .FAULT_COUNT (pageOf b) 0 →
    ∃ t, exec (.faultCountClear q b v (some f)) s = .next t ∧ t.rdf .FAULT_COUNT 0 16 (pageOf b) = 1 ∧
      t.rd .FAULT_REC0 (pageOf b) = BitVec.ofNat 64 (f.code.toNat * 65536 + f.detail.toNat) ∧
      t.rd .FAULT_REC1 (pageOf b) = f.rec1.setWidth 64 ∧
      Safety.changesOnly (fun r i _ => Safety.faultOf b r i) [.captured] s t) ∧
  (∀ (b : Block) (code detail rec1 : Nat) (s : State),
    (let t := s.fault b code detail rec1
    t.rdf .FAULT_COUNT 0 16 (pageOf b) = min (s.rdf .FAULT_COUNT 0 16 (pageOf b) + 1) 0xFFFF ∧
    (s.rd .FAULT_COUNT (pageOf b) = 0 →
      t.rd .FAULT_REC0 (pageOf b) = BitVec.ofNat 64 (code % 65536 * 65536 + detail % 65536) ∧
      t.rd .FAULT_REC1 (pageOf b) = BitVec.ofNat 64 (rec1 % 2 ^ 32)) ∧
    (s.rd .FAULT_COUNT (pageOf b) ≠ 0 → t.rd .FAULT_REC0 (pageOf b) = s.rd .FAULT_REC0 (pageOf b) ∧
      t.rd .FAULT_REC1 (pageOf b) = s.rd .FAULT_REC1 (pageOf b)))) ∧
  (∀ (q : Requester) (b : Block) (n : Fin 2) (v : Word) (s : State), Safety.calm s →
    Safety.serves s q b .PERF_SEL (pageOf b) n → fld v 0 8 < 5 →
    ∃ t, exec (.perfSelWrite q b n v) s = .next t ∧ t.rdf .PERF_SEL 0 8 (pageOf b) n = fld v 0 8 ∧
      (fld v 0 8 = 0 → t.rd .PERF_CNT (pageOf b) n = 0) ∧
      Safety.changesOnly (fun r i j => r == .PERF_SEL && i == pageOf b && j == n.val) [.captured] s t)

/-- Reset K (R47): it begins with the write of `SRST`, clears the registers that do not survive it, and stands until it
completes. -/
def Obligations.SoftResetRuns : Prop :=
  (∀ (q : Requester) (b : Block) (s : State), Safety.calm s → Safety.serves s q b .BLK_CTRL (pageOf b) 0 →
    b ∈ [.devctl, .evc, .gpio, .health, .security] → s.power.inReset = false → s.rdf .BLK_CTRL 1 3 (pageOf b) = 0 →
    ∃ t, exec (.softResetK q b) s = .next t ∧ tget false t.resetting (pageOf b) = true ∧
      (∀ r i j, blockOfKey ⟨r, i, j⟩ = some b → survives ⟨r, i, j⟩ .K = false → Safety.ambient r = false →
        t.rd r i j = por r i j) ∧
      (∀ r i j, blockOfKey ⟨r, i, j⟩ ≠ some b → Safety.ambient r = false → t.rd r i j = s.rd r i j)) ∧
  (∀ (q : Requester) (t0 : Fin 48) (s : State), Safety.calm s → Safety.serves s q (.tile t0) .BLK_CTRL (pageOf (.tile t0)) 0 →
    s.power.inReset = false → s.rdf .BLK_CTRL 1 3 (pageOf (.tile t0)) = 0 →
    ∃ t, exec (.softResetK q (.tile t0)) s = .next t ∧ tget false t.resetting (pageOf (.tile t0)) = true) ∧
  (∀ (b : Block) (s : State), Safety.calm s → tget false s.resetting (pageOf b) = true → (∀ c, b ≠ .mc c) → (∀ r, b ≠ .router r) →
    ∃ t, exec (.softResetComplete b) s = .next t ∧ tget false t.resetting (pageOf b) = false ∧
      Safety.changesOnly (fun _ _ _ => false) [.resetting] s t)

/-- Power domains (R504, R579 to R582, R585): a domain drains, goes off, and comes back, its status bit with it; one that
Standby entry drains is gated with the others; while HOLD is active a request waits. -/
def Obligations.PowerDomainsSwitch : Prop :=
  (∀ (q : Requester) (b : Block) (d : Fin 24) (s : State), Safety.calm s → headOf b = some d.val →
    Safety.serves s q b .BLK_CTRL (headPage d) 0 → s.hold = false → powerBusy s q d = false →
    s.rdf .BLK_CTRL 1 1 (headPage d) = 0 → (∀ c, b = .mc c → s.en (.mc c) = true → c.val < 2 ^ nchLog s) →
    ∃ t, exec (.domainPowerDown q d) s = .next t ∧ t.domSt d = .draining ∧ t.rdf .BLK_CTRL 2 2 (headPage d) = 1 ∧
      (∀ e, e ≠ d.val → t.domSt e = s.domSt e) ∧
      ((∀ c, b = .mc c → s.en (.mc c) = true ∨ mcState s c = 0) →
        Safety.changesOnly (fun r i _ => r == .BLK_CTRL && i == headPage d) [.captured, .dom] s t)) ∧
  (∀ (q : Requester) (b : Block) (d : Fin 24) (s : State), Safety.calm s → headOf b = some d.val →
    Safety.serves s q b .BLK_CTRL (headPage d) 0 → s.hold = true → powerBusy s q d = false →
    s.rdf .BLK_CTRL 1 1 (headPage d) = 0 → (∀ c, b = .mc c → s.en (.mc c) = true → c.val < 2 ^ nchLog s) →
    ∃ t, exec (.domainPowerDown q d) s = .next t ∧ t.dom = s.dom ∧ bit t.power.down d = true) ∧
  (∀ (d : Fin 24) (s : State), Safety.calm s → s.hold = false → s.domSt d = .draining → bit s.power.entered d = false →
    ∃ t, exec (.drainComplete d) s = .next t ∧ t.domSt d = .off ∧ bit (t.rd .PWR_DOM_STATUS) d = false ∧
      ∀ e, e ≠ d.val → t.domSt e = s.domSt e) ∧
  (∀ (d : Fin 24) (s : State), Safety.calm s → s.hold = false → s.domSt d = .draining → bit s.power.entered d = false →
    ∃ t, exec (.drainTimeout d) s = .next t ∧ t.domSt d = .off ∧ bit (t.rd .PWR_DOM_STATUS) d = false ∧
      ∀ e, e ≠ d.val → t.domSt e = s.domSt e) ∧
  (∀ (d : Fin 24) (s : State), Safety.calm s → s.hold = false → s.domSt d = .draining → bit s.power.entered d = true →
    ∃ t, exec (.drainComplete d) s = .next t ∧ t.domSt d = .off ∧ (∀ e, e ≠ d.val → t.domSt e = s.domSt e) ∧
      Safety.changesOnly (fun _ _ _ => false) [.dom, .reqs] s t) ∧
  (∀ (q : Requester) (d : Fin 24) (s : State), Safety.calm s → Safety.serves s q .devctl .PWR_ON 0 0 → s.hold = false →
    s.domSt d = .off → bit s.power.entered d = false →
    ∃ t, exec (.domainPowerUp q d) s = .next t ∧ t.domSt d = .powering ∧ t.rdf .BLK_CTRL 2 2 (headPage d) = 0 ∧
      (∀ e, e ≠ d.val → t.domSt e = s.domSt e) ∧
      Safety.changesOnly (fun r i _ => r == .BLK_CTRL && i == headPage d) [.captured, .dom] s t) ∧
  (∀ (d : Fin 24) (s : State), Safety.calm s → s.hold = false → s.domSt d = .powering →
    ∃ t, exec (.domainPowerUpComplete d) s = .next t ∧ t.domSt d = .on ∧ bit (t.rd .PWR_DOM_STATUS) d = true ∧
      ∀ e, e ≠ d.val → t.domSt e = s.domSt e)

/-! Chapter 03: quads and lanes. -/

/-- The quad PLL (R74, R75): it locks, fails to lock within its 1 ms, loses lock, and restarts at an accepted write. -/
def Obligations.PllFollowsItsCommands : Prop :=
  (∀ (n : Fin 6) (s : State), Safety.calm s → s.live (.quad n) = true → s.pll n = .locking ∨ s.pll n = .retrying →
    ∃ t, exec (.pllLock n) s = .next t ∧ t.pll n = .locked ∧ bit (t.rd .EVT_STATUS (pageOf (.quad n))) 0 = true ∧
      (∀ m, m ≠ n.val → t.pll m = s.pll m) ∧
      Safety.changesOnly (fun r i _ => Safety.eventOf (.quad n) r i) [.quads] s t) ∧
  (∀ (n : Fin 6) (s : State), Safety.calm s → s.live (.quad n) = true → s.pll n = .locking →
    ∃ t, exec (.pllNoLock n) s = .next t ∧ t.pll n = .retrying ∧ bit (t.rd .EVT_STATUS (pageOf (.quad n))) 0 = true ∧
      t.rdf .FAULT_COUNT 0 16 (pageOf (.quad n)) = min (s.rdf .FAULT_COUNT 0 16 (pageOf (.quad n)) + 1) 0xFFFF ∧
      (s.rd .FAULT_COUNT (pageOf (.quad n)) = 0 → t.rd .FAULT_REC0 (pageOf (.quad n)) = 0x01000000) ∧
      (∀ m, m ≠ n.val → t.pll m = s.pll m) ∧
      Safety.changesOnly (fun r i _ => Safety.eventOf (.quad n) r i || Safety.faultOf (.quad n) r i) [.quads] s t) ∧
  (∀ (n : Fin 6) (s : State), Safety.calm s → s.live (.quad n) = true → s.pll n = .locked →
    ∃ t, exec (.pllLockLoss n) s = .next t ∧ t.pll n = .locking ∧ bit (t.rd .EVT_STATUS (pageOf (.quad n))) 0 = true ∧
      t.rd .QUAD_LOCK_LOSS n = satAdd 32 (s.rd .QUAD_LOCK_LOSS n) 1 ∧ (∀ m, m ≠ n.val → t.pll m = s.pll m) ∧
      Safety.changesOnly (fun r i _ => Safety.eventOf (.quad n) r i || (r == .QUAD_LOCK_LOSS && i == n)) [.quads] s t) ∧
  (∀ (q : Requester) (n : Fin 6) (v : Word) (s : State), Safety.calm s → Safety.serves s q (.quad n) .QUAD_PLL_RATE n 0 →
    symOk (symRate (s.rd .QUAD_PLL_CTRL n) (merge 0x3FFFFFF (s.rd .QUAD_PLL_RATE n) (ext v))) = true →
    lanesOk s n (symRate (s.rd .QUAD_PLL_CTRL n) (merge 0x3FFFFFF (s.rd .QUAD_PLL_RATE n) (ext v))) = true →
    ∃ t, exec (.quadPllWrite q n true v) s = .next t ∧ t.rdf .QUAD_PLL_RATE 0 16 n = fld v 0 16 ∧
      t.rdf .QUAD_PLL_RATE 16 10 n = fld v 16 10 ∧ t.rd .QUAD_PLL_CTRL n = s.rd .QUAD_PLL_CTRL n ∧
      t.pll n = (if s.en (.quad n) then .locking else .off)) ∧
  (∀ (q : Requester) (n : Fin 6) (v : Word) (s : State), Safety.calm s → Safety.serves s q (.quad n) .QUAD_PLL_CTRL n 0 →
    fld v 2 2 ≠ 3 → symOk (symRate (merge 0x1F (s.rd .QUAD_PLL_CTRL n) (ext v)) (s.rd .QUAD_PLL_RATE n)) = true →
    lanesOk s n (symRate (merge 0x1F (s.rd .QUAD_PLL_CTRL n) (ext v)) (s.rd .QUAD_PLL_RATE n)) = true →
    ∃ t, exec (.quadPllWrite q n false v) s = .next t ∧ t.rdf .QUAD_PLL_CTRL 0 5 n = fld v 0 5 ∧
      t.rd .QUAD_PLL_RATE n = s.rd .QUAD_PLL_RATE n ∧ t.pll n = (if s.en (.quad n) then .locking else .off)) ∧
  (∀ (q : Requester) (n : Fin 6) (v : Word) (s : State), Safety.calm s → Safety.serves s q (.quad n) .QUAD_PLL_RATE n 0 →
    symOk (symRate (s.rd .QUAD_PLL_CTRL n) (merge 0x3FFFFFF (s.rd .QUAD_PLL_RATE n) (ext v))) = true →
    lanesOk s n (symRate (s.rd .QUAD_PLL_CTRL n) (merge 0x3FFFFFF (s.rd .QUAD_PLL_RATE n) (ext v))) = false →
    ∃ t, exec (.quadPllWrite q n true v) s = .next t ∧ t.rd .QUAD_PLL_RATE n = s.rd .QUAD_PLL_RATE n ∧
      t.rd .QUAD_PLL_CTRL n = s.rd .QUAD_PLL_CTRL n ∧ t.pll n = s.pll n ∧
      t.rdf .FAULT_COUNT 0 16 (pageOf (.quad n)) = min (s.rdf .FAULT_COUNT 0 16 (pageOf (.quad n)) + 1) 0xFFFF)

/-- The receive path of a lane: its words reach the capture port in order, none lost or altered (R77, R78, R90, R98 to R100,
R102, R110), those of the modes with FEC as their codewords come in; its lock bits, adaptation and eye scan set their event
bits (R80, R81, R84); what it sends in a slot (R87, R90, R106).
The model's choices in it: logs 10, 59, 120, 121, 124. -/
def Obligations.LaneFollowsItsCommands : Prop :=
  (∀ (l : Fin 24) (w : LaneWord) (s : State), Safety.calm s →
    ∃ t, exec (.laneWord l w) s = .next t ∧
      Safety.changesOnly (fun r i _ => ((List.finRange 24).any fun m => Safety.eventOf (.lane m) r i) ||
        ((r == .LANE_PRBS_BITS || r == .LANE_PRBS_ERR || r == .LANE_CAL_STAMP || r == .LANE_OVERRUN_CNT) && i == l) ||
        r == .LANE_CV_CNT || r == .LANE_FEC_HIST) [.lanes, .groups, .draws] s t) ∧
  (∀ (l : Fin 24) (w : LaneWord) (s : State), Safety.calm s → laneRuns s l = true → rxMode s l ≠ 0 →
    rsMode (rxMode s l) = false → s.rdf .LOOP_CTRL 0 3 (pageOf (.lane l)) = 0 →
    (let x := (decodeWord s l ⟨fromLine s l (wordBits (rxMode s l)) w.line.toNat, w.stamp, w.eidle⟩).2
    ∃ t, exec (.laneWord l w) s = .next t ∧
      (∃ h, (t.lane l).held = (s.lane l).held ++ [h] ∧ h.data = x.data ∧ h.sbB = x.sbB ∧
        h.stamp = x.stamp + (lo32 (s.rd .LANE_TS_OFFSET l)).signExtend 64 ∧ bit h.sbA 0 = lockOf s l ∧
        bit h.sbA 1 = laneAligned s l ∧ bit h.sbA 2 = ((s.lane l).rx.missed || decide (lostWords s l w ≠ 0)) ∧
        bit h.sbA 3 = w.eidle ∧ fld h.sbA 4 4 = min x.cv 15 ∧ fld h.sbA 8 8 = 0 ∧ fld h.sbA 16 5 = l.val) ∧
      (rxMode s l = 1 → x.data = BitVec.ofNat 512 (fromLine s l 512 w.line.toNat) ∧ x.sbB = 0 ∧ x.cv = 0) ∧
      t.rd .LANE_CV_CNT l = satAdd 64 (s.rd .LANE_CV_CNT l) x.cv ∧
      (lostWords s l w ≠ 0 → t.rd .LANE_OVERRUN_CNT l = satAdd 64 (s.rd .LANE_OVERRUN_CNT l) (lostWords s l w) ∧
        bit (t.rd .EVT_STATUS (pageOf (.lane l))) 1 = true) ∧
      Safety.changesOnly (fun r i _ => Safety.eventOf (.lane l) r i ||
        ((r == .LANE_PRBS_BITS || r == .LANE_PRBS_ERR || r == .LANE_CAL_STAMP || r == .LANE_CV_CNT || r == .LANE_OVERRUN_CNT) &&
          i == l)) [.lanes, .groups, .draws] s t)) ∧
  (∀ (l : Fin 24) (w : LaneWord) (y : RxWord) (r : List RxWord) (s : State), Safety.calm s → laneRuns s l = true →
    rsMode (rxMode s l) = true → s.rdf .LOOP_CTRL 0 3 (pageOf (.lane l)) = 0 → dealt s l = false →
    (s.lane l).rx.parts.length < 9 → (s.lane l).rx.out = y :: r →
    ∃ t, exec (.laneWord l w) s = .next t ∧
      (∃ h, (t.lane l).held = (s.lane l).held ++ [h] ∧ h.data = y.data ∧ h.sbB = y.sbB ∧
        h.stamp = y.stamp + (lo32 (s.rd .LANE_TS_OFFSET l)).signExtend 64) ∧
      (t.lane l).rx.out = r ∧ (t.lane l).rx.parts = (s.lane l).rx.parts ++
        [⟨fromLine s l (wordBits (rxMode s l)) w.line.toNat, w.stamp, w.eidle⟩]) ∧
  (∀ (l : Fin 24) (w : LaneWord) (s : State), Safety.calm s → laneRuns s l = true → rsMode (rxMode s l) = true →
    s.rdf .LOOP_CTRL 0 3 (pageOf (.lane l)) = 0 → dealt s l = false → (s.lane l).rx.parts.length = 9 →
    (s.lane l).rx.out = [] →
    (let ws := (decodeOwn s l ((s.lane l).rx.parts ++
      [⟨fromLine s l (wordBits (rxMode s l)) w.line.toNat, w.stamp, w.eidle⟩])).2
    ∃ t, exec (.laneWord l w) s = .next t ∧ (t.lane l).rx.parts = [] ∧ (t.lane l).rx.out = ws.drop 1 ∧
      (t.lane l).held.map (·.data) = (s.lane l).held.map (·.data) ++ (ws.take 1).map (·.data))) ∧
  (∀ (l : Fin 24) (cdr lock eidle : Bool) (ppm : BitVec 16) (s : State), Safety.calm s → laneRuns s l = true →
    (let c := cdr && ppmLocks ppm
    let k := lock && c
    ∃ t, exec (.laneLockChange l cdr lock eidle ppm) s = .next t ∧
      t.lane l = { s.lane l with cdr := c, lock := k, eidle := eidle, ppm := ppm
                                 rx := if k && (s.lane l).lock then (s.lane l).rx
                                       else if k then { (s.lane l).rx with parts := [] } else (s.lane l).rx.restart } ∧
      ((s.lane l).cdr ≠ c ∨ (s.lane l).lock ≠ k → bit (t.rd .EVT_STATUS (pageOf (.lane l))) 0 = true) ∧
      ((bonded s l && (s.group (groupOf s l)).state == .aligned && !(if rxMode s l = 1 then c else k)) = false →
        Safety.changesOnly (fun r i _ => Safety.eventOf (.lane l) r i) [.lanes] s t) ∧
      (bonded s l = true → (s.group (groupOf s l)).state = .aligned → (if rxMode s l = 1 then c else k) = false →
        (t.group (groupOf s l)).state = .search ∧
        ∀ m ∈ members s (groupOf s l), bit (t.rd .EVT_STATUS (pageOf (.lane m))) 0 = true))) ∧
  (∀ (l : Fin 24) (eye : BitVec 8) (eq : List (BitVec 8)) (s : State), Safety.calm s → laneRuns s l = true →
    (s.lane l).adapting = true →
    ∃ t, exec (.adaptDone l eye eq) s = .next t ∧ (t.lane l).adaptDone = true ∧ (t.lane l).eye = eye ∧
      (s.rdf .LANE_ADAPT 0 2 l = 1 → (t.lane l).adapting = false ∧ t.rdf .LANE_ADAPT 0 2 l = 0) ∧
      (s.rdf .LANE_ADAPT 0 2 l ≠ 1 → (t.lane l).adapting = true) ∧
      (eye.toNat < s.rdf .LANE_MARGIN_THR 0 8 l → (s.lane l).marginSet = false →
        bit (t.rd .EVT_STATUS (pageOf (.lane l))) 2 = true) ∧
      Safety.changesOnly (fun r i _ => Safety.eventOf (.lane l) r i || (r == .LANE_ADAPT && i == l)) [.lanes] s t) ∧
  (∀ (l : Fin 24) (s : State), Safety.calm s → laneRuns s l = true → (s.lane l).adapting = true →
    (s.lane l).adaptDone = false →
    ∃ t, exec (.adaptTimeout l) s = .next t ∧ t.lane l = s.lane l ∧ bit (t.rd .EVT_STATUS (pageOf (.lane l))) 2 = true ∧
      t.rdf .FAULT_COUNT 0 16 (pageOf (.lane l)) = min (s.rdf .FAULT_COUNT 0 16 (pageOf (.lane l)) + 1) 0xFFFF ∧
      Safety.changesOnly (fun r i _ => Safety.eventOf (.lane l) r i || Safety.faultOf (.lane l) r i) [] s t) ∧
  (∀ (l : Fin 24) (errs : Nat) (s : State), Safety.calm s → laneRuns s l = true → bit (s.rd .LANE_EYE_RESULT l) 30 = true →
    ∃ t, exec (.eyeScanDone l errs) s = .next t ∧ t.rdf .LANE_EYE_RESULT 0 24 l = min errs 0xFFFFFF ∧
      bit (t.rd .LANE_EYE_RESULT l) 30 = false ∧ bit (t.rd .LANE_EYE_RESULT l) 31 = true ∧
      bit (t.rd .EVT_STATUS (pageOf (.lane l))) 2 = true ∧
      Safety.changesOnly (fun r i _ => Safety.eventOf (.lane l) r i || (r == .LANE_EYE_RESULT && i == l)) [] s t) ∧
  (∀ (q : Requester) (l : Fin 24) (s : State), Safety.calm s → Safety.serves s q (.lane l) .LANE_CNT_CLR l 0 →
    ∃ t, exec (.laneCntClr q l) s = .next t ∧ t.rd .LANE_PRBS_BITS l = 0 ∧ t.rd .LANE_PRBS_ERR l = 0 ∧
      t.rd .LANE_CV_CNT l = 0 ∧ t.rd .LANE_OVERRUN_CNT l = 0 ∧ t.rd .LANE_TX_UNDERRUN l = 0 ∧
      (∀ j, j < 17 → t.rd .LANE_FEC_HIST l j = 0) ∧
      Safety.changesOnly (fun r i _ => (r == .LANE_PRBS_BITS || r == .LANE_PRBS_ERR || r == .LANE_CV_CNT ||
        r == .LANE_OVERRUN_CNT || r == .LANE_TX_UNDERRUN || r == .LANE_FEC_HIST) && i == l) [.lanes, .captured] s t) ∧
  (∀ (q : Requester) (l : Fin 24) (v : BitVec 31) (s : State), Safety.calm s →
    Safety.serves s q (.lane l) .LANE_EYE_CTRL l 0 → bit (s.rd .LANE_EYE_RESULT l) 30 = false →
    (fld v 0 7 ≤ 31 ∨ 96 ≤ fld v 0 7) → fld v 8 8 ≠ 128 → fld v 20 2 ≠ 3 → (rateBits (laneRate s l) = 1 → fld v 20 2 = 0) →
    ∃ t, exec (.eyeScanStart q l v) s = .next t ∧ bit (t.rd .LANE_EYE_RESULT l) 30 = true ∧
      bit (t.rd .LANE_EYE_RESULT l) 31 = false ∧ t.rdf .LANE_EYE_CTRL 16 4 l = fld v 16 4 ∧
      Safety.changesOnly (fun r i _ => (r == .LANE_EYE_RESULT || r == .LANE_EYE_CTRL) && i == l) [.captured] s t) ∧
  (∀ (q : Requester) (l : Fin 24) (v : Word) (s : State), Safety.calm s → Safety.serves s q (.lane l) .LANE_EQ_DATA l 0 →
    s.rdf .LANE_ADAPT 0 2 l = 0 → s.rdf .LANE_EQ_IDX 0 8 l ≠ 0 ∨ fld v 0 8 ≤ 31 →
    ∃ t, exec (.laneEqDataWrite q l v) s = .next t ∧
      (tget 0 (t.lane l).eq (s.rdf .LANE_EQ_IDX 0 8 l)).toNat = fld v 0 8 ∧
      Safety.changesOnly (fun _ _ _ => false) [.lanes, .captured] s t) ∧
  (∀ (q : Requester) (l : Fin 24) (v : Word) (s : State), Safety.calm s →
    Safety.serves s q (.lane l) .LOOP_CTRL (0x200 + l) 0 → fld v 0 3 ≤ 4 →
    (fld v 0 3 = 4 → s.rdf .LANE_PCS 0 4 l = s.rdf .LANE_PCS 4 4 l) →
    ∃ t, exec (.loopbackSelect q l v) s = .next t ∧ t.rdf .LOOP_CTRL 0 3 (0x200 + l) = fld v 0 3 ∧
      (fld v 0 3 ≠ s.rdf .LOOP_CTRL 0 3 (0x200 + l) → (t.lane l).lock = false ∧ (t.lane l).cdr = false ∧
        bit (t.rd .EVT_STATUS (pageOf (.lane l))) 3 = true)) ∧
  (∀ (l : Fin 24) (w : Option TxWord) (s : State), Safety.calm s → laneRuns s l = true →
    s.rdf .LOOP_CTRL 0 3 (pageOf (.lane l)) < 3 → s.rdf .LANE_TX_CTRL 0 3 l = 2 → txMode s l ≠ 0 →
    rsMode (txMode s l) = false → (s.lane l).txp.out = [] →
    (let n := wordBits (txMode s l)
    let x := if heathOut s && laneClk s l then w else none
    let e := (encodeWord s l (x.getD (idleWord (txMode s l)))).2
    let line := toLine s l n e
    ∃ t, exec (.txWordSlot l w) s = .next t ∧
      (t.lane l).tx = (if s.rdf .LOOP_CTRL 0 3 (pageOf (.lane l)) = 2 then .squelch else .bits line n) ∧
      (s.rdf .LOOP_CTRL 0 3 (pageOf (.lane l)) = 1 → (t.lane l).loop = (s.lane l).loop.join ⟨n, e % 2 ^ n⟩) ∧
      (s.rdf .LOOP_CTRL 0 3 (pageOf (.lane l)) = 2 → (t.lane l).loop = (s.lane l).loop.join ⟨n, line.toNat⟩) ∧
      t.rd .LANE_TX_UNDERRUN l = satAdd 64 (s.rd .LANE_TX_UNDERRUN l) (if x.isNone then 1 else 0) ∧
      Safety.changesOnly (fun r i _ => r == .LANE_TX_UNDERRUN && i == l) [.lanes, .draws] s t)) ∧
  (∀ (l : Fin 24) (w : Option TxWord) (y : LineBits) (r : List LineBits) (s : State), Safety.calm s →
    laneRuns s l = true → s.rdf .LOOP_CTRL 0 3 (pageOf (.lane l)) = 0 → s.rdf .LANE_TX_CTRL 0 3 l = 2 → rsMode (txMode s l) = true →
    bonded s l = false → (s.lane l).txp.words.length < 9 → (s.lane l).txp.out = y :: r →
    (let x := if heathOut s && laneClk s l then w else none
    ∃ t, exec (.txWordSlot l w) s = .next t ∧
      (t.lane l).tx = .bits (toLine s l y.n y.x) y.n ∧ (t.lane l).txp.out = r ∧
      (t.lane l).txp.words = (s.lane l).txp.words ++ [x.getD (idleWord (txMode s l))] ∧
      t.rd .LANE_TX_UNDERRUN l = satAdd 64 (s.rd .LANE_TX_UNDERRUN l) (if x.isNone then 1 else 0) ∧
      Safety.changesOnly (fun r i _ => r == .LANE_TX_UNDERRUN && i == l) [.lanes, .draws] s t)) ∧
  (∀ (l : Fin 24) (w : Option TxWord) (y : LineBits) (r : List LineBits) (s : State), Safety.calm s →
    laneRuns s l = true → s.rdf .LOOP_CTRL 0 3 (pageOf (.lane l)) = 3 → (s.lane l).echo = y :: r →
    ∃ t, exec (.txWordSlot l w) s = .next t ∧ (t.lane l).tx = .bits (toLine s l y.n (fromLine s l y.n y.x)) y.n ∧
      (t.lane l).echo = r ∧ Safety.changesOnly (fun _ _ _ => false) [.lanes] s t)

/-- Bonding groups (R93, R95, R96, R637): the group aligns once its markers, or the stamps of its RAW words, are near enough, a
skew that is too wide is recorded once, and the group that loses alignment discards its open record.
The model's choices in it: logs 122, 125. -/
def Obligations.BondingFollowsItsCommands : Prop :=
  (∀ (g : Fin 4) (ms : List MarkerSeen) (order : List Nat) (s : State), Safety.calm s → (s.group g).state = .search →
    (∀ l ∈ members s g, lockOf s l = true ∧ s.up (.lane l) = true) → markersMet s g ms = true →
    ∃ t, exec (.bondAligned ⟨g, ms, order⟩) s = .next t ∧ (t.group g).state = .aligned ∧ (t.group g).out = [] ∧
      (t.group g).turn = 0 ∧ (t.group g).order = order ∧
      (∀ l ∈ members s g, bit (t.rd .EVT_STATUS (pageOf (.lane l))) 0 = true ∧
        (rxDist s g ≠ 0 → (t.lane l).rx.parts = [])) ∧
      Safety.changesOnly (fun r i _ => (List.finRange 24).any fun m => Safety.eventOf (.lane m) r i)
        [.lanes, .groups] s t) ∧
  (∀ (g : Fin 4) (ms : List MarkerSeen) (order : List Nat) (s : State), Safety.calm s → markersMet s g ms = false →
    ∃ t, exec (.bondAligned ⟨g, ms, order⟩) s = .next t ∧ Safety.changesOnly (fun _ _ _ => false) [] s t) ∧
  (∀ (g : Fin 4) (spread : Nat) (s : State), Safety.calm s → (s.group g).state = .search → (s.group g).skewed = false →
    64 < spread →
    ∃ t, exec (.bondSkew g spread) s = .next t ∧ (t.group g).state = .search ∧ (t.group g).skewed = true ∧
      (∀ l ∈ members s g, t.rdf .FAULT_COUNT 0 16 (pageOf (.lane l)) =
        min (s.rdf .FAULT_COUNT 0 16 (pageOf (.lane l)) + 1) 0xFFFF) ∧
      t.lanes = s.lanes ∧ t.queues = s.queues) ∧
  (∀ (g : Fin 4) (s : State), Safety.calm s → (s.group g).state = .aligned →
    ∃ t, exec (.bondAlignLoss g) s = .next t ∧ (t.group g).state = .search ∧ (t.port (24 + g)).cur = none ∧
      (∀ l ∈ members s g, bit (t.rd .EVT_STATUS (pageOf (.lane l))) 0 = true) ∧ t.lanes = s.lanes)

/-! Chapter 04: the Heath. -/

/-- Clock trees (R118 to R120), and what their edges do to the programmable logic: an embedded memory keeps its words, reads 0
and ignores writes beyond its depth, gives a port its own new data and the other port the old (R122, R123); flip-flops of
other trees stand, and all of them and the memories while they are gated (R139).
The model's choices in it: logs 52, 128. -/
def Obligations.TreesFollowTheirCommands : Prop :=
  (∀ (q : Requester) (n : Fin 8) (v : Word) (s : State), Safety.calm s → Safety.serves s q .heath .HTH_CLK_CTRL 0 n →
    fld v 0 5 < 19 → (7 ≤ fld v 0 5 ∧ fld v 0 5 ≤ 14 → fld v 5 2 ≠ 0) →
    ∃ t, exec (.treeSwitch q n v) s = .next t ∧ t.rdf .HTH_CLK_CTRL 0 8 0 n = fld v 0 8 ∧
      ((bit v 7 = false ∨ fld v 0 5 = 0) → bit t.heath.alive n = false) ∧
      (bit v 7 = true → fld v 0 5 ≠ 0 → fld v 0 8 ≠ s.rdf .HTH_CLK_CTRL 0 8 0 n → n.val ∈ t.heath.switching) ∧
      Safety.changesOnly (fun r _ j => r == .HTH_CLK_CTRL && j == n.val) [.captured, .heath] s t) ∧
  (∀ (n : Fin 8) (s : State), Safety.calm s → s.ready .heath = true → treeOn s n = true → sourceRuns s (treeSrc s n) = true →
    ∃ t, exec (.treeRestart n) s = .next t ∧ bit t.heath.alive n = true ∧ n.val ∉ t.heath.switching ∧
      Safety.changesOnly (fun _ _ _ => false) [.heath] s t) ∧
  (∀ (n : Fin 8) (s : State), Safety.calm s → s.ready .heath = true → treeOn s n = true → treeSrc s n ≠ 17 →
    sourceRuns s (treeSrc s n) = false ∨ n.val ∈ s.heath.switching ∨ 16 ≤ treeSrc s n →
    ∃ t, exec (.treeStopped n) s = .next t ∧ bit t.heath.alive n = false ∧ treeRuns t n = false ∧
      bit (t.rd .EVT_STATUS (pageOf .heath)) 7 = true ∧
      Safety.changesOnly (fun r i _ => Safety.eventOf .heath r i) [.heath] s t) ∧
  (∀ (b : Fabric) (m a x : Nat) (f : HeathForm), a < formDepth f →
    memWord (memPut b m f a x) m f a = x % 2 ^ formWidth f ∧
    (∀ k c, k ≠ m ∨ c ≠ a → memWord (memPut b m f a x) k f c = memWord b k f c)) ∧
  (∀ (b : Fabric) (m a x : Nat) (f : HeathForm), formDepth f ≤ a → memWord b m f a = 0 ∧ memPut b m f a x = b) ∧
  (∀ (b : Fabric) (m a x : Nat) (f : HeathForm), a < formDepth f → f ≠ .x64ecc → f ≠ .x64 →
    (let t := memCycle b m f true ⟨a, some x, true⟩ ⟨a, none, true⟩
    (tget 0 t.outs (2 * m)).toNat = x % 2 ^ formWidth f ∧ (tget 0 t.outs (2 * m + 1)).toNat = memWord b m f a ∧
      memWord t m f a = x % 2 ^ formWidth f)) ∧
  (∀ (g : Logic) (b : Fabric) (i n : Nat), n < 122880 → g.ffs = true →
    (fabricEdge g b i).moved.contains n = b.moved.contains n ∨ (ffAt g.fr n).async = true ∨
      (if (ffAt g.fr n).clock = 0 then (Config.heathCluster g.fr (n / 32)).clock0
       else (Config.heathCluster g.fr (n / 32)).clock1) = i) ∧
  (∀ (g : Logic) (b : Fabric) (i : Nat), (g.ffs = false → (fabricEdge g b i).moved = b.moved) ∧
    (g.we = false → (fabricEdge g b i).rows = b.rows))

/-- The configuration engine (R135 to R148): load, abort, frames, check, release, and the scrubber.
The model's choices in it: logs 23, 53, 55, 129. -/
def Obligations.HeathLoadsAndRuns : Prop :=
  (∀ (q : Requester) (s : State), Safety.calm s → Safety.serves s q .heath .HTH_CMD 0 0 → s.hold = false →
    hthState s ∉ [1, 2, 4] →
    ∃ t, exec (.hthLoad q) s = .next t ∧ hthState t = 1 ∧ t.heath.addr = (s.rd .HTH_LOAD_ADDR).toNat ∧
      t.heath.len = (s.rd .HTH_LOAD_LEN).toNat ∧ t.rd .HTH_LOAD_PROG = 0 ∧ t.rd .HTH_RELEASE = 0 ∧ t.heath.frames = [] ∧
      (∀ c k f, ffLevel t.heath.fab c k f = f.init) ∧ (∀ m f a, memWord t.heath.fab m f a = 0) ∧
      Safety.changesOnly (fun r _ _ => r == .HTH_STATE || r == .HTH_LOAD_PROG || r == .HTH_RELEASE) [.captured, .heath] s t) ∧
  (∀ (q : Requester) (s : State), Safety.calm s → Safety.serves s q .heath .HTH_CMD 0 0 → hthState s ∈ [1, 2, 4] →
    ∃ t, exec (.hthLoad q) s = .next t ∧ hthState t = hthState s ∧
      t.rdf .FAULT_COUNT 0 16 (pageOf .heath) = min (s.rdf .FAULT_COUNT 0 16 (pageOf .heath) + 1) 0xFFFF ∧
      (s.rd .FAULT_COUNT (pageOf .heath) = 0 → t.rd .FAULT_REC0 (pageOf .heath) = 0x00020048) ∧
      Safety.changesOnly (fun r i _ => Safety.faultOf .heath r i) [.captured] s t) ∧
  (∀ (q : Requester) (s : State), Safety.calm s → Safety.serves s q .heath .HTH_CMD 0 0 → hthState s = 3 → s.hold = false →
    ∃ t, exec (.hthRelease q) s = .next t ∧ hthState t = 4 ∧ t.rd .HTH_RELEASE = 0 ∧
      Safety.changesOnly (fun r _ _ => r == .HTH_STATE || r == .HTH_RELEASE) [.captured, .heath] s t) ∧
  (∀ (q : Requester) (s : State), Safety.calm s → Safety.serves s q .heath .HTH_CMD 0 0 → hthState s = 3 → s.hold = true →
    ∃ t, exec (.hthRelease q) s = .next t ∧ hthState t = 3 ∧ t.heath.release = true) ∧
  (∀ (q : Requester) (s : State), Safety.calm s → Safety.serves s q .heath .HTH_CMD 0 0 → hthState s = 1 →
    ∃ t, exec (.hthAbort q) s = .next t ∧ hthState t = 6 ∧ bit (t.rd .EVT_STATUS (pageOf .heath)) 1 = true ∧
      Safety.changesOnly (fun r i _ => Safety.eventOf .heath r i || r == .HTH_STATE) [.captured, .heath] s t) ∧
  (∀ (bs : List Byte) (s : State), Safety.calm s → hthState s = 1 → s.hold = false → s.ready .heath = true →
    reloadWaits s = false → 2 ≤ s.heath.body.length →
    hthRead s (s.heath.addr + 320 + 136 * (s.rd .HTH_LOAD_PROG).toNat) 136 = (s, .ok, bs) → frameCrcOk bs = true →
    word bs 0 = (s.rd .HTH_LOAD_PROG).toNat → (s.rd .HTH_LOAD_PROG).toNat + 1 < min 24576 s.heath.total →
    ∃ t, exec .loadFrame s = .next t ∧ hthState t = 1 ∧ (t.rd .HTH_LOAD_PROG).toNat = (s.rd .HTH_LOAD_PROG).toNat + 1 ∧
      tget [] t.heath.frames (s.rd .HTH_LOAD_PROG).toNat = bs ∧
      Safety.changesOnly (fun r _ _ => r == .HTH_LOAD_PROG) [.heath] s t) ∧
  (∀ (bs : List Byte) (s : State), Safety.calm s → hthState s = 1 → s.hold = false → s.ready .heath = true →
    reloadWaits s = false → 2 ≤ s.heath.body.length →
    hthRead s (s.heath.addr + 320 + 136 * (s.rd .HTH_LOAD_PROG).toNat) 136 = (s, .ok, bs) → frameCrcOk bs = true →
    24576 ≤ (s.rd .HTH_LOAD_PROG).toNat → (s.rd .HTH_LOAD_PROG).toNat + 1 < min 33216 s.heath.total →
    s.heath.last < word bs 0 → 24576 ≤ word bs 0 → word bs 0 < 33216 →
    ∃ t, exec .loadFrame s = .next t ∧ hthState t = 1 ∧ (t.rd .HTH_LOAD_PROG).toNat = (s.rd .HTH_LOAD_PROG).toNat + 1 ∧
      tget 0 t.heath.fab.rows (word bs 0 - 24576) = BitVec.ofNat 1024 (leNat ((bs.drop 4).take 128)) ∧
      t.heath.frames = s.heath.frames ∧ Safety.changesOnly (fun r _ _ => r == .HTH_LOAD_PROG) [.heath] s t) ∧
  (∀ (bs : List Byte) (s : State), Safety.calm s → hthState s = 1 → s.hold = false → s.ready .heath = true →
    reloadWaits s = false → 2 ≤ s.heath.body.length →
    hthRead s (s.heath.addr + 320 + 136 * (s.rd .HTH_LOAD_PROG).toNat) 136 = (s, .ok, bs) → frameCrcOk bs = false →
    ∃ t, exec .loadFrame s = .next t ∧ hthState t = 6 ∧ bit (t.rd .EVT_STATUS (pageOf .heath)) 1 = true ∧
      t.rdf .FAULT_COUNT 0 16 (pageOf .heath) = min (s.rdf .FAULT_COUNT 0 16 (pageOf .heath) + 1) 0xFFFF) ∧
  (∀ (s : State), Safety.calm s → hthState s = 2 → s.ready .heath = true →
    ∃ t, exec .loadCheckDone s = .next t ∧
      (if (acceptImage s 2 s.heath.len s.heath.manifest (s.heath.body.reverse.flatMap id)).2 = 0
       then hthState t = 3 ∨ hthState t = 4 else hthState t = 6) ∧
      t.heath.frames = s.heath.frames) ∧
  (∀ (s : State), Safety.calm s → hthState s = 4 → s.ready .heath = true → treeRuns s 0 = true → s.rd .HTH_RELEASE = 0 →
    ∃ t, exec .releaseStage s = .next t ∧ hthState t = 4 ∧ t.rd .HTH_RELEASE = 1 ∧
      bit (t.rd .EVT_STATUS (pageOf .heath)) 4 = true ∧
      Safety.changesOnly (fun r i _ => Safety.eventOf .heath r i || r == .HTH_RELEASE) [] s t) ∧
  (∀ (s : State), Safety.calm s → hthState s = 4 → s.ready .heath = true → treeRuns s 0 = true → s.rd .HTH_RELEASE = 3 →
    ∃ t, exec .releaseStage s = .next t ∧ hthState t = 5 ∧ t.rd .HTH_RELEASE = 7 ∧
      bit (t.rd .EVT_STATUS (pageOf .heath)) 6 = true ∧ (s.heath.loaded = true →
        t.rd .HTH_GOLD_ADDR = s.rd .HTH_LOAD_ADDR ∧ t.rd .HTH_GOLD_LEN = s.rd .HTH_LOAD_LEN)) ∧
  (∀ (u : Option (BitVec 1024)) (bs : List Byte) (x s : State), Safety.calm s → hthState s = 5 →
    bit (s.rd .HTH_LOAD_CTRL) 2 = true → s.hold = false →
    s.ready .heath = true →
    x = { s with heath := reframe s.heath (scrubAt s) (upsetFrame (tget [] s.heath.frames (scrubAt s)) u) } →
    hthRead x ((s.rd .HTH_GOLD_ADDR).toNat + 320 + 136 * scrubAt s) 136 = (x, .ok, bs) →
    frameCrcOk bs = true → frameCrcOk (upsetFrame (tget [] s.heath.frames (scrubAt s)) u) = false → scrubAt s + 1 < 24576 →
    ∃ t, exec (.scrubFrameCheck u) s = .next t ∧ tget [] t.heath.frames (scrubAt s) = bs ∧ scrubAt t = scrubAt s + 1 ∧
      (∀ n, n < 122880 → ffLevel t.heath.fab (n / 2) (n % 2) (ffAt t.heath.frames n) =
        ffLevel s.heath.fab (n / 2) (n % 2) (ffAt s.heath.frames n)) ∧
      t.rd .HTH_SCRUB_FIXED = satAdd 32 (s.rd .HTH_SCRUB_FIXED) 1 ∧ bit (t.rd .EVT_STATUS (pageOf .heath)) 2 = true ∧
      Safety.changesOnly (fun r i _ => Safety.eventOf .heath r i || r == .HTH_SCRUB_FIXED || r == .HTH_SCRUB_STATUS)
        [.heath] s t) ∧
  (∀ (q : Requester) (s : State), Safety.calm s → Safety.serves s q .heath .HTH_RUN_CLR 0 0 →
    ∃ t, exec (.hthRunClr q) s = .next t ∧ bit (t.rd .HTH_RUN_STATUS) 8 = false ∧
      Safety.changesOnly (fun r _ _ => r == .HTH_RUN_STATUS) [.captured] s t)

/-- The Heath's ports (R126 to R132): capture decisions, of which a lane whose tree stands gets none, capture units, exit and
entry tokens.
The model's choices in it: logs 118, 128. -/
def Obligations.HeathPortsMoveData : Prop :=
  (∀ (l : Fin 24) (ds : List Decision) (s : State), Safety.calm s → groupPort s l = none → heathOut s = false →
    ∃ t, exec (.captureDecision l ds) s = .next t ∧ (t.lane l).held = (s.lane l).held.drop 1 ∧
      Safety.changesOnly (fun _ _ _ => false) [.lanes] s t) ∧
  (∀ (l : Fin 24) (ds : List Decision) (w : HeldWord) (ws : List HeldWord) (s : State), Safety.calm s →
    groupPort s l = none → heathOut s = true → (s.lane l).held = w :: ws → (ds = [] ∨ laneClk s l = false) →
    ∃ t, exec (.captureDecision l ds) s = .next t ∧ (t.lane l).held = ws ∧
      t.rd .HTH_DEC_ERR_CNT 0 l = satAdd 32 (s.rd .HTH_DEC_ERR_CNT 0 l) 1 ∧ bit (t.rd .HTH_RUN_STATUS) 8 = true ∧
      bit (t.rd .EVT_STATUS (pageOf .heath)) 7 = true ∧ t.ports = s.ports) ∧
  (∀ (l : Fin 24) (d : Decision) (w : HeldWord) (ws : List HeldWord) (s : State), Safety.calm s → groupPort s l = none →
    heathOut s = true → laneClk s l = true → (s.lane l).held = w :: ws → d.seq.toNat = fld w.sbA 24 8 →
    d.keep = false → d.sor = true → d.eor = false → (s.port l).cur = none →
    ∃ t, exec (.captureDecision l [d]) s = .next t ∧ (t.lane l).held = ws ∧
      (∃ r, (t.port l).cur = some r ∧ r.typ = d.typ ∧ r.slot = d.qsel ∧ r.user = d.user ∧ r.sbA = w.sbA ∧ r.payload = []) ∧
      Safety.changesOnly (fun r _ j => r == .HTH_DEC_ERR_CNT && j == l.val) [.lanes, .ports] s t) ∧
  (∀ (p : Fin 8) (u : HeathUnit) (s : State), Safety.calm s → heathOut s = true →
    treeRuns s (s.rdf .HTH_HCAP_CLK 0 3 0 p) = true → u.sor = true → u.eor = false →
    (s.port (32 + p)).cur = none →
    ∃ t, exec (.heathCaptureUnit p u) s = .next t ∧
      (∃ r, (t.port (32 + p)).cur = some r ∧ r.stamp = s.rd .PWR_TB ∧ r.typ = u.typ ∧ r.slot = u.qsel ∧ r.user = u.user ∧
        r.payload = leBytes 32 u.data.toNat) ∧
      Safety.changesOnly (fun _ _ _ => false) [.ports] s t) ∧
  (∀ (n : Fin 64) (k : HeathToken) (s : State), Safety.calm s → heathOut s = true → portClk s n 0 = true → k.idle = false →
    exitReady s n = true →
    ∃ t, exec (.heathExitToken n k) s = .next t ∧ tget [] t.hthOut n.val = tget [] s.hthOut n.val ++ [heathToken k] ∧
      Safety.changesOnly (fun _ _ _ => false) [.hthOut] s t) ∧
  (∀ (n : Fin 64) (k : Token) (r : List (Token × Option Nat)) (s : State), Safety.calm s → heathOut s = true →
    portClk s n 4 = true →
    s.up (tileB (portTile n)) = true → bit (s.rd .TILE_XP_CFG (portTile n) (n % 4)) 1 = false → tget [] s.discOut n.val = [] →
    exitStore s n = (k, none) :: r → tget [] (s.tile (portTile n)).exitWait (n % 4) = [] →
    ∃ t, exec (.heathEntryDelivery n) s = .next t ∧ exitStore t n = r ∧
      Safety.changesOnly (fun _ _ _ => false) [.tiles, .discOut] s t) ∧
  (∀ (n : Fin 64) (a b : Nat) (r : List (Nat × Nat × Nat)) (s : State), Safety.calm s → heathOut s = true → portClk s n 4 = true →
    s.up (tileB (portTile n)) = true → bit (s.rd .TILE_XP_CFG (portTile n) (n % 4)) 1 = false →
    tget [] s.discOut n.val = (a, b, 0) :: r →
    ∃ t, exec (.heathEntryDelivery n) s = .next t ∧ tget [] t.discOut n.val = r ∧
      Safety.changesOnly (fun _ _ _ => false) [.discOut] s t)

/-! Chapter 05: the Trigger Stair. -/

/-- The Trigger Stair (R153 to R171): arming and disarming at a timebase edge, steps, trigger lines, event stamps
and their filter.
The model's choices in it: logs 57, 130. -/
def Obligations.StairFollowsItsCommands : Prop :=
  (∀ (q : Requester) (s : State), Safety.calm s → Safety.serves s q .stair .STR_CMD 0 0 → armed s = false →
    ∃ t, exec (.arm q) s = .next t ∧ t.stair.armReq = true ∧ Safety.changesOnly (fun _ _ _ => false) [.captured, .stair] s t) ∧
  (∀ (q : Requester) (s : State), Safety.calm s → Safety.serves s q .stair .STR_CMD 0 0 → armed s = true →
    ∃ t, exec (.arm q) s = .next t ∧ t.stair = s.stair ∧
      t.rdf .FAULT_COUNT 0 16 (pageOf .stair) = min (s.rdf .FAULT_COUNT 0 16 (pageOf .stair) + 1) 0xFFFF ∧
      Safety.changesOnly (fun r i _ => Safety.faultOf .stair r i) [.captured] s t) ∧
  (∀ (q : Requester) (s : State), Safety.calm s → Safety.serves s q .stair .STR_CMD 0 0 →
    ∃ t, exec (.disarm q) s = .next t ∧ t.stair.disarmReq = true ∧
      Safety.changesOnly (fun _ _ _ => false) [.captured, .stair] s t) ∧
  (∀ (lines direct : BitVec 256) (s : State), Safety.calm s → s.stair.armReq = true → s.stair.clear = false →
    s.stair.disarmReq = false →
    ∃ t, exec (.stairEdge ⟨lines, direct⟩) s = .next t ∧ armed t = true ∧ stairStep t = s.rdf .STR_CTRL 0 6 ∧
      t.stair.armReq = false ∧
      (∀ j, j < 16 → t.rd .STR_CNT_VAL 0 j = 0) ∧ t.queues = s.queues) ∧
  (∀ (lines direct : BitVec 256) (s : State), Safety.calm s → s.stair.armReq = false → s.stair.clear = false →
    s.stair.disarmReq = true →
    ∃ t, exec (.stairEdge ⟨lines, direct⟩) s = .next t ∧ armed t = false ∧ t.stair.disarmReq = false ∧ t.stair.run = 0 ∧
      t.stair.drive1 = 0 ∧ t.stair.drive2 = 0) ∧
  (∀ (lines direct : BitVec 256) (s : State), Safety.calm s → s.stair.armReq = false → s.stair.clear = false →
    s.stair.disarmReq = false → armed s = true → s.rdf .STR_STEP_LUT 0 16 0 (stairStep s) = 0xFFFF →
    s.rdf .STR_STEP_ACT 0 16 0 (stairStep s) = 0 →
    ∃ t, exec (.stairEdge ⟨lines, direct⟩) s = .next t ∧ armed t = true ∧ stairStep t = s.rdf .STR_STEP_NEXT 0 6 0 (stairStep s) ∧
      t.queues = s.queues ∧ t.mem = s.mem) ∧
  (∀ (balls : BitVec 16) (s : State), Safety.calm s →
    ∃ t, exec (.trigInputChange balls) s = .next t ∧ t.stair = { s.stair with balls := balls } ∧
      Safety.changesOnly (fun _ _ _ => false) [.stair] s t) ∧
  (∀ (s : State), Safety.calm s →
    ∃ t, exec .trigClkEdge s = .next t ∧ t.stair.trig = s.stair.balls ∧ t.stair.drive2 = s.stair.drive1 ∧
      bit (t.rd .STR_STATUS) 16 = true ∧ Safety.changesOnly (fun r _ _ => r == .STR_STATUS) [.stair] s t) ∧
  (∀ (s : State), Safety.calm s →
    ∃ t, exec .tclkResume s = .next t ∧ t.stair.trig = s.stair.balls ∧ bit (t.rd .STR_STATUS) 16 = true ∧
      Safety.changesOnly (fun r _ _ => r == .STR_STATUS) [.stair] s t) ∧
  (∀ (s : State), Safety.calm s → bit (s.rd .STR_STATUS) 16 = true →
    ∃ t, exec .tclkLost s = .next t ∧ bit (t.rd .STR_STATUS) 16 = false ∧ t.stair.drive1 = 0 ∧ t.stair.drive2 = 0 ∧
      bit (t.rd .EVT_STATUS (pageOf .stair)) 5 = true ∧
      Safety.changesOnly (fun r i _ => Safety.eventOf .stair r i || r == .STR_STATUS) [.stair] s t) ∧
  (∀ (e : Fin 8) (level : Bool) (x : DWord) (n : Nat) (s : State), Safety.calm s → bit (s.rd .STR_ES_CTRL 0 e) 0 = true →
    s.rdf .STR_ES_CTRL 4 4 0 e ≤ n → stampPad s e = true →
    s.stair.es.getLsbD e ≠ level → bit (s.rd .STR_ES_CTRL 0 e) 3 = true → s.rdf .STR_ES_CTRL 1 2 0 e = 2 →
    s.stair.fifo.length < 64 →
    ∃ t, exec (.eventStampEdge e ⟨level, n⟩ x) s = .next t ∧ t.stair.es.getLsbD e = level ∧
      t.stair.fifo = placeStamp ⟨x, e, level, s.rd .EPO_NUMBER, s.stair.edges⟩ s.stair.fifo ∧
        bit (t.rd .EVT_STATUS (pageOf .stair)) 2 = true ∧
      Safety.changesOnly (fun r i _ => Safety.eventOf .stair r i) [.stair] s t) ∧
  (∀ (e : Fin 8) (level : Bool) (x : DWord) (n : Nat) (s : State), Safety.calm s → bit (s.rd .STR_ES_CTRL 0 e) 0 = true →
    s.rdf .STR_ES_CTRL 4 4 0 e ≤ n → stampPad s e = true →
    s.stair.es.getLsbD e ≠ level → bit (s.rd .STR_ES_CTRL 0 e) 3 = true → s.rdf .STR_ES_CTRL 1 2 0 e = 2 →
    s.stair.fifo.length = 64 → (∀ y ∈ s.stair.fifo, y.edge = s.stair.edges → y.source ≤ e) →
    ∃ t, exec (.eventStampEdge e ⟨level, n⟩ x) s = .next t ∧ t.stair.fifo = s.stair.fifo ∧
      t.rd .STR_STAMP_LOST = satAdd 32 (s.rd .STR_STAMP_LOST) 1 ∧ bit (t.rd .EVT_STATUS (pageOf .stair)) 3 = true) ∧
  (∀ (e : Fin 8) (level : Bool) (x : DWord) (n : Nat) (s : State), Safety.calm s → n < s.rdf .STR_ES_CTRL 4 4 0 e →
    ∃ t, exec (.eventStampEdge e ⟨level, n⟩ x) s = .next t ∧ Safety.changesOnly (fun _ _ _ => false) [] s t) ∧
  (∀ (q : Requester) (v : Word) (s : State), Safety.calm s → Safety.serves s q .stair .STR_STAMP_POP 0 0 →
    ∃ t, exec (.strStampPop q v) s = .next t ∧ t.stair.fifo = s.stair.fifo.drop 1 ∧
      Safety.changesOnly (fun _ _ _ => false) [.captured, .stair] s t)

/-! Chapter 06: Gallery queues. -/

/-- A queue is enabled with every position 0, or its enabling fails with the fault that names why; it is disabled with its
positions as they are; another field of an enabled queue's `GQ_CTRL` is refused (R178, R184, R185, R187). -/
def Obligations.QueuesTurnOnAndOff : Prop :=
  (∀ (q : Requester) (n : Fin 1024) (v : Word) (s : State), Safety.calm s → Safety.serves s q .gallery .GQ_CTRL n 0 →
    gqEn s n = false → bindValid (ext v) (s.rd .GQ_BIND n) = true → regionValid (s.wr .GQ_CTRL (ext v) n) n = true →
    (∀ k, k ∈ enabledQueues s → bindClash s n k = false) →
    ∃ t, exec (.queueEnable q n v) s = .next t ∧ t.rd .GQ_CTRL n = merge 0x77FF (s.rd .GQ_CTRL n) (ext (v ||| 1)) ∧
      (∀ r, r ∈ [Reg.GQ_WRITE, .GQ_READ, .GQ_MARK, .GQ_FREE, .GQ_RELPEND] → t.rd r n = 0) ∧
      (t.queue n).beyond = [] ∧ (t.queue n).tail = [] ∧ (t.queue n).entries = 0 ∧ (t.queue n).gate0 = bit v 7 ∧
      Safety.changesOnly (fun r i _ => (r == .GQ_CTRL || r == .GQ_WRITE || r == .GQ_READ || r == .GQ_MARK || r == .GQ_FREE ||
        r == .GQ_RELPEND || r == .GQ_STATUS) && i == n.val)
        (if (gqProd s n).1 = 7 then [.captured, .queues, .lanes] else [.captured, .queues]) s t) ∧
  (∀ (q : Requester) (n : Fin 1024) (v : Word) (s : State), Safety.calm s → Safety.serves s q .gallery .GQ_CTRL n 0 →
    gqEn s n = false → fld v 1 3 < 4 → s.rd .FAULT_COUNT (pageOf .gallery) = 0 →
    (bindValid (ext v) (s.rd .GQ_BIND n) = false ∨ regionValid (s.wr .GQ_CTRL (ext v) n) n = false) →
    ∃ t, exec (.queueEnable q n v) s = .next t ∧ gqEn t n = false ∧
      t.rd .FAULT_REC0 (pageOf .gallery) =
        BitVec.ofNat 64 ((if bindValid (ext v) (s.rd .GQ_BIND n) = false then 0x01010000 else 0x01030000) + n) ∧
      Safety.changesOnly (fun r i _ => Safety.faultOf .gallery r i || (r == .GQ_CTRL && i == n.val)) [.captured, .queues] s t) ∧
  (∀ (q : Requester) (n : Fin 1024) (v : Word) (s : State), Safety.calm s → Safety.serves s q .gallery .GQ_CTRL n 0 →
    gqEn s n = true → ext (v &&& 0xFFFFFFFE) = setBit (s.rd .GQ_CTRL n) 0 false → gqKind s n < 4 → gqKind s n ≠ 2 →
    Safety.nobodyWaits s n →
    ∃ t, exec (.queueDisable q n v) s = .next t ∧ t.rd .GQ_CTRL n = setBit (s.rd .GQ_CTRL n) 0 false ∧
      (t.queue n).beyond = [] ∧ (t.queue n).stalled = false ∧ (t.queue n).started = false ∧
      Safety.changesOnly (fun r i _ => r == .GQ_CTRL && i == n.val)
        (if (gqCons s n).1 = 5 then [.captured, .queues, .ports, .link] else [.captured, .queues, .ports]) s t) ∧
  (∀ (q : Requester) (n : Fin 1024) (v : Word) (s : State), Safety.calm s → Safety.serves s q .gallery .GQ_CTRL n 0 →
    gqEn s n = true → fld v 1 3 ≠ gqKind s n → fld v 1 3 < 4 → s.rd .FAULT_COUNT (pageOf .gallery) = 0 →
    ∃ t, exec (.queueEnable q n v) s = .next t ∧ fld (t.rd .FAULT_REC0 (pageOf .gallery)) 16 16 = 2 ∧
      t.rd .FAULT_REC1 (pageOf .gallery) = ext (v ||| 1) ∧
      Safety.changesOnly (fun r i _ => Safety.faultOf .gallery r i) [.captured] s t)

/-- The operations of a queue's consumer (R199, R202): READ returns the entry at the read position and moves past it, ADVANCE
moves, MARK marks the read position, REWIND returns to the mark or, where the mark is lost, to the free position, and
RELEASE frees what has been read. -/
def Obligations.ConsumersReadAndRelease : Prop :=
  (∀ (q : Requester) (p : Fin 8) (n : Fin 1024) (arg : BitVec 38) (s : State), Safety.calm s →
    Safety.servesWide s q .gallery .GAL_OP 0 p → Safety.copiesAgree s →
    gqEn s n = true → (gqCons s n).1 = 0 → (s.queue n).skips = [] →
    (s.queue n).head = [] → gqRead s n < gqWrite s n → gqReady s n (gqRead s n) (readTake s n) = true →
    gqBad s n (gqRead s n) (readTake s n) = false →
    ∃ t, exec (.read q p n arg) s = .next t ∧ Safety.answered s t p n .ok ∧
      gqRead t n = min (gqRead s n + entrySize s n (gqRead s n)) (gqWrite s n) ∧
      (∀ w : Fin 8, (t.rd .GAL_OP_DATA 0 (16 * p + w)).toNat = leNat (((gqBytes s n (gqRead s n)
        (if gqKind s n = 0 then 32 else min 32 (min (entrySize s n (gqRead s n)) (gqWrite s n - gqRead s n)))).drop
        (4 * w)).take 4)) ∧
      Safety.changesOnly (fun r i j => Safety.opRegs p r j || ((r == .GQ_READ || r == .GQ_STATUS) && i == n.val))
        [.staged, .captured, .queues] s t) ∧
  (∀ (q : Requester) (p : Fin 8) (n : Fin 1024) (arg : BitVec 38) (s : State), Safety.calm s →
    Safety.servesWide s q .gallery .GAL_OP 0 p → Safety.copiesAgree s →
    gqEn s n = true → (gqCons s n).1 = 0 → (s.queue n).skips = [] →
    gqRead s n = gqWrite s n →
    ∃ t, exec (.read q p n arg) s = .next t ∧ Safety.answered s t p n .ok ∧ gqRead t n = gqRead s n ∧
      (∀ w : Fin 8, (t.rd .GAL_OP_DATA 0 (16 * p + w)).toNat = leNat (((idleItem (gqKind s n)).drop (4 * w)).take 4))) ∧
  (∀ (q : Requester) (p : Fin 8) (n : Fin 1024) (arg : BitVec 38) (s : State), Safety.calm s →
    Safety.servesWide s q .gallery .GAL_OP 0 p → gqEn s n = true → (gqCons s n).1 = 0 → gqRead s n ≠ gqWrite s n →
    gqReady s n (gqRead s n) (readTake s n) = false →
    ∃ t, exec (.read q p n arg) s = .next t ∧ Safety.answered s t p n .memory ∧
      Safety.changesOnly (fun r _ j => Safety.opRegs p r j) [.staged, .captured] s t) ∧
  (∀ (q : Requester) (p : Fin 8) (n : Fin 1024) (arg : BitVec 38) (s : State), Safety.calm s →
    Safety.servesWide s q .gallery .GAL_OP 0 p → Safety.copiesAgree s →
    gqEn s n = true → (gqCons s n).1 = 0 → (s.queue n).skips = [] →
    ∃ t, exec (.advance q p n arg) s = .next t ∧
      (if arg.toNat % gqEntry s n ≠ 0 ∨ gqWrite s n < gqRead s n + arg.toNat
       then Safety.answered s t p n .range ∧ t.rd .GQ_READ n = s.rd .GQ_READ n
       else Safety.answered s t p n .ok ∧ gqRead t n = gqRead s n + arg.toNat) ∧
      Safety.changesOnly (fun r i j => Safety.opRegs p r j || ((r == .GQ_READ || r == .GQ_STATUS) && i == n.val))
        [.staged, .captured, .queues] s t) ∧
  (∀ (q : Requester) (p : Fin 8) (n : Fin 1024) (arg : BitVec 38) (s : State), Safety.calm s →
    Safety.servesWide s q .gallery .GAL_OP 0 p → Safety.copiesAgree s →
    gqEn s n = true → ((gqCons s n).1 = 0 ∨ (gqCons s n).1 = 5) →
    gqEpochMark s n = false →
    ∃ t, exec (.mark q p n arg) s = .next t ∧ Safety.answered s t p n .ok ∧
      t.rd .GQ_MARK n = BitVec.ofNat 64 (gqRead s n % 2 ^ 63 + 2 ^ 63) ∧
      Safety.changesOnly (fun r i j => Safety.opRegs p r j || (r == .GQ_MARK && i == n.val)) [.staged, .captured, .queues] s t) ∧
  (∀ (q : Requester) (p : Fin 8) (n : Fin 1024) (arg : BitVec 38) (s : State), Safety.calm s →
    Safety.servesWide s q .gallery .GAL_OP 0 p → Safety.copiesAgree s →
    gqEn s n = true → ((gqCons s n).1 = 0 ∨ (gqCons s n).1 = 5) →
    gqEpochMark s n = false → gqKind s n ≠ 2 → (s.queue n).skips = [] →
    ∃ t, exec (.rewind q p n arg) s = .next t ∧
      (match gqMark s n with
      | some m => Safety.answered s t p n .ok ∧ gqRead t n = min m (gqWrite s n)
      | none => Safety.answered s t p n .markLost ∧ gqRead t n = min (gqFree s n) (gqWrite s n)) ∧
      Safety.changesOnly (fun r i j => Safety.opRegs p r j || ((r == .GQ_READ || r == .GQ_STATUS) && i == n.val))
        [.staged, .captured, .queues] s t) ∧
  (∀ (q : Requester) (p : Fin 8) (n : Fin 1024) (arg : BitVec 38) (s : State), Safety.calm s →
    Safety.servesWide s q .gallery .GAL_OP 0 p → Safety.copiesAgree s →
    gqEn s n = true → ((gqCons s n).1 = 0 ∨ (gqCons s n).1 = 5) →
    gqEpochMark s n = false → (s.queue n).skips = [] → gqFree s n ≤ gqRead s n →
    (let target := if arg = 0 then gqRead s n else gqFree s n + arg.toNat
    ∃ t, exec (.release q p n arg) s = .next t ∧
      (if arg.toNat % gqEntry s n ≠ 0 ∨ gqRead s n < target
       then Safety.answered s t p n .range ∧ t.rd .GQ_FREE n = s.rd .GQ_FREE n ∧ t.rd .GQ_MARK n = s.rd .GQ_MARK n
       else Safety.answered s t p n .ok ∧ gqFree t n = target ∧
         (∀ m, gqMark s n = some m → gqMark t n = if m < target then none else some m)) ∧
      Safety.changesOnly (fun r i j => Safety.opRegs p r j ||
        ((r == .GQ_FREE || r == .GQ_MARK || r == .GQ_STATUS) && i == n.val))
        [.staged, .captured, .queues] s t)) ∧
  (∀ (q : Requester) (p : Fin 8) (n : Fin 1024) (arg : BitVec 38) (s : State), Safety.calm s →
    Safety.servesWide s q .gallery .GAL_OP 0 p → Safety.copiesAgree s →
    gqEn s n = true → gqEpochMark s n = true → (gqCons s n).1 = 0 →
    (s.queue n).skips = [] → gqMark s n = none → arg = 0 → gqFree s n + gqRelpend s n ≤ gqRead s n →
    gqRead s n - gqFree s n < 2 ^ 36 → (gqRead s n - gqFree s n) % 16 = 0 →
    ∃ t, exec (.release q p n arg) s = .next t ∧ Safety.answered s t p n .ok ∧ t.rd .GQ_FREE n = s.rd .GQ_FREE n ∧
      gqRelpend t n = gqRead s n - gqFree s n)

/-- The operations of a queue's software producer, and RESET (R188, R199): WRITE_ADV makes what software has written visible,
FLUSH completes the half being filled, RESET empties the queue and counts what it drops as lost. An operation that the queue
does not take answers with its status and changes nothing else (R200). -/
def Obligations.ProducersWriteAndReset : Prop :=
  (∀ (q : Requester) (p : Fin 8) (n : Fin 1024) (arg : BitVec 38) (s : State), Safety.calm s →
    Safety.servesWide s q .gallery .GAL_OP 0 p → Safety.copiesAgree s →
    gqEn s n = true → (gqProd s n).1 = 0 → (gqCons s n).1 ≠ 5 →
    gqPing s n = false → gqKind s n ≠ 2 → (s.queue n).beyond = [] → (s.queue n).skips = [] →
    ∃ t, exec (.writeAdv q p n arg) s = .next t ∧
      (if arg.toNat % gqEntry s n ≠ 0 ∨ (0 < arg.toNat ∧ gqFree s n + gqCap s n < gqWrite s n + arg.toNat)
       then Safety.answered s t p n .range ∧ t.rd .GQ_WRITE n = s.rd .GQ_WRITE n
       else Safety.answered s t p n .ok ∧ t.rd .GQ_WRITE n = s.rd .GQ_WRITE n + BitVec.ofNat 64 arg.toNat ∧
         (0 < arg.toNat → (t.queue n).entries = (s.queue n).entries + arg.toNat / gqEntry s n)) ∧
      Safety.changesOnly (fun r i j => Safety.opRegs p r j || ((r == .GQ_WRITE || r == .GQ_STATUS) && i == n.val))
        [.staged, .captured, .queues] s t) ∧
  (∀ (q : Requester) (p : Fin 8) (n : Fin 1024) (arg : BitVec 38) (s : State), Safety.calm s →
    Safety.servesWide s q .gallery .GAL_OP 0 p → Safety.copiesAgree s →
    gqEn s n = true → (gqProd s n).1 = 0 → (gqCons s n).1 ≠ 5 →
    gqPing s n = true → gqKind s n ≠ 0 → (s.queue n).beyond = [] → (s.queue n).full < gqWrite s n →
    gqWrite s n < (s.queue n).full + gqHalf s n → (s.queue n).full + gqHalf s n < 2 ^ 64 →
    ∃ t, exec (.flush q p n arg) s = .next t ∧ Safety.answered s t p n .ok ∧
      (t.queue n).full = (s.queue n).full + gqHalf s n ∧ gqWrite t n = (s.queue n).full + gqHalf s n ∧
      Safety.changesOnly (fun r i j => Safety.opRegs p r j || ((r == .GQ_WRITE || r == .GQ_READ || r == .GQ_FREE ||
        r == .GQ_STATUS) && i == n.val)) [.staged, .captured, .queues] s t) ∧
  (∀ (q : Requester) (p : Fin 8) (n : Fin 1024) (arg : BitVec 38) (s : State), Safety.calm s →
    Safety.servesWide s q .gallery .GAL_OP 0 p → Safety.copiesAgree s →
    gqEn s n = true → gqKind s n ≠ 2 →
    ∃ t, exec (.reset q p n arg) s = .next t ∧ Safety.answered s t p n .ok ∧ gqFree t n = gqWrite s n ∧
      gqRead t n = gqWrite s n ∧ gqMark t n = none ∧ t.rd .GQ_RELPEND n = 0 ∧
      (let lost := (s.queue n).entries + ((s.queue n).beyond.map (·.entries)).sum
      0 < lost → t.rd .GQ_LOST n = satAdd 32 (s.rd .GQ_LOST n) lost ∧ bit (t.rd .GQ_STATUS n) 1 = true) ∧
      (t.queue n).entries = 0 ∧ (t.queue n).beyond = [] ∧
      Safety.changesOnly (fun r i j => Safety.opRegs p r j || ((r == .GQ_FREE || r == .GQ_READ || r == .GQ_MARK ||
        r == .GQ_RELPEND || r == .GQ_LOST || r == .GQ_STATUS) && i == n.val)) [.staged, .captured, .queues] s t) ∧
  (∀ (q : Requester) (p : Fin 8) (n : Fin 1024) (arg : BitVec 38) (i : Instr) (s : State), Safety.calm s →
    Safety.servesWide s q .gallery .GAL_OP 0 p → gqEn s n = false →
    i ∈ [Instr.read q p n arg, .advance q p n arg, .mark q p n arg, .rewind q p n arg, .release q p n arg,
      .writeAdv q p n arg, .flush q p n arg, .reset q p n arg] →
    ∃ t, exec i s = .next t ∧ Safety.answered s t p n .disabled ∧
      Safety.changesOnly (fun r _ j => Safety.opRegs p r j) [.staged, .captured] s t) ∧
  (∀ (q : Requester) (p : Fin 8) (n : Fin 1024) (arg : BitVec 38) (s : State), Safety.calm s →
    Safety.servesWide s q .gallery .GAL_OP 0 p → gqEn s n = true → (gqCons s n).1 ≠ 0 →
    ∃ t, exec (.read q p n arg) s = .next t ∧ Safety.answered s t p n .owner ∧
      Safety.changesOnly (fun r _ j => Safety.opRegs p r j) [.staged, .captured] s t)

/-- The Gallery engine (R179, R190, R193, R204, R206, R209, R636): a closed record is appended behind the write position and
becomes visible later, or is lost; a stalled producer goes on; the tail cache drains; a position whose two copies differ
resets its queue.
The model's choices in it: logs 68, 70. -/
def Obligations.EngineMovesRecords : Prop :=
  (∀ (p : Fin 40) (r : Rec) (rest : List Rec) (n : Nat) (poison : Bool) (s : State), Safety.calm s → galleryUp s = true →
    (s.port p).closed = r :: rest → queueOfProd s (Safety.capKey p).1 (Safety.capKey p).2 (some r.slot) = some n →
    gateAt (s.queue n) r.stamp = true → gqPing s n = false → (s.queue n).beyond = [] → (s.queue n).skips = [] →
    (let z := 32 + (r.payload.length + 31) / 32 * 32
    let at_ := gqWrite s n
    z ≤ gqCap s n → at_ + z ≤ gqFree s n + gqCap s n → gqReady s n at_ z = true →
    ∃ t, exec (.recordAppend p poison) s = .next t ∧ (t.port p).closed = rest ∧
      (∃ e, (t.queue n).beyond = [e] ∧ e.len = z ∧ e.ready = false) ∧ t.rd .GQ_WRITE n = s.rd .GQ_WRITE n ∧
      (t.queue n).lostBefore = r.truncated ∧
      (∃ flags : Nat, flags.testBit 1 = (s.queue n).lostBefore ∧ flags.testBit 2 = poison ∧
        flags.testBit 3 = (r.excursion || s.hold) ∧ ∀ i, i < z → t.byte (gqBase s n + (at_ + i) % gqCap s n) =
        (recBytes p r (epochNum s (epochAt s.bounds r.stamp).1).toNat flags).getD i 0) ∧
      (∀ a, (∀ i, i < z → a ≠ gqBase s n + (at_ + i) % gqCap s n) → t.byte a = s.byte a) ∧
      Safety.changesOnly (fun r i _ => (r == .GQ_STATUS && i == n) || (poison && Safety.faultOf .gallery r i))
        [.ports, .queues, .mem, .bad] s t)) ∧
  (∀ (p : Fin 40) (r : Rec) (rest : List Rec) (poison : Bool) (s : State), Safety.calm s → galleryUp s = true →
    (s.port p).closed = r :: rest → queueOfProd s (Safety.capKey p).1 (Safety.capKey p).2 (some r.slot) = none →
    ∃ t, exec (.recordAppend p poison) s = .next t ∧ (t.port p).closed = rest ∧
      Safety.changesOnly (fun _ _ _ => false) [.ports] s t) ∧
  (∀ (p : Fin 40) (r : Rec) (rest : List Rec) (n : Nat) (poison : Bool) (s : State), Safety.calm s → galleryUp s = true →
    (s.port p).closed = r :: rest → queueOfProd s (Safety.capKey p).1 (Safety.capKey p).2 (some r.slot) = some n →
    gateAt (s.queue n) r.stamp = true → (s.queue n).beyond = [] →
    gqReady s n (gqWrite s n) (32 + (r.payload.length + 31) / 32 * 32) = false →
    ∃ t, exec (.recordAppend p poison) s = .next t ∧ t.rd .GQ_LOST n = satAdd 32 (s.rd .GQ_LOST n) 1 ∧
      bit (t.rd .GQ_STATUS n) 1 = true ∧ (t.queue n).lostBefore = true ∧
      (s.rd .FAULT_COUNT (pageOf .gallery) = 0 → fld (t.rd .FAULT_REC0 (pageOf .gallery)) 16 16 = 0x0104) ∧
      Safety.changesOnly (fun r i _ => Safety.faultOf .gallery r i || ((r == .GQ_LOST || r == .GQ_STATUS) && i == n))
        [.ports, .queues] s t) ∧
  (∀ (n : Fin 1024) (e : Ext) (s : State), Safety.calm s → Safety.copiesAgree s → galleryUp s = true → gqEn s n = true →
    gqKind s n = 0 →
    gqPing s n = false → (s.queue n).beyond = [e] → (s.queue n).skips = [] → e.ready = false → e.hold = none → e.entries ≠ 0 →
    ∃ t, exec (.recordVisible n) s = .next t ∧ t.rd .GQ_WRITE n = s.rd .GQ_WRITE n + BitVec.ofNat 64 e.len ∧
      (t.queue n).entries = (s.queue n).entries + e.entries ∧ (t.queue n).beyond = [] ∧
      (e.mark = true → gqMark t n = some (gqWrite s n % 2 ^ 63)) ∧
      Safety.changesOnly (fun r i _ => (r == .GQ_WRITE || r == .GQ_STATUS || r == .GQ_MARK) && i == n.val) [.queues] s t) ∧
  (∀ (n : Fin 1024) (s : State), Safety.calm s → galleryUp s = true → gqEn s n = true → (s.queue n).stalled = true →
    (s.queue n).gaps = [] → Safety.nobodyWaits s n →
    ∃ t, exec (.heldProducerResume n) s = .next t ∧ (t.queue n).stalled = false ∧
      Safety.changesOnly (fun _ _ _ => false) [.queues] s t) ∧
  (∀ (n : Fin 1024) (p : Nat) (bs : List Byte) (s : State), Safety.calm s → galleryUp s = true → gqEn s n = true →
    (s.queue n).tail = [(p, bs)] → gqReady s n p bs.length = true → bs.length ≤ gqCap s n →
    (s.queue n).gaps = [] → Safety.nobodyWaits s n →
    ∃ t, exec (.channelWaitResume n) s = .next t ∧ (t.queue n).tail = [] ∧ (t.queue n).stalled = false ∧
      (∀ i, i < bs.length → t.byte (gqBase s n + (p + i) % gqCap s n) = bs.getD i 0) ∧
      (∀ a, (∀ i, i < bs.length → a ≠ gqBase s n + (p + i) % gqCap s n) → t.byte a = s.byte a) ∧
      Safety.changesOnly (fun _ _ _ => false) [.queues, .mem, .bad] s t) ∧
  (∀ (s : State), Safety.calm s → Safety.copiesAgree s →
    ∃ t, exec (.positionCheckPass []) s = .next t ∧ Safety.changesOnly (fun _ _ _ => false) [] s t) ∧
  (∀ (x : PosBad) (s : State), Safety.calm s → Safety.copiesAgree s → galleryUp s = true → gqEn s x.queue = true → x.a ≠ x.b →
    x.later = false → gqKind s x.queue ≠ 2 → (∀ d, d < 4 → x.queue.val ∉ domInputs s d) → s.rd .FAULT_COUNT (pageOf .gallery) = 0 →
    ∃ t, exec (.positionCheckPass [x]) s = .next t ∧ t.rd .GAL_MISMATCH_A = x.a ∧ t.rd .GAL_MISMATCH_B = x.b ∧
      t.rd .GAL_MISMATCH_CNT = satAdd 32 (s.rd .GAL_MISMATCH_CNT) 1 ∧ bit (t.rd .GQ_STATUS x.queue) 2 = true ∧
      t.rd .FAULT_REC0 (pageOf .gallery) = BitVec.ofNat 64 (0x01000000 + x.queue + 4096 * x.pos) ∧
      (x.pos ≠ 0 → gqWrite t x.queue = gqWrite s x.queue) ∧ gqRead t x.queue = gqWrite t x.queue ∧
      gqFree t x.queue = gqWrite t x.queue ∧
      ∀ i, i < 4 → tget 0 (t.queue x.queue).twin i = t.rd (posReg i) x.queue)

/-! Chapter 07: memory channels. -/

/-- A channel's states as software commands them (R222, R226, R227): enabling starts INIT or, with a configuration that breaks
a rule of R222, ends FAILED; disabling goes OFF; RETRAIN, SR_ENTER and SR_EXIT act in their states only.
The model's choices in it: log 9. -/
def Obligations.ChannelsFollowTheirCommands : Prop :=
  (∀ (q : Requester) (c : Fin 8) (s : State), Safety.calm s → Safety.serves s q (.mc c) .BLK_CTRL (pageOf (.mc c)) 0 →
    s.en (.mc c) = false → s.rdf .BLK_CTRL 1 3 (pageOf (.mc c)) = 0 → c.val < 2 ^ nchLog s → mcState s c = 0 →
    mcBroken s c = 0 →
    ∃ t, exec (.channelEnable q c) s = .next t ∧ t.en (.mc c) = true ∧ mcState t c = 1 ∧ mcValid t c = false ∧
      (∀ a, 2 ^ 40 ≤ a → t.byte a = s.byte a) ∧
      Safety.changesOnly (fun r i _ => (r == .BLK_CTRL && i == pageOf (.mc c)) || (r == .MC_STATUS && i == c.val))
        [.captured, .mem, .bad, .power] s t) ∧
  (∀ (q : Requester) (c : Fin 8) (s : State), Safety.calm s → Safety.serves s q (.mc c) .BLK_CTRL (pageOf (.mc c)) 0 →
    s.en (.mc c) = false → s.rdf .BLK_CTRL 1 3 (pageOf (.mc c)) = 0 → c.val < 2 ^ nchLog s → mcState s c = 0 →
    mcBroken s c ≠ 0 → s.rd .FAULT_COUNT (pageOf (.mc c)) = 0 →
    ∃ t, exec (.channelEnable q c) s = .next t ∧ mcState t c = 5 ∧ bit (t.rd .EVT_STATUS (pageOf (.mc c))) 2 = true ∧
      t.rd .FAULT_REC0 (pageOf (.mc c)) = BitVec.ofNat 64 (0x01000000 + mcBroken s c)) ∧
  (∀ (q : Requester) (c : Fin 8) (s : State), Safety.calm s → Safety.serves s q (.mc c) .BLK_CTRL (pageOf (.mc c)) 0 →
    s.en (.mc c) = true ∨ mcState s c = 4 → s.rdf .BLK_CTRL 1 3 (pageOf (.mc c)) = 0 →
    ∃ t, exec (.channelDisable q c) s = .next t ∧ t.en (.mc c) = false ∧ mcState t c = 0 ∧ mcValid t c = false ∧
      (∀ a, 2 ^ 40 ≤ a → t.byte a = s.byte a) ∧
      Safety.changesOnly (fun r i _ => (r == .BLK_CTRL && i == pageOf (.mc c)) || (r == .MC_STATUS && i == c.val))
        [.captured, .mem, .bad, .power] s t) ∧
  (∀ (q : Requester) (c : Fin 8) (s : State), Safety.calm s → Safety.serves s q (.mc c) .MC_CMD c 0 →
    (∃ t, exec (.mcRetrain q c) s = .next t ∧ mcState t c = (if mcState s c = 3 then 2 else mcState s c) ∧
      (mcState s c = 3 → (t.mc c).short = false) ∧
      Safety.changesOnly (fun r i _ => r == .MC_STATUS && i == c.val) [.captured, .mcs] s t) ∧
    (∃ t, exec (.srEnter q c) s = .next t ∧ mcState t c = (if mcState s c = 3 then 4 else mcState s c) ∧
      Safety.changesOnly (fun r i _ => r == .MC_STATUS && i == c.val) [.captured] s t) ∧
    (∃ t, exec (.srExit q c) s = .next t ∧
      mcState t c = (if mcState s c = 4 ∧ s.en (.mc c) = true then 2 else mcState s c) ∧
      (mcState s c = 4 → s.en (.mc c) = true → (t.mc c).short = true) ∧
      Safety.changesOnly (fun r i _ => r == .MC_STATUS && i == c.val) [.captured, .mcs] s t) ∧
    (∃ t, exec (.mcLoopStart q c) s = .next t ∧
      (if mcState s c = 3 ∧ s.rdf .LOOP_CTRL 0 3 (pageOf (.mc c)) ≠ 0
       then bit (t.rd .MC_STATUS c) 5 = true ∧ t.rd .MC_LOOP_STATUS c = 0
       else t.rd .MC_STATUS c = s.rd .MC_STATUS c ∧ t.rd .MC_LOOP_STATUS c = s.rd .MC_LOOP_STATUS c) ∧
      Safety.changesOnly (fun r i _ => (r == .MC_STATUS || r == .MC_LOOP_STATUS) && i == c.val) [.captured] s t))

/-- What a channel finds (R227, R229 to R235, R238): the end of initialisation and of training, a CA parity retry, a tracking
pass, a new arbitration window and what it serves, a scrub burst, the end of a loop-back run; and where an address of DDR4
lies (R223, R224).
The model's choices in it: logs 136, 137. -/
def Obligations.ChannelsReportWhatTheyFind : Prop :=
  (∀ (c : Fin 8) (s : State), Safety.calm s → mcState s c = 1 → s.live (.mc c) = true →
    ∃ t, exec (.channelInitDone c) s = .next t ∧ mcState t c = 2 ∧ (t.mc c).short = false ∧
      Safety.changesOnly (fun r i _ => r == .MC_STATUS && i == c.val) [.mcs] s t) ∧
  (∀ (c : Fin 8) (dq : List (Fin 72 × BitVec 25)) (s : State), Safety.calm s → mcState s c = 2 → s.live (.mc c) = true →
    (dq.map (·.1)).Nodup →
    ∃ t, exec (.trainingDone c (.pass dq)) s = .next t ∧ mcState t c = 3 ∧ mcValid t c = true ∧
      bit (t.rd .EVT_STATUS (pageOf (.mc c))) 2 = true ∧ (∀ x, x ∈ dq → if (s.mc c).short = true
        then t.rdf .MC_TRAIN 0 18 c x.1 = fld x.2 0 18 ∧ t.rdf .MC_TRAIN 18 46 c x.1 = s.rdf .MC_TRAIN 18 46 c x.1
        else t.rd .MC_TRAIN c x.1 = x.2.setWidth 64) ∧
      Safety.changesOnly (fun r i _ => Safety.eventOf (.mc c) r i || ((r == .MC_STATUS || r == .MC_TRAIN) && i == c.val))
        [] s t) ∧
  (∀ (c : Fin 8) (step : Fin 5) (rank : Fin 16) (s : State), Safety.calm s → mcState s c = 2 → s.live (.mc c) = true →
    trains s c step = true → rank.val < mcRanks s c →
    ∃ t, exec (.trainingDone c (.fail step rank)) s = .next t ∧ mcState t c = 5 ∧
      (s.rd .FAULT_COUNT (pageOf (.mc c)) = 0 →
        t.rd .FAULT_REC0 (pageOf (.mc c)) = BitVec.ofNat 64 (0x01010001 + step + 256 * rank)) ∧
      Safety.changesOnly (fun r i _ => Safety.eventOf (.mc c) r i || Safety.faultOf (.mc c) r i ||
        (r == .MC_STATUS && i == c.val)) [] s t) ∧
  (∀ (c : Fin 8) (fails : Bool) (s : State), Safety.calm s → mcState s c = 3 → s.live (.mc c) = true →
    bit (s.rd .MC_CFG c) 8 = true →
    ∃ t, exec (.caparRetry c fails) s = .next t ∧ t.rd .MC_CAPAR_CNT c = satAdd 32 (s.rd .MC_CAPAR_CNT c) 1 ∧
      (if fails = true ∧ 2 ≤ (s.mc c).caparFails
       then mcState t c = 5 ∧ (t.mc c).caparFails = 0 ∧ bit (t.rd .EVT_STATUS (pageOf (.mc c))) 2 = true
       else mcState t c = 3 ∧ (t.mc c).caparFails = if fails then (s.mc c).caparFails + 1 else 0) ∧
      Safety.changesOnly (fun r i _ => Safety.eventOf (.mc c) r i || Safety.faultOf (.mc c) r i ||
        ((r == .MC_STATUS || r == .MC_CAPAR_CNT) && i == c.val)) [.mcs] s t) ∧
  (∀ (c : Fin 8) (i : Fin 72) (d : BitVec 9) (s : State), Safety.calm s → mcState s c = 3 → s.live (.mc c) = true →
    ∃ t, exec (.trackingPass c [(i, d)] (bit (s.rd .MC_STATUS c) 4)) s = .next t ∧
      (if d.toNat ≤ s.rdf .MC_TRAIN 0 9 c i + 8 ∧ s.rdf .MC_TRAIN 0 9 c i ≤ d.toNat + 8
       then t.rdf .MC_TRAIN 0 9 c i = d.toNat ∧ t.rd .FAULT_COUNT (pageOf (.mc c)) = s.rd .FAULT_COUNT (pageOf (.mc c))
       else t.rd .MC_TRAIN c i = s.rd .MC_TRAIN c i ∧ bit (t.rd .EVT_STATUS (pageOf (.mc c))) 2 = true ∧
         (s.rd .FAULT_COUNT (pageOf (.mc c)) = 0 →
           t.rd .FAULT_REC0 (pageOf (.mc c)) = BitVec.ofNat 64 (0x01040000 + i))) ∧
      Safety.changesOnly (fun r k j => Safety.eventOf (.mc c) r k || Safety.faultOf (.mc c) r k ||
        (r == .MC_TRAIN && k == c.val && j == i.val)) [.mcs] s t) ∧
  (∀ (c : Fin 8) (x : List (McAccess × Nat)) (s : State), Safety.calm s → s.live (.mc c) = true → mcState s c = 3 →
    s.rdf .MC_SHARE 0 8 c + s.rdf .MC_SHARE 8 8 c ≤ 240 →
    (let w := plusBursts (s.mc c).waiting (classBursts x)
    let cap := s.rdf .MC_SHARE 0 8 c
    let spill := s.rdf .MC_SHARE 8 8 c
    ∃ t, exec (.arbitrationWindow ⟨c, x⟩) s = .next t ∧ (t.mc c).winCap = cap ∧ (t.mc c).winSpill = spill ∧
      plusBursts (t.mc c).served (t.mc c).waiting = w ∧ allBursts (t.mc c).served ≤ 256 ∧
      min w.capture cap ≤ (t.mc c).served.capture ∧ min w.spill spill ≤ (t.mc c).served.spill ∧
      (t.mc c).served.maint = min w.maint (256 - cap - spill) ∧
      (allBursts (t.mc c).served < 256 → (t.mc c).waiting.capture = 0 ∧ (t.mc c).waiting.spill = 0 ∧
        otherBursts (t.mc c).waiting = 0) ∧ Safety.changesOnly (fun _ _ _ => false) [.mcs] s t)) ∧
  (∀ (c : Fin 8) (e : Ecc) (s : State), Safety.calm s → mcState s c = 3 → s.live (.mc c) = true →
    bit (s.rd .MC_SCRUB_CTRL c) 0 = true → (s.mc c).scrubAt + 1 < mcGiB s c * 2 ^ 24 →
    (let at_ := ddrGlobal s c (64 * (s.mc c).scrubAt)
    let found := if badIn s at_ 64 then .uncorrectable else burstEcc s c e
    ∃ t, exec (.scrubBurst c e) s = .next t ∧ (t.mc c).scrubAt = (s.mc c).scrubAt + 1 ∧
      (found = .ok → t.rd .EVT_STATUS (pageOf (.mc c)) = s.rd .EVT_STATUS (pageOf (.mc c))) ∧
      (∀ l, found = .corrected l → t.rd .MC_CE_CNT c = satAdd 32 (s.rd .MC_CE_CNT c) l.length ∧
          t.rdf .MC_ERR_INFO 0 5 c = l.getLastD 0 ∧
          t.rd .MC_CE_ADDR c = BitVec.ofNat 64 (64 * (s.mc c).scrubAt) ∧ bit (t.rd .EVT_STATUS (pageOf (.mc c))) 0 = true) ∧
      (found = .uncorrectable → badIn t at_ 64 = true ∧ t.rd .MC_UE_CNT c = satAdd 32 (s.rd .MC_UE_CNT c) 1 ∧
          (if s.rd .MC_UE_CNT c = 0 then t.rd .MC_UE_ADDR c = BitVec.ofNat 64 (64 * (s.mc c).scrubAt)
           else t.rd .MC_UE_ADDR c = s.rd .MC_UE_ADDR c ∧ bit (t.rd .MC_ERR_INFO c) 16 = true) ∧
          bit (t.rd .EVT_STATUS (pageOf (.mc c))) 1 = true) ∧
      Safety.changesOnly (fun r i _ => Safety.eventOf (.mc c) r i || ((r == .MC_CE_CNT || r == .MC_CE_ADDR || r == .MC_ERR_INFO ||
        r == .MC_UE_CNT || r == .MC_UE_ADDR || r == .MC_SCRUB_STATUS) && i == c.val)) [.mcs, .bad] s t)) ∧
  (∀ (c : Fin 8) (s : State), Safety.calm s → mcState s c = 3 → s.live (.mc c) = true →
    bit (s.rd .MC_SCRUB_CTRL c) 0 = true → (s.mc c).scrubAt + 1 = max 1 (mcGiB s c * 2 ^ 24) →
    ∃ t, exec (.scrubBurst c .ok) s = .next t ∧ (t.mc c).scrubAt = 0 ∧
      t.rdf .MC_SCRUB_STATUS 0 16 c = min (s.rdf .MC_SCRUB_STATUS 0 16 c + 1) 0xFFFF ∧
      bit (t.rd .EVT_STATUS (pageOf (.mc c))) 3 = true) ∧
  (∀ (c : Fin 8) (dq : Option (Fin 72)) (fails : Nat) (s : State), Safety.calm s → bit (s.rd .MC_STATUS c) 5 = true →
    s.up (.mc c) = true →
    ∃ t, exec (.mcLoopDone c dq fails) s = .next t ∧ bit (t.rd .MC_STATUS c) 5 = false ∧
      bit (t.rd .MC_LOOP_STATUS c) 0 = true ∧ bit (t.rd .MC_LOOP_STATUS c) 1 = decide (fails ≠ 0) ∧
      t.rdf .MC_LOOP_STATUS 8 8 c = (match dq with
        | some i => i.val
        | none => 0xFF) ∧
      t.rdf .MC_LOOP_STATUS 16 16 c = min fails 0xFFFF ∧
      Safety.changesOnly (fun r i _ => (r == .MC_STATUS || r == .MC_LOOP_STATUS) && i == c.val) [] s t) ∧
  (∀ (s : State) (c x : Nat), c < 2 ^ nchLog s → ddrRoute s (ddrGlobal s c x) = (c, x)) ∧
  (∀ (s : State) (c x y : Nat), dramOf s c x = dramOf s c y → x = y)

/-! Chapters 08 to 10: the Meadow. -/

/-- A token that reaches its FU port (R253, R257, R258, R314 to R319) waits behind the head of its channel buffer, or for room
in it; at the head it completes a one-operand firing, is discarded as stray, or goes into the hall and completes its match. A
parity error found at the port is recorded (R245). -/
def Obligations.TokensReachTheirPorts : Prop :=
  (∀ (t : Fin 48) (src : Fin 141) (k : Sent) (s : State), Safety.calm s → Safety.arrives s t src k →
    (portOf s k.tile (Safety.portAt k)).head ≠ .fresh → (portOf s k.tile (Safety.portAt k)).waiting = [] →
    (portOf s k.tile (Safety.portAt k)).buf.length < 4 →
    ∃ u, exec (.tokenArrival t src .good none) s = .next u ∧
      (portOf u k.tile (Safety.portAt k)).buf = (portOf s k.tile (Safety.portAt k)).buf ++ [k.tok] ∧
      tget [] (u.tile t).sent src.val = (tget [] (s.tile t).sent src.val).drop 1 ∧
      Safety.changesOnly (fun _ _ _ => false) [.tiles] s u) ∧
  (∀ (t : Fin 48) (src : Fin 141) (k : Sent) (s : State), Safety.calm s → Safety.arrives s t src k →
    4 ≤ (portOf s k.tile (Safety.portAt k)).buf.length → (portOf s k.tile (Safety.portAt k)).head ≠ .fresh →
    (portOf s k.tile (Safety.portAt k)).waiting.contains src.val = false →
    ∃ u, exec (.tokenArrival t src .good none) s = .next u ∧
      (portOf u k.tile (Safety.portAt k)).waiting = (portOf s k.tile (Safety.portAt k)).waiting ++ [src.val] ∧
      (portOf u k.tile (Safety.portAt k)).buf = (portOf s k.tile (Safety.portAt k)).buf ∧
      (u.tile t).sent = (s.tile t).sent ∧ Safety.changesOnly (fun _ _ _ => false) [.tiles] s u) ∧
  (∀ (t : Fin 48) (src : Fin 141) (k : Sent) (s : State), Safety.calm s → Safety.arrives s t src k →
    portOf s k.tile (Safety.portAt k) = {} → cOp (Safety.wordFor s k) ≠ 0 →
    cSel (Safety.wordFor s k) k.port = 1 → cPorts (Safety.wordFor s k) = 1 →
    ∃ u, exec (.tokenArrival t src .good none) s = .next u ∧
      (portOf u k.tile (Safety.portAt k)).head = .ready (remapOf s k.tile k.tok.ctx) (some k.tok) none none ∧
      (portOf u k.tile (Safety.portAt k)).buf = [k.tok] ∧ Safety.changesOnly (fun _ _ _ => false) [.tiles] s u) ∧
  (∀ (t : Fin 48) (src : Fin 141) (k : Sent) (s : State), Safety.calm s → Safety.arrives s t src k → k.tile < 48 →
    portOf s k.tile (Safety.portAt k) = {} → cOp (Safety.wordFor s k) = 0 →
    ∃ u, exec (.tokenArrival t src .good none) s = .next u ∧ (portOf u k.tile (Safety.portAt k)).buf = [] ∧
      u.rd .TILE_STRAY_CNT k.tile = satAdd 32 (s.rd .TILE_STRAY_CNT k.tile) 1 ∧
      u.rd .TILE_CG_COUNT (portTile (creditGroup k.tok.tag)) (creditGroup k.tok.tag % 4) =
        BitVec.ofNat 64 (toBits 32 (creditCount s (creditGroup k.tok.tag) - 1)) ∧
      bit (u.rd .EVT_STATUS (pageOf (tileB k.tile))) 0 = true ∧
      Safety.changesOnly (fun r i j => Safety.eventOf (tileB k.tile) r i || Safety.faultOf (tileB k.tile) r i ||
        (r == .TILE_STRAY_CNT && i == k.tile) || (r == .TILE_CG_COUNT && i == portTile (creditGroup k.tok.tag) &&
          j == creditGroup k.tok.tag % 4)) [.tiles] s u) ∧
  (∀ (t : Fin 48) (src : Fin 141) (k : Sent) (w : Nat) (ws : List Nat) (s : State), Safety.calm s → Safety.arrives s t src k →
    portOf s k.tile (Safety.portAt k) = {} → k.tok.epoch = (s.tile k.tile).epoch → cOp (Safety.wordFor s k) ≠ 0 →
    k.port < 2 → cSel (Safety.wordFor s k) k.port = 1 → cPorts (Safety.wordFor s k) = 2 → spillEn s k.tile = false →
    findWay (s.tile k.tile) (hallIndex s k.tile k.fu k.tok) k.fu k.tok (1 - k.port) = none →
    freeWays (s.tile k.tile) (hallIndex s k.tile k.fu k.tok) = w :: ws →
    ∃ u, exec (.tokenArrival t src .good none) s = .next u ∧
      (u.tile k.tile).way w = .entry { fu := k.fu, kind := k.port, one := k.tok } ∧
      (portOf u k.tile (Safety.portAt k)).buf = [] ∧
      Safety.changesOnly (fun r i _ => (r == .HALL_DUP_CNT || r == .HALL_ONCHIP_HWM) && i == k.tile) [.tiles] s u) ∧
  (∀ (t : Fin 48) (src : Fin 141) (k : Sent) (w : Nat) (e : HEntry) (s : State), Safety.calm s → Safety.arrives s t src k →
    portOf s k.tile (Safety.portAt k) = {} → k.tok.epoch = (s.tile k.tile).epoch → cOp (Safety.wordFor s k) ≠ 0 →
    k.port < 2 → cSel (Safety.wordFor s k) k.port = 1 → cPorts (Safety.wordFor s k) = 2 →
    findWay (s.tile k.tile) (hallIndex s k.tile k.fu k.tok) k.fu k.tok (1 - k.port) = some (w, e) →
    ∃ u, exec (.tokenArrival t src .good none) s = .next u ∧
      (portOf u k.tile (Safety.portAt k)).head = (if k.port = 0
        then .ready (remapOf s k.tile k.tok.ctx) (some k.tok) (some e.one) none
        else .ready (remapOf s k.tile k.tok.ctx) (some e.one) (some k.tok) none) ∧
      (u.tile k.tile).way w = .free ∧ u.rd .HALL_MATCH_CNT k.tile = satAdd 64 (s.rd .HALL_MATCH_CNT k.tile) 1 ∧
      Safety.changesOnly (fun r i _ => r == .HALL_MATCH_CNT && i == k.tile) [.tiles] s u) ∧
  (∀ (t : Fin 48) (src : Fin 141) (k : Sent) (s : State), Safety.calm s → Safety.arrives s t src k →
    s.rd .FAULT_COUNT (pageOf (.tile t)) = 0 →
    ∃ u, exec (.tokenArrival t src .port none) s = .next u ∧
      fld (u.rd .FAULT_REC0 (pageOf (.tile t))) 16 16 = 0x0101 ∧ bit (u.rd .EVT_STATUS (pageOf .epochs)) 0 = true)

/-- A firing (R252, R256, R258 to R260, R290 to R301): the FU's results set out through its output registers, a divider's and a
memory response's through their own sources, and the operand leaves its channel buffer; an operand whose context a load has
emptied is a stray.
The model's choices in it: logs 17, 92. -/
def Obligations.OperationsFire : Prop :=
  (∀ (t : Fin 48) (f : Fin 64) (p : Fin 3) (x : Nat) (a b c : Option Token) (k : Token) (s : State), Safety.calm s →
    tileRuns s t = true → portOf s t (3 * f + p) = { buf := [k], head := .ready x a b c, waiting := [] } →
    issueWaits s t f = false → fits (ctxWord s t f x) a b c = true →
    cOp (ctxWord s t f x) < 0x28 → Safety.outputsGo t (ctxWord s t f x) → outputsEmpty s t f (ctxWord s t f x) = true →
    inflight s t < flightCap t →
    (let g := firingOf (ctxWord s t f x) f x (freeFlight (s.tile t) (flightCap t)) a b c
    let r := fuAlu g
    ∃ u, exec (.fuFire t f p .ok) s = .next u ∧ portOf u t (3 * f + p) = {} ∧
      u.rd .TILE_FIRE_CNT t = satAdd 64 (s.rd .TILE_FIRE_CNT t) 1 ∧
      (∀ o, outOn g.word o r.p = true → o < 2 → tget [] (u.tile t).sent (2 * f.val + o) =
        [sentTo t g.word o (resultToken g r.r r.r2 (resultTag g) (errOf g r) false o) g.op]) ∧
      (r.v = true → bit (u.rd .CTX_WORD t ((f * 16 + x) * 4)) 0 = true) ∧
      (r.dz = true → bit (u.rd .CTX_WORD t ((f * 16 + x) * 4)) 1 = true) ∧
      Safety.changesOnly (fun r i j => ((r == .TILE_FIRE_CNT || r == .TILE_INFLIGHT_HWM ||
        (r == .CTX_WORD && j == (f * 16 + x) * 4)) && i == t.val) || r == .TILE_CG_COUNT) [.tiles] s u)) ∧
  (∀ (t : Fin 48) (f : Fin 64) (p : Fin 3) (e : Ecc) (s : State), Safety.calm s → inflight s t = flightCap t ∨
    issueWaits s t f = true →
    Safety.headFits s t f p = true →
    ∃ u, exec (.fuFire t f p e) s = .next u ∧ Safety.changesOnly (fun _ _ _ => false) [] s u) ∧
  (∀ (t : Fin 48) (f : Fin 64) (x : Nat) (k : Token) (e : Ecc) (s : State), Safety.calm s → tileRuns s t = true →
    portOf s t (3 * f) = { buf := [k], head := .ready x (some k) none none, waiting := [] } →
    issueWaits s t f = false → cOp (ctxWord s t f x) = 0 →
    ∃ u, exec (.fuFire t f 0 e) s = .next u ∧ portOf u t (3 * f) = {} ∧
      u.rd .TILE_STRAY_CNT t = satAdd 32 (s.rd .TILE_STRAY_CNT t) 1 ∧ u.rd .TILE_FIRE_CNT t = s.rd .TILE_FIRE_CNT t ∧
      (u.tile t).sent = (s.tile t).sent) ∧
  (∀ (t : Fin 48) (d : Fin 4) (f : Firing) (s : State), Safety.calm s → tget none (s.tile t).divs d = some f →
    Safety.outputsGo t f.word →
    ∃ u, exec (.dividerResult t d false) s = .next u ∧ tget none (u.tile t).divs d = (s.tile t).divWait.head? ∧
      (u.tile t).divWait = (s.tile t).divWait.drop 1 ∧
      tget [] (u.tile t).sent (136 + d.val) = Safety.joined (tget [] (s.tile t).sent (136 + d.val))
        (Safety.results t f (fuAlu f).r (fuAlu f).r2 (fuAlu f).p f.tag (errOf f (fuAlu f)) false) ∧
      Safety.changesOnly (fun _ _ _ => false) [.tiles] s u) ∧
  (∀ (t : Fin 48) (f : Firing) (l : List Firing) (e : Ecc) (v : Nat) (s : State), Safety.calm s → (s.tile t).mems = f :: l →
    0 < s.rdf .TILE_MEM_CFG 0 7 t → f.lost = false → f.gone = false → s.asleep = false → requesterOn s (.tileMem t) = true →
    Safety.outputsGo t f.word → memAccess s t f e = (s, .ok, v) →
    ∃ u, exec (.memoryOpResponse t 0 e) s = .next u ∧ (u.tile t).mems = l ∧
      tget [] (u.tile t).sent 140 = Safety.joined (tget [] (s.tile t).sent 140)
        (Safety.results t f (BitVec.ofNat 32 v) 0 true f.tag false false) ∧
      Safety.changesOnly (fun r _ _ => r == .TILE_CG_COUNT) [.tiles] s u) ∧
  (∀ (t : Fin 48) (f : Firing) (l : List Firing) (e : Ecc) (v : Nat) (s : State), Safety.calm s → (s.tile t).mems = f :: l →
    0 < s.rdf .TILE_MEM_CFG 0 7 t → f.lost = false → f.gone = false → s.asleep = false → requesterOn s (.tileMem t) = true →
    Safety.outputsGo t f.word → memAccess s t f e = (s, .addressError, v) →
    ∃ u, exec (.memoryOpResponse t 0 e) s = .next u ∧ (u.tile t).mems = l ∧
      bit (u.rd .CTX_WORD t ((f.fu * 16 + f.pctx) * 4)) 3 = true ∧
      tget [] (u.tile t).sent 140 = Safety.joined (tget [] (s.tile t).sent 140)
        (Safety.results t f 0 0 false f.tag true false)) ∧
  (∀ (t : Fin 48) (f : Firing) (l : List Firing) (e : Ecc) (v : Nat) (x s : State), (s.tile t).mems = f :: l →
    0 < s.rdf .TILE_MEM_CFG 0 7 t → f.lost = false → f.gone = false → s.asleep = false → requesterOn s (.tileMem t) = true →
    memAccess s t f e = (x, .noAnswer, v) → Safety.calm x → x.tile t = s.tile t →
    ∃ u, exec (.memoryOpResponse t 0 e) s = .next u ∧ (u.tile t).mems = { f with lost := true } :: l ∧
      (u.tile t).sent = (s.tile t).sent ∧ Safety.changesOnly (fun _ _ _ => false) [.tiles] x u)

/-- Entry and exit ports (R247, R267 to R271): admission takes a credit, a port without credit holds its head, a token for
another tile goes along its row, then its column to that tile's express input where nothing is in its way, an exit port stores
what arrives for the epoch it belongs to, or holds the token's source; a port that is disabled discards its store.
The model's choices in it: log 138. -/
def Obligations.ArrayPortsAdmitAndAccept : Prop :=
  (∀ (n : Fin 64) (k : Token) (l : List Token) (s : State), Safety.calm s → portStands s n = false →
    bit (epCfg s n) 1 = false → tget [] s.hthOut n.val = k :: l → admits s n k = true →
    fld (epCfg s n) 8 6 = portTile n →
    ∃ u, exec (.entryAdmit n) s = .next u ∧ tget [] u.hthOut n.val = l ∧
      u.rd .TILE_EP_ADMIT (portTile n) (n % 4) = satAdd 32 (s.rd .TILE_EP_ADMIT (portTile n) (n % 4)) 1 ∧
      u.rd .TILE_CG_COUNT (portTile (creditGroup k.tag)) (creditGroup k.tag % 4) =
        BitVec.ofNat 64 (toBits 32 (creditCount s (creditGroup k.tag) + 1)) ∧
      tget [] (u.tile (portTile n)).sent (132 + n % 4) = Safety.joined (tget [] (s.tile (portTile n)).sent (132 + n % 4))
        [{ tok := { k with epoch := epochNow s }, kind := 3, tile := fld (epCfg s n) 8 6, fu := fld (epCfg s n) 14 6,
           port := fld (epCfg s n) 20 2, frm := portTile n }] ∧
      Safety.changesOnly (fun r i j => (r == .TILE_EP_ADMIT && i == portTile n && j == n % 4) || (r == .TILE_CG_COUNT &&
        i == portTile (creditGroup k.tag) && j == creditGroup k.tag % 4)) [.hthOut, .tiles] s u) ∧
  (∀ (n : Fin 64) (k : Token) (l : List Token) (s : State), Safety.calm s → bit (epCfg s n) 1 = false →
    tget [] s.hthOut n.val = k :: l → bit (epCfg s n) 2 = false → creditFree s (creditGroup k.tag) = false →
    ∃ u, exec (.entryAdmit n) s = .next u ∧ Safety.changesOnly (fun _ _ _ => false) [] s u) ∧
  (∀ (n : Fin 64) (k : Token) (l : List Token) (s : State), Safety.calm s → portStands s n = false →
    bit (epCfg s n) 1 = false → tget [] s.hthOut n.val = k :: l → admits s n k = true → sentCount s = 0 →
    (∀ c, c < 8 → columnOn s c = true) → (∀ p, waveHolds s (epochNow s) p = false) → fld (epCfg s n) 8 6 < 48 →
      fld (epCfg s n) 8 6 ≠ portTile n →
    (let d := fld (epCfg s n) 8 6
    ∃ u, exec (.entryAdmit n) s = .next u ∧ tget [] u.hthOut n.val = l ∧ sentCount u = 1 ∧
      tget [] (u.tile d).sent (128 + expressFrom (portTile n) d) =
        [{ tok := { k with epoch := epochNow s }, kind := 3, tile := d, fu := fld (epCfg s n) 14 6,
           port := fld (epCfg s n) 20 2, frm := portTile n }])) ∧
  (∀ (t : Fin 48) (src : Fin 141) (k : Sent) (s : State), Safety.calm s → Safety.leaves s t src k →
    tget [] (s.tile t).exitWait (k.fu % 4) = [] → s.rdf .TILE_XP_CFG 0 2 t (k.fu % 4) = 1 →
    failedEpoch s (tileDomain s t) k.tok.epoch = false → (exitStore s k.fu).length < 512 →
    ∃ u, exec (.exitAccept t ⟨src, .good⟩) s = .next u ∧
      exitStore u k.fu = releasedFirst (exitStore s k.fu ++ [(k.tok, holdFor s (tileDomain s t) k.tok.epoch)]) ∧
      u.rd .TILE_CG_COUNT (portTile (creditGroup k.tok.tag)) (creditGroup k.tok.tag % 4) =
        BitVec.ofNat 64 (toBits 32 (creditCount s (creditGroup k.tok.tag) - 1)) ∧
      tget [] (u.tile t).sent src.val = (tget [] (s.tile t).sent src.val).drop 1 ∧
      Safety.changesOnly (fun r i j => r == .TILE_CG_COUNT && i == portTile (creditGroup k.tok.tag) &&
        j == creditGroup k.tok.tag % 4) [.tiles] s u) ∧
  (∀ (t : Fin 48) (src : Fin 141) (k : Sent) (s : State), Safety.calm s → Safety.leaves s t src k →
    tget [] (s.tile t).exitWait (k.fu % 4) = [] → s.rdf .TILE_XP_CFG 0 2 t (k.fu % 4) = 1 →
    failedEpoch s (tileDomain s t) k.tok.epoch = false → 512 ≤ (exitStore s k.fu).length →
    ∃ u, exec (.exitAccept t ⟨src, .good⟩) s = .next u ∧ exitStore u k.fu = exitStore s k.fu ∧ (u.tile t).sent = (s.tile t).sent ∧
      tget [] (u.tile t).exitWait (k.fu % 4) = [src.val] ∧ Safety.changesOnly (fun _ _ _ => false) [.tiles] s u) ∧
  (∀ (q : Requester) (n : Fin 64) (s : State), Safety.calm s →
    Safety.serves s q (tileB (portTile n)) .TILE_XP_CFG (portTile n) (n % 4) →
      bit (s.rd .TILE_XP_CFG (portTile n) (n % 4)) 0 = true →
    tget [] (s.tile (portTile n)).exitWait (n % 4) = [] →
    ∃ u, exec (.exitPortDisable q n) s = .next u ∧ bit (u.rd .TILE_XP_CFG (portTile n) (n % 4)) 0 = false ∧
      exitStore u n = [] ∧
      (exitStore s n = [] ∨ bit (u.rd .EVT_STATUS (pageOf (tileB (portTile n)))) 0 = true) ∧
      Safety.changesOnly (fun r i j => Safety.eventOf (tileB (portTile n)) r i || Safety.faultOf (tileB (portTile n)) r i ||
        (r == .TILE_XP_CFG && i == portTile n && j == n % 4) || (r == .TILE_STRAY_CNT && i == portTile n))
        [.captured, .tiles, .discOut] s u)

/-- Tiles (R248, R273 to R275, R322, R329, R471): a remap is armed and cancelled, a tile pauses, a marker that passes closes
the tile's epoch, swaps an armed map in and takes the snapshot.
The model's choices in it: logs 87, 88, 141. -/
def Obligations.TilesFollowTheirCommands : Prop :=
  (∀ (q : Requester) (t : Fin 48) (s : State), Safety.calm s → Safety.serves s q (.tile t) .TILE_REMAP_CTRL t 0 →
    ldrCovers s t = false →
    (∃ u, exec (.remapArm q t) s = .next u ∧ bit (u.rd .TILE_REMAP_CTRL t) 0 = true ∧ (u.tile t).armAt = epochNow s ∧
      Safety.changesOnly (fun r i _ => r == .TILE_REMAP_CTRL && i == t.val) [.captured, .tiles] s u) ∧
    (∃ u, exec (.remapCancel q t) s = .next u ∧ bit (u.rd .TILE_REMAP_CTRL t) 0 = false ∧
      Safety.changesOnly (fun r i _ => r == .TILE_REMAP_CTRL && i == t.val) [.captured] s u)) ∧
  (∀ (q : Requester) (t : Fin 48) (s : State), Safety.calm s → Safety.serves s q (.tile t) .TILE_REMAP_CTRL t 0 →
    ldrCovers s t = true → s.rd .FAULT_COUNT (pageOf (.tile t)) = 0 →
    ∃ u, exec (.remapArm q t) s = .next u ∧ fld (u.rd .FAULT_REC0 (pageOf (.tile t))) 16 16 = 2 ∧
      Safety.changesOnly (fun r i _ => Safety.faultOf (.tile t) r i) [.captured] s u) ∧
  (∀ (q : Requester) (t : Fin 48) (v : Word) (s : State), Safety.calm s → Safety.serves s q (.tile t) .TILE_CTRL t 0 →
    ∃ u, exec (.tilePause q t v) s = .next u ∧ bit (u.rd .TILE_CTRL t) 0 = bit v 0 ∧ (bit v 0 = true → tileRuns u t = false) ∧
      Safety.changesOnly (fun r i _ => r == .TILE_CTRL && i == t.val) [.captured] s u) ∧
  (∀ (t : Fin 48) (late : Bool) (s : State), Safety.calm s → (s.tile t).epoch < epochNow s → frozen s (tileDomain s t) = false →
    bit (s.rd .TILE_CTRL t) 0 = false → mayCome s (s.tile t).epoch (fun _ k => k.toTile t) = false →
    nextHop s = none → (s.tile t).ports = [] → (s.tile t).ways = [] →
    (s.tile t).stamps = [] → (s.tile t).hi ≤ (s.tile t).epoch → (s.domain (tileDomain s t)).floor ≤ (s.tile t).epoch →
    ∃ u, exec (.tileMarkerPass ⟨t, late⟩) s = .next u ∧ (u.tile t).epoch = (s.tile t).epoch + 1 ∧
      (u.tile t).limit = s.rdf .HALL_CTRL 0 8 t ∧
      (∃ x, (u.tile t).snaps = (s.tile t).snaps ++ [x] ∧ x.epoch = (s.tile t).epoch ∧ x.image = [] ∧
        x.map = u.rd .TILE_REMAP_ACT t) ∧
      (if bit (s.rd .TILE_REMAP_CTRL t) 0 = true ∧ ¬ (late = true ∧ (s.tile t).epoch < (s.tile t).armAt)
       then u.rd .TILE_REMAP_ACT t = s.rd .TILE_REMAP_NEXT t ∧ bit (u.rd .TILE_REMAP_CTRL t) 0 = false
       else u.rd .TILE_REMAP_ACT t = s.rd .TILE_REMAP_ACT t) ∧
      Safety.changesOnly (fun r i _ => (r == .TILE_REMAP_ACT || r == .TILE_REMAP_CTRL) && i == t.val) [.tiles] s u)

/-- Spill and stalls (R319 to R330, R334): a region is accepted or refused, its fill ends, a deep arrival and a held store
complete, the scan moves on, a stall is recorded.
The model's choices in it: log 89. -/
def Obligations.SpillAndStallsProceed : Prop :=
  (∀ (q : Requester) (t : Fin 48) (s : State), Safety.calm s → Safety.serves s q (.tile t) .HALL_CTRL t 0 →
    fld (s.rd .HALL_CTRL t) 0 8 ≠ 0 → spillEn s t = false →
    ∃ u, exec (.spillEnable q t) s = .next u ∧
      (if spillBase s t % spillSize s t = 0 ∧ spillBase s t + spillSize s t ≤ ddrBytes s
       then spillEn u t = true ∧ (u.tile t).spillReady = false
       else spillEn u t = false ∧ (s.rd .FAULT_COUNT (pageOf (.tile t)) = 0 → u.rd .FAULT_REC0 (pageOf (.tile t)) = 0x02030000)) ∧
      Safety.changesOnly (fun r i _ => Safety.faultOf (.tile t) r i || (r == .HALL_CTRL && i == t.val)) [.captured, .tiles] s u) ∧
  (∀ (t : Fin 48) (s : State), Safety.calm s → spillEn s t = true → (s.tile t).spillReady = false → s.up (.tile t) = true →
    memStatus s (hallReq t) (spillBase s t) 64 true = .ok →
    ∃ u, exec (.spillFillDone t) s = .next u ∧ (u.tile t).spillReady = true ∧
      (∀ a, u.byte a = if spillBase s t ≤ a ∧ a < spillBase s t + spillSize s t then 0 else s.byte a) ∧
      Safety.changesOnly (fun _ _ _ => false) [.tiles, .mem, .bad] s u) ∧
  (∀ (t : Fin 48) (f : Fin 64) (p : Fin 3) (e0 e1 e2 e3 : Ecc) (k : Token) (v : State) (a b c : Option Token) (s : State),
    Safety.calm s → (s.tile t).ports = [(3 * f.val + p.val, { buf := [k], head := .spill, waiting := [] })] →
    (s.tile t).spillReady = true → spillEn s t = true → spillBlocked s t (3 * f + p) = false →
    wayFound s t (3 * f + p) e0 = s →
    cOp (ctxWord s t f (remapOf s t k.ctx)) ≠ 0 → cSel (ctxWord s t f (remapOf s t k.ctx)) p = 1 →
    2 ≤ cPorts (ctxWord s t f (remapOf s t k.ctx)) →
    arrive (setPortOf (s.setTile t { s.tile t with spills := (s.tile t).spills.erase (3 * f + p) }) t (3 * f + p)
      { buf := [k], head := .fresh, waiting := [] }) t f p (cPorts (ctxWord s t f (remapOf s t k.ctx))) k true
      [e0, e1, e2, e3] = (v, .fires a b c) → v.epo.detected = [] →
    (v.tile t).ports = [(3 * f.val + p.val, { buf := [k], head := .fresh, waiting := [] })] →
    ∃ u, exec (.spillOperationDone t f p e0 e1 e2 e3) s = .next u ∧
      (portOf u t (3 * f + p)).head = .ready (remapOf s t k.ctx) a b c ∧ (u.tile t).spills = (v.tile t).spills ∧
      Safety.changesOnly (fun _ _ _ => false) [.tiles] v u) ∧
  (∀ (t : Fin 48) (f : Fin 64) (p : Fin 3) (e0 e1 e2 e3 : Ecc) (k : Token) (v : State) (s : State),
    Safety.calm s → (s.tile t).ports = [(3 * f.val + p.val, { buf := [k], head := .held none, waiting := [] })] →
    wayFound (retryReturning s t) t (3 * f + p) e0 = s → cOp (ctxWord s t f (remapOf s t k.ctx)) ≠ 0 →
    cSel (ctxWord s t f (remapOf s t k.ctx)) p = 1 → 2 ≤ cPorts (ctxWord s t f (remapOf s t k.ctx)) →
    arrive (setPortOf (s.setTile t { s.tile t with spills := (s.tile t).spills.erase (3 * f + p) }) t (3 * f + p)
      { buf := [k], head := .fresh, waiting := [] }) t f p (cPorts (ctxWord s t f (remapOf s t k.ctx))) k
      (!spillEn s t || (s.tile t).spillReady) [e0, e1, e2, e3] = (v, .stored) → v.epo.detected = [] →
    (v.tile t).ports = [(3 * f.val + p.val, { buf := [k], head := .fresh, waiting := [] })] →
    ∃ u, exec (.heldStoreRetry t f p e0 e1 e2 e3) s = .next u ∧ portOf u t (3 * f + p) = {} ∧
      Safety.changesOnly (fun _ _ _ => false) [.tiles] v u) ∧
  (∀ (t : Fin 48) (f : Fin 64) (p : Fin 3) (e0 e1 e2 e3 : Ecc) (k : Token) (pair : HEntry) (v : State) (s : State),
    Safety.calm s → (s.tile t).ports = [(3 * f.val + p.val, { buf := [k], head := .held (some pair), waiting := [] })] →
    wayFound (retryReturning s t) t (3 * f + p) e0 = s → cOp (ctxWord s t f (remapOf s t k.ctx)) ≠ 0 →
    cSel (ctxWord s t f (remapOf s t k.ctx)) p = 1 → 2 ≤ cPorts (ctxWord s t f (remapOf s t k.ctx)) →
    pairUp (setPortOf (s.setTile t { s.tile t with spills := (s.tile t).spills.erase (3 * f + p) }) t (3 * f + p)
      { buf := [k], head := .fresh, waiting := [] }) t pair (!spillEn s t || (s.tile t).spillReady) false
      [e0, e1, e2, e3] = (v, .stored) → v.epo.detected = [] →
    (v.tile t).ports = [(3 * f.val + p.val, { buf := [k], head := .fresh, waiting := [] })] →
    ∃ u, exec (.heldStoreRetry t f p e0 e1 e2 e3) s = .next u ∧ portOf u t (3 * f + p) = {} ∧
      Safety.changesOnly (fun _ _ _ => false) [.tiles] v u) ∧
  (∀ (t : Fin 48) (e : Ecc) (s : State), Safety.calm s → (s.tile t).scanning = true → spillEn s t = true →
    (s.tile t).spillReady = true →
    memRead s (hallReq t) (spillBase s t + 64 * (s.tile t).scanAt) 64 e = (s, .ok, List.replicate 64 0) →
    ∃ u, exec (.spillScan t e) s = .next u ∧ (u.tile t).scanAt = ((s.tile t).scanAt + 1) % buckets s t ∧
      (u.tile t).scanning = stampsDue (s.tile t) ∧ Safety.changesOnly (fun _ _ _ => false) [.tiles] s u) ∧
  (∀ (t : Fin 48) (c f : Nat) (s : State), Safety.calm s → s.rd .HALL_STALL_INT t ≠ 0 → (s.tile t).stalled = false →
    s.ready (.tile t) = true → stallCondition s t = some (c, f) → c < 4 → f < 64 → s.rdf .HALL_CTRL 10 2 t ≠ 1 →
    ∃ u, exec (.stallDetected t) s = .next u ∧ (u.tile t).stalled = true ∧
      u.rd .HALL_STALL_CNT t = satAdd 32 (s.rd .HALL_STALL_CNT t) 1 ∧
      u.rd .HALL_STALL_INFO t = BitVec.ofNat 64 (c + 256 * f) ∧ bit (u.rd .HALL_CAUSE t) 2 = true ∧
      (bit (s.rd .HALL_CTRL t) 14 = true → bit (u.rd .EVT_STATUS (pageOf (.tile t))) 1 = true) ∧
      Safety.changesOnly (fun r i _ => Safety.eventOf (.tile t) r i || ((r == .HALL_STALL_CNT || r == .HALL_STALL_INFO ||
        r == .HALL_CAUSE) && i == t.val)) [.tiles] s u)

/-! Chapter 11: the context loader. -/

/-- The context loader (R345 to R355): LOAD starts in CHECKING unless a load is in progress or HOLD is active, ABORT ends a
load that has not begun to write, and each phase hands on to the next or ends in FAILED with its error.
The model's choices in it: logs 22, 23. -/
def Obligations.LoaderFollowsItsPhases : Prop :=
  (∀ (q : Requester) (s : State), Safety.calm s → Safety.serves s q .devctl .TILE_LDR_CMD 0 0 → ldrBusy s = false →
    s.hold = false →
    ∃ t, exec (.tileLdrLoad q) s = .next t ∧ t.rd .TILE_LDR_STATUS = 1 ∧ t.rd .TILE_LDR_ERR0 = 0 ∧ t.rd .TILE_LDR_ERR1 = 0) ∧
  (∀ (q : Requester) (s : State), Safety.calm s → Safety.serves s q .devctl .TILE_LDR_CMD 0 0 →
    (ldrBusy s = true ∨ s.hold = true) → s.rd .FAULT_COUNT = 0 →
    ∃ t, exec (.tileLdrLoad q) s = .next t ∧ ldrState t = ldrState s ∧ t.rd .FAULT_REC0 = 0x0002104C ∧
      (s.hold = true → t.rdf .TILE_LDR_STATUS 8 8 = 0x0A ∧ t.rd .TILE_LDR_ERR0 = 0 ∧ t.rd .TILE_LDR_ERR1 = 0) ∧
      (s.hold = false → t.rd .TILE_LDR_STATUS = s.rd .TILE_LDR_STATUS) ∧
      Safety.changesOnly (fun r i _ => Safety.faultOf .devctl r i || r == .TILE_LDR_STATUS || r == .TILE_LDR_ERR0 ||
        r == .TILE_LDR_ERR1) [.captured] s t) ∧
  (∀ (q : Requester) (s : State), Safety.calm s → Safety.serves s q .devctl .TILE_LDR_CMD 0 0 →
    ∃ t, exec (.tileLdrAbort q) s = .next t ∧
      (if 1 ≤ ldrState s ∧ ldrState s ≤ 3
       then ldrState t = 6 ∧ t.rdf .TILE_LDR_STATUS 8 8 = 9
       else ldrState t = ldrState s ∧ (s.rd .FAULT_COUNT = 0 → t.rd .FAULT_REC0 = 0x0002104C)) ∧
      Safety.changesOnly (fun r i _ => Safety.faultOf .devctl r i || r == .TILE_LDR_STATUS || r == .TILE_LDR_ERR0 ||
        r == .TILE_LDR_ERR1) [.captured, .ldr] s t) ∧
  (∀ (s : State), Safety.calm s → ldrState s = 1 → s.ldr.status = .ok →
    ∃ t, exec .checkingDone s = .next t ∧
      (match checks s (s.rd .TILE_LDR_LEN).toNat s.ldr.body with
      | none => ldrState t = 2 ∧ t.rdf .TILE_LDR_STATUS 16 16 = min (imgCount s.ldr.body) 65535
      | some e => ldrState t = 6 ∧ t.rdf .TILE_LDR_STATUS 8 8 = e.code % 256 ∧ t.rd .TILE_LDR_ERR0 = BitVec.ofNat 64 e.e0) ∧
      Safety.changesOnly (fun r _ _ => r == .TILE_LDR_STATUS || r == .TILE_LDR_ERR0 || r == .TILE_LDR_ERR1) [.ldr] s t) ∧
  (∀ (s : State), Safety.calm s → ldrState s = 1 → s.ldr.status ≠ .ok →
    ∃ t, exec .checkingDone s = .next t ∧ ldrState t = 6 ∧ t.rdf .TILE_LDR_STATUS 8 8 = 0x0B) ∧
  (∀ (s : State), Safety.calm s → ldrState s = 2 →
    (let ls := liveContexts s s.ldr.body
    ∃ t, exec .bindingDone s = .next t ∧ t.rd .TILE_LDR_LIVE = BitVec.ofNat 64 (ls.length % 65536) ∧
      (match bindError s s.ldr.body ls (ls.flatMap (bindingsOf s s.ldr.body)) with
      | none => ldrState t = 3
      | some e => ldrState t = 6 ∧ t.rdf .TILE_LDR_STATUS 8 8 = e.code % 256) ∧
      Safety.changesOnly (fun r _ _ => r == .TILE_LDR_STATUS || r == .TILE_LDR_ERR0 || r == .TILE_LDR_ERR1 ||
        r == .TILE_LDR_LIVE) [.ldr] s t)) ∧
  (∀ (s : State), Safety.calm s → ldrState s = 3 → s.ldr.verified = false →
    ∃ t, exec .verifyingDone s = .next t ∧
      (if (acceptImage s 3 (256 + s.ldr.body.length) s.ldr.manifest s.ldr.body).2 = 0
       then ldrState t = (if s.hold = true then 3 else 4) ∧ t.ldr.verified = s.hold
       else ldrState t = 6)) ∧
  (∀ (s : State), Safety.calm s → ldrState s = 4 → s.hold = false → imgRecs s.ldr.body = [] → imgFull s.ldr.body = false →
    ∃ t, exec .writingDone s = .next t ∧ ldrState t = 5 ∧
      (∀ x, x ∈ imgTiles s.ldr.body → t.rd .TILE_REMAP_NEXT x = checkedMap s s.ldr.body x ∧
        (imgArm s.ldr.body = true → bit (t.rd .TILE_REMAP_CTRL x) 0 = true)) ∧
      Safety.changesOnly (fun r i _ => r == .TILE_LDR_STATUS || ((r == .TILE_REMAP_NEXT || r == .TILE_REMAP_CTRL) &&
        (imgTiles s.ldr.body).contains i)) [.ldr, .tiles] s t) ∧
  (∀ (r : List Byte) (s : State), Safety.calm s → ldrState s = 4 → s.hold = false → imgRecs s.ldr.body = [r] →
    imgFull s.ldr.body = false → recTile r < 48 →
    ∃ t, exec .writingDone s = .next t ∧ ldrState t = 5 ∧ ctxWord t (recTile r) (recFu r) (recCtx r) = recWord r ∧
      (∀ tl f x, (tl, f, x) ≠ (recTile r, recFu r, recCtx r) → f < 64 → x < 16 → recFu r < 64 → recCtx r < 16 →
        ctxWord t tl f x = ctxWord s tl f x))

/-! Chapters 12 and 13: the stream cores. In every statement `k` is the core, `x` its environment, `i` the instruction at its
program counter; `u` is the top cell of the data stack, `v` the one below, `w` the third. -/

/-- The stack instructions (R367).
The model's choices in it: log 39. -/
def Obligations.StackInstructionsMoveCells : Prop :=
  ∀ (k : Fin 32) (x : CoreEnv) (i : Insn) (s : State), Safety.calm s →
    (let ds := Safety.ds s k
    let rs := Safety.rs s k
    let st := Safety.status s k
    let next := i.last + 2
    let u := cell ds 0
    let v := cell ds 1
    let w := cell ds 2
    (∀ (op : Nat) (c : Instr) (out : List Word), (op, c, out) ∈ ([
        (0x00, .nop k x, ds), (0x01, .drop k x, ds.drop 1), (0x02, .dup k x, u :: ds), (0x03, .swap k x, v :: u :: ds.drop 2),
        (0x04, .over k x, v :: ds), (0x05, .rot k x, w :: u :: v :: ds.drop 3), (0x06, .nip k x, u :: ds.drop 2),
        (0x07, .tuck k x, u :: v :: u :: ds.drop 2), (0x08, .pick k x, cell ds i.arg :: ds), (0x09, .twoDrop k x, ds.drop 2),
        (0x0A, .twoDup k x, u :: v :: ds), (0x0B, .twoSwap k x, w :: cell ds 3 :: u :: v :: ds.drop 4),
        (0x0C, .depth k x, BitVec.ofNat 32 (ds.length + ((s.core k).cur.dsp.toNat - ((s.core k).cur.sp 0x0A).toNat) / 4) :: ds)]
        : List (Nat × Instr × List Word)) →
      Safety.issues s k x op i → Safety.computes s k c next out rs st) ∧
    (Safety.issues s k x 0x0D i → Safety.computes s k (.tor k x) next (ds.drop 1) (u :: rs) st) ∧
    (Safety.issues s k x 0x0E i → Safety.computes s k (.fromr k x) next (cell rs 0 :: ds) (rs.drop 1) st) ∧
    (Safety.issues s k x 0x0F i → Safety.computes s k (.rfetch k x) next (cell rs 0 :: ds) rs st))

/-- Literals and immediate operations (R364, R367). -/
def Obligations.LiteralsAndImmediatesCompute : Prop :=
  ∀ (k : Fin 32) (x : CoreEnv) (i : Insn) (s : State), Safety.calm s →
    (let ds := Safety.ds s k
    let rs := Safety.rs s k
    let st := Safety.status s k
    let next := i.last + 2
    let u := cell ds 0
    let n := i.immU
    (Safety.issues s k x 0x10 i → Safety.computes s k (.lit k x) next (i.immS :: ds) rs st) ∧
    (Safety.issues s k x 0x11 i → Safety.computes s k (.litu k x) next (n :: ds) rs st) ∧
    (Safety.issues s k x 0x12 i → Safety.computes s k (.addi k x) next ((u + i.immS) :: ds.drop 1) rs
      (Safety.carried st (overflows (u.toInt + i.immS.toInt)) (decide (2 ^ 32 ≤ u.toNat + i.immS.toNat)))) ∧
    (∀ (op : Nat) (c : Instr) (r : Word), (op, c, r) ∈ ([
        (0x13, .andi k x, u &&& n), (0x14, .ori k x, u ||| n), (0x15, .xori k x, u ^^^ n), (0x16, .shli k x,
          u <<< (n.toNat % 256)),
        (0x17, .shri k x, u >>> (n.toNat % 256)), (0x18, .sari k x, u.sshiftRight (n.toNat % 256)),
        (0x19, .roli k x, u.rotateLeft (n.toNat % 32)), (0xE1, .sextb k x, (u.setWidth 8).signExtend 32),
        (0xE2, .sexth k x, (u.setWidth 16).signExtend 32), (0xE3, .muli k x, u * i.immS)] : List (Nat × Instr × Word)) →
      Safety.issues s k x op i → Safety.computes s k c next (r :: ds.drop 1) rs st) ∧
    (Safety.issues s k x 0xE4 i → Safety.computes s k (.adr k x) next ((i.last + 2 * i.immS) :: ds) rs st) ∧
    (Safety.issues s k x 0xE5 i → Safety.computes s k (.sath k x) next
      (BitVec.ofInt 32 (max (-32768) (min 32767 u.toInt)) :: ds.drop 1) rs
      (Safety.flagged st (decide (u.toInt < -32768 ∨ 32767 < u.toInt)))))

/-- Local and special registers (R360, R367, R368, R404).
The model's choices in it: log 79. -/
def Obligations.RegistersAreReadAndWritten : Prop :=
  ∀ (k : Fin 32) (x : CoreEnv) (i : Insn) (s : State), Safety.calm s →
    (let ds := Safety.ds s k
    let rs := Safety.rs s k
    let st := Safety.status s k
    let next := i.last + 2
    let u := cell ds 0
    let l := i.op % 8
    let quiet (t : State) := Safety.changesOnly (fun _ _ _ => false) [.cores] s t
    (Safety.issues s k x 0x20 i → Safety.computes s k (.ldl k x) next ((s.core k).cur.local i.arg :: ds) rs st) ∧
    (Safety.issues s k x 0x21 i → ∃ t, exec (.stl k x) s = .next t ∧ Safety.goesOn t k next (ds.drop 1) rs ∧
      (t.core k).cur.local i.arg = u ∧ Safety.coreKept Safety.nothing (· == i.arg) false s t k ∧ quiet t) ∧
    (Safety.issues s k x 0x22 i → Safety.computes s k (.rds k x) next
      ((if i.arg = 0x06 then (s.core k).vbase else if i.arg = 0x0C then BitVec.ofNat 32 k else (s.core k).cur.sp i.arg) :: ds)
      rs st) ∧
    (∀ m, specMask i.arg = some m → i.arg ≠ 0x06 → i.arg ≠ 0x0A → i.arg ≠ 0x0B → Safety.issues s k x 0x23 i →
      ∃ t, exec (.wrs k x) s = .next t ∧ Safety.goesOn t k next (ds.drop 1) rs ∧ (t.core k).cur.sp i.arg = u &&& m ∧
        Safety.coreKept (· == i.arg) Safety.nothing false s t k ∧ quiet t) ∧
    (i.arg = 0x06 → Safety.issues s k x 0x23 i →
      ∃ t, exec (.wrs k x) s = .next t ∧ Safety.goesOn t k next (ds.drop 1) rs ∧ (t.core k).vbase = u &&& 0x7E00 ∧ quiet t) ∧
    (i.arg = 0x0A → boundOk (u &&& 0xFFFFFFFC) = true → Safety.issues s k x 0x23 i →
      ∃ t, exec (.wrs k x) s = .next t ∧ Safety.goesOn t k next (ds.drop 1) rs ∧
        (t.core k).cur.sp 0x0A = u &&& 0xFFFFFFFC ∧ (t.core k).cur.dsp = u &&& 0xFFFFFFFC ∧ quiet t) ∧
    (i.arg = 0x0B → boundOk (u &&& 0xFFFFFFFC) = true → Safety.issues s k x 0x23 i →
      ∃ t, exec (.wrs k x) s = .next t ∧ Safety.goesOn t k next (ds.drop 1) rs ∧
        (t.core k).cur.sp 0x0B = u &&& 0xFFFFFFFC ∧ (t.core k).cur.rsp = u &&& 0xFFFFFFFC ∧ quiet t) ∧
    (i.arg = 0x0A → boundOk (u &&& 0xFFFFFFFC) = false → s.rd .FAULT_COUNT (pageOf (.core k)) = 0 →
      Safety.issues s k x 0x23 i →
      ∃ t, exec (.wrs k x) s = .next t ∧ (t.core k).cur.sp 0x0A = (s.core k).cur.sp 0x0A ∧
        fld (t.rd .FAULT_REC0 (pageOf (.core k))) 16 16 = 1) ∧
    (∀ op, 0xB0 ≤ op → op ≤ 0xB7 → Safety.issues s k x op i →
      ∃ t, exec (.llit k x) s = .next t ∧ Safety.goesOn t k next ds rs ∧ (t.core k).cur.local l = i.immS ∧
        Safety.coreKept Safety.nothing (· == l) false s t k ∧ quiet t) ∧
    (∀ op, 0xB8 ≤ op → op ≤ 0xBF → Safety.issues s k x op i →
      (let a := (s.core k).cur.local l
      ∃ t, exec (.ladd k x) s = .next t ∧ Safety.goesOn t k next ds rs ∧ (t.core k).cur.local l = a + i.immS ∧
        Safety.status t k = Safety.carried st (overflows (a.toInt + i.immS.toInt)) (decide (2 ^ 32 ≤ a.toNat + i.immS.toNat)) ∧
        Safety.coreKept (· == 0) (· == l) false s t k ∧ quiet t)))

/-- Addition, comparison, multiplication (R369, R370, R304, R305): result, V and C. -/
def Obligations.ArithmeticComputes : Prop :=
  ∀ (k : Fin 32) (x : CoreEnv) (i : Insn) (s : State), Safety.calm s →
    (let ds := Safety.ds s k
    let rs := Safety.rs s k
    let st := Safety.status s k
    let next := i.last + 2
    let b := cell ds 0
    let a := cell ds 1
    let c := st.getLsbD 2
    (∀ (op : Nat) (e : Instr) (r : Word) (v cy : Bool), (op, e, r, v, cy) ∈ ([
        (0x30, .add k x, a + b, overflows (a.toInt + b.toInt), decide (2 ^ 32 ≤ a.toNat + b.toNat)),
        (0x33, .sub k x, a - b, overflows (a.toInt - b.toInt), decide (a.toNat < b.toNat)),
        (0x3C, .addc k x, a + b + BitVec.ofNat 32 c.toNat, overflows (a.toInt + b.toInt + c.toNat),
          decide (2 ^ 32 ≤ a.toNat + b.toNat + c.toNat)),
        (0x3D, .subb k x, a - b - BitVec.ofNat 32 c.toNat, overflows (a.toInt - b.toInt - c.toNat),
          decide (a.toNat < b.toNat + c.toNat))] : List (Nat × Instr × Word × Bool × Bool)) →
      Safety.issues s k x op i → Safety.computes s k e next (r :: ds.drop 2) rs (Safety.carried st v cy)) ∧
    (∀ (op : Nat) (e : Instr) (r : Word) (v : Bool), (op, e, r, v) ∈ ([
        (0x31, .adds k x, BitVec.ofInt 32 (max (-2 ^ 31) (min (2 ^ 31 - 1) (a.toInt + b.toInt))), overflows (a.toInt + b.toInt)),
        (0x32, .addus k x, BitVec.ofNat 32 (min (2 ^ 32 - 1) (a.toNat + b.toNat)), decide (2 ^ 32 ≤ a.toNat + b.toNat)),
        (0x34, .subs k x, BitVec.ofInt 32 (max (-2 ^ 31) (min (2 ^ 31 - 1) (a.toInt - b.toInt))), overflows (a.toInt - b.toInt)),
        (0x35, .subus k x, BitVec.ofNat 32 (a.toNat - b.toNat), decide (a.toNat < b.toNat)),
        (0x38, .min k x, if a.toInt ≤ b.toInt then a else b, false), (0x39, .max k x, if b.toInt ≤ a.toInt then a else b, false),
        (0x3A, .minu k x, if a.toNat ≤ b.toNat then a else b, false), (0x3B, .maxu k x, if b.toNat ≤ a.toNat then
          a else b, false),
        (0x40, .mul k x, a * b, false), (0x41, .mulh k x, BitVec.ofInt 32 (a.toInt * b.toInt / 2 ^ 32), false),
        (0x42, .mulhu k x, BitVec.ofNat 32 (a.toNat * b.toNat / 2 ^ 32), false)] : List (Nat × Instr × Word × Bool)) →
      Safety.issues s k x op i → Safety.computes s k e next (r :: ds.drop 2) rs (Safety.flagged st v)) ∧
    (Safety.issues s k x 0x36 i → Safety.computes s k (.neg k x) next (-b :: ds.drop 1) rs
      (Safety.flagged st (b == 0x80000000))) ∧
    (Safety.issues s k x 0x37 i → Safety.computes s k (.abs k x) next ((if b.toInt < 0 then -b else b) :: ds.drop 1) rs
      (Safety.flagged st (b == 0x80000000))) ∧
    (Safety.issues s k x 0x3E i → Safety.computes s k (.clamp k x) next
      (BitVec.ofInt 32 (min (max (cell ds 2).toInt a.toInt) b.toInt) :: ds.drop 3) rs st) ∧
    (Safety.issues s k x 0x43 i → Safety.computes s k (.mac k x) next ((cell ds 2 * a + b) :: ds.drop 3) rs st))

/-- Division (R306, R369 to R371): quotient and remainder, the results of a division by zero, DZ, and its trap. -/
def Obligations.DivisionComputes : Prop :=
  ∀ (k : Fin 32) (x : CoreEnv) (i : Insn) (s : State), Safety.calm s →
    (let ds := Safety.ds s k
    let rs := Safety.rs s k
    let st := Safety.status s k
    let b := cell ds 0
    let a := cell ds 1
    let q : Word := if b = 0 then (if a.toInt < 0 then 0x80000000 else 0x7FFFFFFF) else a.sdiv b
    let qu : Word := if b = 0 then 0xFFFFFFFF else a / b
    let r : Word := if b = 0 then a else a.srem b
    let flags (signed : Bool) : Word :=
      if b = 0 then st ||| 2 else Safety.flagged st (signed && a == 0x80000000 && b == 0xFFFFFFFF)
    ∀ (op : Nat) (e : Instr) (out : List Word) (signed : Bool), (op, e, out, signed) ∈ ([
        (0x44, .div k x, [q], true), (0x45, .divu k x, [qu], false), (0x46, .rem k x, [r], true), (0x47, .remu k x,
          [a % b], false),
        (0x48, .divrem k x, [r, q], true), (0x49, .divremu k x, [a % b, qu], false)] : List (Nat × Instr × List Word × Bool)) →
      Safety.issues s k x op i →
      ((b ≠ 0 ∨ st.getLsbD 8 = false) → Safety.computes s k e (i.last + 2) (out ++ ds.drop 2) rs (flags signed)) ∧
      (b = 0 → st.getLsbD 8 = true → Safety.trapRoom s k →
        ∃ t, exec e s = .next t ∧ Safety.traps s t k 8 0 (s.core k).pc ds false ∧ (Safety.status t k).getLsbD 1 = true))

/-- Logic, shifts, counts, conditions, fields, CRC and hash (R295 to R297, R307, R370). -/
def Obligations.LogicAndFieldsCompute : Prop :=
  ∀ (k : Fin 32) (x : CoreEnv) (i : Insn) (s : State), Safety.calm s →
    (let ds := Safety.ds s k
    let rs := Safety.rs s k
    let st := Safety.status s k
    let b := cell ds 0
    let a := cell ds 1
    let n := b.toNat % 256
    let fn := i.arg
    (∀ (op : Nat) (e : Instr) (r : Word), (op, e, r) ∈ ([
        (0x50, .and k x, a &&& b), (0x51, .or k x, a ||| b), (0x52, .xor k x, a ^^^ b), (0x53, .andn k x, a &&& ~~~ b),
        (0x55, .shl k x, a <<< n), (0x56, .shr k x, a >>> n), (0x57, .sar k x, a.sshiftRight n),
        (0x58, .rol k x, a.rotateLeft (n % 32)), (0x59, .ror k x, a.rotateRight (n % 32)),
        (0x60, .cmp k x, if condition fn a b then 1 else 0), (0x64, .ins k x, insField a b i.immU),
        (0x65, .crc1 k x, crc fn 1 a b), (0x66, .crc2 k x, crc fn 2 a b), (0x67, .crc4 k x, crc fn 4 a b),
        (0x68, .hash k x, ((a ^^^ b) * 0x9E3779B1).rotateLeft 15)] : List (Nat × Instr × Word)) →
      Safety.issues s k x op i → Safety.computes s k e (i.last + 2) (r :: ds.drop 2) rs st) ∧
    (∀ (op : Nat) (e : Instr) (r : Word), (op, e, r) ∈ ([
        (0x54, .not k x, ~~~ b), (0x5A, .clz k x, BitVec.ofNat 32 (clz b)), (0x5B, .ctz k x, BitVec.ofNat 32 (ctz b)),
        (0x5C, .popc k x, BitVec.ofNat 32 (popc 32 b.toNat)), (0x5D, .bswap k x, bswap b), (0x62, .extu k x, extU b i.immU),
        (0x63, .exts k x, extS b i.immU), (0x69, .fold k x, fold16 b)] : List (Nat × Instr × Word)) →
      Safety.issues s k x op i → Safety.computes s k e (i.last + 2) (r :: ds.drop 1) rs st) ∧
    (Safety.issues s k x 0x61 i → Safety.computes s k (.select k x) (i.last + 2)
      ((if b ≠ 0 then cell ds 2 else a) :: ds.drop 3) rs st))

/-- Loads (R364, R372, R373, R376, R384): from the core's own memory, from a landing slot, and through a window; an address
that is not a multiple of the size traps ALIGN.
The model's choices in it: log 25. -/
def Obligations.LoadsReadMemory : Prop :=
  ∀ (k : Fin 32) (x : CoreEnv) (i : Insn) (s : State), Safety.calm s → x.data = .ok → x.net = {} →
    (let ds := Safety.ds s k
    ∀ (op : Nat) (e : Instr) (n : Nat) (sx : Bool) (a : Word) (rest : List Word), (op, e, n, sx, a, rest) ∈ ([
        (0x70, .ldw k x, 4, false, cell ds 0 + i.immS, ds.drop 1), (0x71, .ldh k x, 2, true, cell ds 0 + i.immS, ds.drop 1),
        (0x72, .ldhu k x, 2, false, cell ds 0 + i.immS, ds.drop 1), (0x73, .ldb k x, 1, true, cell ds 0 + i.immS, ds.drop 1),
        (0x74, .ldbu k x, 1, false, cell ds 0 + i.immS, ds.drop 1)] ++
        (List.range 8).map (fun r => (0xC0 + r, .ldr k x, 4, false, (s.core k).cur.local r + 4 * i.immS, ds))
        : List (Nat × Instr × Nat × Bool × Word × List Word)) →
      Safety.issues s k x op i →
      (let out (v : Nat) : Word := if sx then BitVec.ofInt 32 (sgn (8 * n) v) else BitVec.ofNat 32 v
      (a.toNat % n = 0 → coreArea a.toNat = 1 → badIn s (coreMem k a.toNat) n = false →
        Safety.computes s k e (i.last + 2) (out (s.leAt (coreMem k a.toNat) n) :: rest) (Safety.rs s k) (Safety.status s k)) ∧
      (a.toNat % n = 0 → coreArea a.toNat = 2 →
        Safety.computes s k e (i.last + 2) (out (slotRead s k a.toNat n) :: rest) (Safety.rs s k) (Safety.status s k)) ∧
      (∀ bs, a.toNat % n = 0 → coreArea a.toNat = 3 →
        busRead (takeCells s k (needOf i)) (.core k) (globalOf (s.core k).cur a.toNat) n = (takeCells s k (needOf i), .ok, bs) →
        Safety.computes s k e (i.last + 2) (out (leNat bs) :: rest) (Safety.rs s k) (Safety.status s k)) ∧
      (a.toNat % n ≠ 0 → Safety.trapRoom s k →
        ∃ t, exec e s = .next t ∧ Safety.traps s t k 5 n (s.core k).pc ds false ∧ (t.core k).cur.sp 5 = a)))

/-- Stores (R364, R372 to R375, R384): the bytes stored to the core's own memory are those of the address and size, and no
others change; a store through a window leaves as a request, a 17th behind the oldest without a response waits; landing slots
are read-only.
The model's choices in it: log 36. -/
def Obligations.StoresWriteMemory : Prop :=
  ∀ (k : Fin 32) (x : CoreEnv) (i : Insn) (s : State), Safety.calm s → x.net = {} →
    (let ds := Safety.ds s k
    ∀ (op : Nat) (e : Instr) (n : Nat) (a v : Word) (rest : List Word), (op, e, n, a, v, rest) ∈ ([
        (0x75, .stw k x, 4, cell ds 0 + i.immS, cell ds 1, ds.drop 2), (0x76, .sth k x, 2, cell ds 0 + i.immS, cell ds 1,
          ds.drop 2),
        (0x77, .stb k x, 1, cell ds 0 + i.immS, cell ds 1, ds.drop 2)] ++
        (List.range 8).map (fun r => (0xC8 + r, .str k x, 4, (s.core k).cur.local r + 4 * i.immS, cell ds 0, ds.drop 1))
        : List (Nat × Instr × Nat × Word × Word × List Word)) →
      Safety.issues s k x op i →
      (a.toNat % n = 0 → coreArea a.toNat = 1 →
        ∃ t, exec e s = .next t ∧ Safety.goesOn t k (i.last + 2) rest (Safety.rs s k) ∧
          t.leAt (coreMem k a.toNat) n = v.toNat % 2 ^ (8 * n) ∧
          (∀ z, (z < coreMem k a.toNat ∨ coreMem k a.toNat + n ≤ z) → t.byte z = s.byte z) ∧
          Safety.coreKept Safety.nothing Safety.nothing false s t k ∧
          Safety.changesOnly (fun _ _ _ => false) [.cores, .mem, .bad] s t) ∧
      (∀ tag d, a.toNat % n = 0 → coreArea a.toNat = 3 → inRegs (globalOf (s.core k).cur a.toNat) = false →
        wrongForm s (.core k) .wr (globalOf (s.core k).cur a.toNat) n = false →
        Safety.comesTo s (.core k) (globalOf (s.core k).cur a.toNat) n d → (s.core k).window.length < 16 →
        freeTag s (.core k) 4096 0 = some tag →
        ∃ t, exec e s = .next t ∧ Safety.goesOn t k (i.last + 2) rest (Safety.rs s k) ∧
          (t.core k).window = (s.core k).window ++ [(tag, false)] ∧ ∃ r, r ∈ t.reqs ∧ r.who = .core k ∧ r.tag = tag ∧
            r.store = some a) ∧
      (a.toNat % n = 0 → coreArea a.toNat = 3 → 16 ≤ (s.core k).window.length →
        ∃ t, exec e s = .next t ∧ (t.core k).pc = (s.core k).pc ∧ (t.core k).run = .blocked ∧ Safety.ds t k = ds ∧
          Safety.changesOnly (fun _ _ _ => false) [.cores] s t) ∧
      (a.toNat % n = 0 → coreArea a.toNat = 2 → Safety.trapRoom s k →
        ∃ t, exec e s = .next t ∧ Safety.traps s t k 6 1 (s.core k).pc ds false ∧ (t.core k).cur.sp 5 = a) ∧
      (a.toNat % n ≠ 0 → Safety.trapRoom s k →
        ∃ t, exec e s = .next t ∧ Safety.traps s t k 5 n (s.core k).pc ds false ∧ (t.core k).cur.sp 5 = a))

/-- Atomics and FENCE (R373 to R375): a word of the core's own memory is read and written as one, the old value is pushed;
FENCE waits for outstanding stores and reports the first failing one.
The model's choices in it: log 25. -/
def Obligations.AtomicsAndFence : Prop :=
  ∀ (k : Fin 32) (x : CoreEnv) (i : Insn) (s : State), Safety.calm s → x.data = .ok →
    (let ds := Safety.ds s k
    let rs := Safety.rs s k
    let a := cell ds 0
    let old := s.leAt (coreMem k a.toNat) 4
    (∀ (op : Nat) (e : Instr) (new : Nat) (rest : List Word), (op, e, new, rest) ∈ ([
        (0x78, .amoadd k x, (old + (cell ds 1).toNat) % 2 ^ 32, ds.drop 2), (0x79, .swapm k x, (cell ds 1).toNat, ds.drop 2),
        (0x7A, .cas k x, if old = (cell ds 2).toNat then (cell ds 1).toNat else old, ds.drop 3)]
        : List (Nat × Instr × Nat × List Word)) →
      Safety.issues s k x op i → a.toNat % 4 = 0 → coreArea a.toNat = 1 → badIn s (coreMem k a.toNat) 4 = false →
      ∃ t, exec e s = .next t ∧ Safety.goesOn t k (i.last + 2) (BitVec.ofNat 32 old :: rest) rs ∧
        t.leAt (coreMem k a.toNat) 4 = new ∧
        (∀ z, (z < coreMem k a.toNat ∨ coreMem k a.toNat + 4 ≤ z) → t.byte z = s.byte z) ∧
        Safety.coreKept Safety.nothing Safety.nothing false s t k ∧
        Safety.changesOnly (fun _ _ _ => false) [.cores, .mem, .bad] s t) ∧
    (Safety.issues s k x 0x7B i → storesOut s k = [] → (s.core k).storeErr = none →
      Safety.computes s k (.fence k x) (i.last + 2) ds rs (Safety.status s k)) ∧
    (Safety.issues s k x 0x7B i → storesOut s k ≠ [] →
      ∃ t, exec (.fence k x) s = .next t ∧ (t.core k).pc = (s.core k).pc ∧ (t.core k).run = .blocked ∧ Safety.ds t k = ds ∧
        Safety.changesOnly (fun _ _ _ => false) [.cores] s t) ∧
    (∀ e, Safety.issues s k x 0x7B i → storesOut s k = [] → (s.core k).storeErr = some e → Safety.trapRoom s k →
      ∃ t, exec (.fence k x) s = .next t ∧ Safety.traps s t k 6 (0x10 + e.2.code) (s.core k).pc ds false ∧
        (t.core k).cur.sp 5 = e.1 ∧ (t.core k).storeErr = none))

/-- Signal processing (R377, R387 to R396): products into the accumulators with their address registers stepped, the
accumulators cleared, read, rounded, saturated and set, the block exponent, X and Y accesses, halves added and shifted. -/
def Obligations.SignalProcessingComputes : Prop :=
  ∀ (k : Fin 32) (x : CoreEnv) (i : Insn) (s : State), Safety.calm s → x.data = .ok → x.data2 = .ok →
    (let ds := Safety.ds s k
    let rs := Safety.rs s k
    let st := Safety.status s k
    let next := i.last + 2
    let g := i.arg
    let c := (s.core k).cur
    let b := cell ds 0
    let a := cell ds 1
    let quiet (t : State) := Safety.changesOnly (fun _ _ _ => false) [.cores] s t
    let nx := g % 2
    let ny := 2 + g / 2 % 2
    let px := BitVec.ofNat 32 (s.leAt (coreMem k (arAddr c nx).toNat) 4)
    let py := BitVec.ofNat 32 (s.leAt (coreMem k (arAddr c ny).toNat) 4)
    let yi := if g / 64 % 2 = 1 then -(im py) else im py
    let sign : Int := if g / 128 % 2 = 1 then -1 else 1
    let zr := sign * (re px * re py - im px * yi)
    let zi := sign * (re px * yi + im px * re py)
    (∀ (op : Nat) (e : Instr) (n0 n1 : BitVec 72), (op, e, n0, n1) ∈ ([
        (0x80, .cmac k x, c.acc0 + BitVec.ofInt 72 zr, c.acc1 + BitVec.ofInt 72 zi),
        (0x81, .cmul k x, BitVec.ofInt 72 zr, BitVec.ofInt 72 zi),
        (0x82, .rmac k x, c.acc0 + BitVec.ofInt 72 (sign * (re px * re py)), c.acc1 + BitVec.ofInt 72 (sign * (im px * im py)))]
        : List (Nat × Instr × BitVec 72 × BitVec 72)) →
      Safety.issues s k x op i → (arAddr c nx).toNat % 4 = 0 → (arAddr c ny).toNat % 4 = 0 →
      badIn s (coreMem k (arAddr c nx).toNat) 4 = false → badIn s (coreMem k (arAddr c ny).toNat) 4 = false →
      ∃ t, exec e s = .next t ∧ Safety.goesOn t k next ds rs ∧ (t.core k).cur.acc0 = n0 ∧ (t.core k).cur.acc1 = n1 ∧
        arOf (t.core k).cur nx = postMod (arOf c nx) ((c.sp (0x14 + nx)).toNat % 65536) (g / 4 % 4) ∧
        arOf (t.core k).cur ny = postMod (arOf c ny) ((c.sp (0x14 + ny)).toNat % 65536) (g / 16 % 4) ∧
        Safety.coreKept (fun n => n == 0x10 + nx || n == 0x10 + ny) Safety.nothing true s t k ∧ quiet t) ∧
    (Safety.issues s k x 0x83 i → ∃ t, exec (.acclr k x) s = .next t ∧ Safety.goesOn t k next ds rs ∧
      (t.core k).cur.acc0 = (if g % 2 = 1 then 0 else c.acc0) ∧ (t.core k).cur.acc1 = (if g / 2 % 2 = 1 then 0 else c.acc1) ∧
      Safety.coreKept Safety.nothing Safety.nothing true s t k ∧ quiet t) ∧
    (Safety.issues s k x 0x84 i →
      (let y := roundShift (accOf c (g % 2)).toInt (g / 2 % 32) (g / 64)
      Safety.computes s k (.acrd k x) next (BitVec.ofInt 32 (max (-2 ^ 31) (min (2 ^ 31 - 1) y)) :: ds) rs
        (Safety.flagged st (overflows y)))) ∧
    (Safety.issues s k x 0x85 i →
      (let y0 := satTo 16 (roundShift c.acc0.toInt (g % 32) (g / 32 % 4))
      let y1 := satTo 16 (roundShift c.acc1.toInt (g % 32) (g / 32 % 4))
      Safety.computes s k (.acrdc k x) next (packed y0.1 y1.1 :: ds) rs (Safety.flagged st (y0.2 || y1.2)))) ∧
    (Safety.issues s k x 0x86 i → Safety.computes s k (.acget k x) next (accPart (accOf c (g % 2)) (g / 2) :: ds) rs st) ∧
    (Safety.issues s k x 0x87 i → ∃ t, exec (.acset k x) s = .next t ∧ Safety.goesOn t k next (ds.drop 1) rs ∧
      accOf (t.core k).cur (g % 2) = setPart (accOf c (g % 2)) (g / 2) b ∧
      accOf (t.core k).cur (1 - g % 2) = accOf c (1 - g % 2) ∧ Safety.coreKept Safety.nothing Safety.nothing true s t k ∧
        quiet t) ∧
    (Safety.issues s k x 0x88 i → ∃ t, exec (.bexp k x) s = .next t ∧ Safety.goesOn t k next ds rs ∧
      ((t.core k).cur.sp 0x18).toNat =
        min ((c.sp 0x18).toNat % 16) (min (headroom (fld b 0 16)) (headroom (fld b 16 16))) ∧
      Safety.coreKept (· == 0x18) Safety.nothing false s t k ∧ quiet t) ∧
    (Safety.issues s k x 0x89 i → ∃ t, exec (.bexclr k x) s = .next t ∧ Safety.goesOn t k next ds rs ∧
      (t.core k).cur.sp 0x18 = 15 ∧ Safety.coreKept (· == 0x18) Safety.nothing false s t k ∧ quiet t) ∧
    (Safety.issues s k x 0x8A i → (arAddr c (g % 4)).toNat % 4 = 0 → badIn s (coreMem k (arAddr c (g % 4)).toNat) 4 = false →
      ∃ t, exec (.ldxy k x) s = .next t ∧
        Safety.goesOn t k next (BitVec.ofNat 32 (s.leAt (coreMem k (arAddr c (g % 4)).toNat) 4) :: ds) rs ∧
        arOf (t.core k).cur (g % 4) = postMod (arOf c (g % 4)) ((c.sp (0x14 + g % 4)).toNat % 65536) (g / 4) ∧
        Safety.coreKept (· == 0x10 + g % 4) Safety.nothing false s t k ∧ quiet t) ∧
    (Safety.issues s k x 0x8B i → (arAddr c (g % 4)).toNat % 4 = 0 →
      ∃ t, exec (.stxy k x) s = .next t ∧ Safety.goesOn t k next (ds.drop 1) rs ∧
        t.leAt (coreMem k (arAddr c (g % 4)).toNat) 4 = b.toNat ∧
        (∀ z, (z < coreMem k (arAddr c (g % 4)).toNat ∨ coreMem k (arAddr c (g % 4)).toNat + 4 ≤ z) → t.byte z = s.byte z) ∧
        arOf (t.core k).cur (g % 4) = postMod (arOf c (g % 4)) ((c.sp (0x14 + g % 4)).toNat % 65536) (g / 4) ∧
        ((t.core k).cur.sp 0x18).toNat =
          min ((c.sp 0x18).toNat % 16) (min (headroom (fld b 0 16)) (headroom (fld b 16 16))) ∧
        Safety.coreKept (fun n => n == 0x18 || n == 0x10 + g % 4) Safety.nothing false s t k ∧
        Safety.changesOnly (fun _ _ _ => false) [.cores, .mem, .bad] s t) ∧
    (∀ (op : Nat) (e : Instr) (r m : Int), (op, e, r, m) ∈ ([(0x8C, .cadd k x, re a + re b, im a + im b),
        (0x8D, .csub k x, re a - re b, im a - im b)] : List (Nat × Instr × Int × Int)) → Safety.issues s k x op i →
      Safety.computes s k e next (packed (max (-32768) (min 32767 r)) (max (-32768) (min 32767 m)) :: ds.drop 2) rs
        (Safety.flagged st (decide (r < -32768 ∨ 32767 < r ∨ m < -32768 ∨ 32767 < m)))) ∧
    (Safety.issues s k x 0x8E i → Safety.computes s k (.cshr k x) next
      (packed (roundShift (re b) (g % 16) 1) (roundShift (im b) (g % 16) 1) :: ds.drop 1) rs st))

/-- Branches (R378 to R380, R386): with a NOP in the delay slot, each goes to its target or past the slot; the slot's
instruction is executed first; a slot-illegal one traps with both undone; RETT, REP and LOOP.
The model's choices in it: log 115. -/
def Obligations.BranchesGoToTheirTargets : Prop :=
  ∀ (k : Fin 32) (x : CoreEnv) (i : Insn) (s : State), Safety.calm s →
    (let ds := Safety.ds s k
    let rs := Safety.rs s k
    let st := Safety.status s k
    let u := cell ds 0
    let v := cell ds 1
    let target := i.last + 2 * i.immS
    let past := i.last + 4
    let r := cell rs 0
    let quiet (t : State) := Safety.changesOnly (fun _ _ _ => false) [.cores] s t
    (∀ (op : Nat) (e : Instr) (pc : Word) (ds' rs' : List Word), (op, e, pc, ds', rs') ∈ ([
        (0x90, .br k x, target, ds, rs), (0x91, .bz k x, if u = 0 then target else past, ds.drop 1, rs),
        (0x92, .bnz k x, if u = 0 then past else target, ds.drop 1, rs), (0x93, .call k x, target, ds, past :: rs),
        (0x94, .bri k x, u, ds.drop 1, rs), (0x95, .calli k x, u, ds.drop 1, past :: rs),
        (0x96, .ret k x, r &&& 0xFFFF, ds, rs.drop 1),
        (0x98, .loop k x, if r = 1 then past else target, ds, if r = 1 then rs.drop 1 else (r - 1) :: rs.drop 1)] ++
        (List.range 10).map (fun n => (0xD0 + n, .branchCompare k x, if condition n v u then target else past, ds.drop 2, rs))
        : List (Nat × Instr × Word × List Word × List Word)) →
      Safety.issues s k x op i → decodeAt s k .slot (i.last + 2) = .ok ⟨0, 0, 0, 0, i.last + 2⟩ →
      Safety.computes s k e pc ds' rs' st) ∧
    (∀ j, Safety.issues s k x 0x90 i → decodeAt s k .slot (i.last + 2) = .ok j → j.op = 0x10 → ds.length < 8 →
      Safety.computes s k (.br k x) target (j.immS :: ds) rs st) ∧
    (∀ w, Safety.issues s k x 0x91 i → decodeAt s k .slot (i.last + 2) = .trap 2 4 (some 0x90) w → Safety.trapRoom s k →
      ∃ t, exec (.bz k x) s = .next t ∧ Safety.traps s t k 2 4 (s.core k).pc ds true ∧ (t.core k).cur.sp 1 = w ∧
        (t.core k).cur.sp 2 = (i.last + 2) &&& 0xFFFF) ∧
    (Safety.issues s k x 0x97 i → (s.core k).bank ≠ fld r 16 2 →
      ∃ t, exec (.rett k x) s = .next t ∧ (t.core k).pc = BitVec.ofNat 32 (fld r 0 16) ∧ (t.core k).bank = fld r 16 2 ∧
        (t.core k).rep = bit r 18 ∧ (t.core k).run = .running ∧ ((t.core k).bk (s.core k).bank).rs = rs.drop 1 ∧
        ((t.core k).bk (s.core k).bank).ds = ds ∧ (t.core k).bk (fld r 16 2) = (s.core k).bk (fld r 16 2) ∧ quiet t) ∧
    (Safety.issues s k x 0x99 i →
      (let n := if i.immU = 0 then u else i.immU
      let ds' := if i.raw = 0 then ds.drop 1 else ds
      i.raw < 2 ^ 32 →
      (n ≠ 0 → ∃ t, exec (.rep k x) s = .next t ∧ (t.core k).pc = i.last + 2 ∧ (t.core k).rep = true ∧
        (t.core k).cur.sp 9 = n ∧ Safety.ds t k = ds' ∧ Safety.coreKept (· == 9) Safety.nothing false s t k ∧ quiet t) ∧
      (n = 0 → Safety.computes s k (.rep k x) past ds' rs st))))

/-- Events, landing slots, doorbells, outputs and instruction memory (R376, R381 to R383, R403, R413, R428,
R429).
The model's choices in it: logs 42, 43. -/
def Obligations.SystemInstructionsAct : Prop :=
  ∀ (k : Fin 32) (x : CoreEnv) (i : Insn) (s : State), Safety.calm s →
    (let ds := Safety.ds s k
    let rs := Safety.rs s k
    let st := Safety.status s k
    let next := i.last + 2
    let u := cell ds 0
    let quiet (t : State) := Safety.changesOnly (fun _ _ _ => false) [.cores] s t
    (Safety.issues s k x 0xA0 i → Safety.trapRoom s k → i.arg < 256 →
      ∃ t, exec (.trap k x) s = .next t ∧ Safety.traps s t k 9 i.arg next ds false ∧ quiet t) ∧
    (Safety.issues s k x 0xA1 i → Safety.trapRoom s k → x.claimed = false →
      ∃ t, exec (.brk k x) s = .next t ∧ Safety.traps s t k 10 0 next ds false ∧ quiet t) ∧
    (Safety.issues s k x 0xA1 i → x.claimed = true → debugScope s 0 = true →
      ∃ t, exec (.brk k x) s = .next t ∧ (t.core k).run = .halted ∧ (t.core k).pc = (s.core k).pc ∧ quiet t) ∧
    (Safety.issues s k x 0xA2 i → Safety.levelsFollow s →
      ∃ t, exec (.wait k x) s = .next t ∧ (t.core k).run = .inWait ∧ (t.core k).pc = (s.core k).pc ∧ Safety.ds t k = ds ∧
        quiet t) ∧
    (Safety.issues s k x 0xA3 i → (s.landing k 0).state = .filled → (s.landing k 1).state ≠ .filled →
      (∀ j, j ∈ s.sched.items → (s.landing k 0).item ≠ some (j.queue, j.pos)) →
      ∃ t, exec (.land k x) s = .next t ∧ Safety.goesOn t k next (0x30000 :: ds) rs ∧ (t.landing k 0).state = .taken ∧
        Safety.changesOnly (fun _ _ _ => false) [.cores, .slots] s t) ∧
    (Safety.issues s k x 0xA3 i → (s.landing k 0).state ≠ .filled → (s.landing k 1).state ≠ .filled → i.arg % 2 = 1 →
      Safety.computes s k (.land k x) next (0 :: ds) rs st) ∧
    (Safety.issues s k x 0xA3 i → (s.landing k 0).state ≠ .filled → (s.landing k 1).state ≠ .filled → i.arg % 2 = 0 →
      ∃ t, exec (.land k x) s = .next t ∧ (t.core k).run = .waiting ∧ (t.core k).pc = (s.core k).pc ∧ Safety.ds t k = ds ∧
        quiet t) ∧
    (∀ n : Fin 2, Safety.issues s k x 0xA4 i → u = BitVec.ofNat 32 (0x30000 + 0x60 * n) → (s.landing k n).state = .taken →
      (∀ j, j ∈ s.sched.items → (s.landing k n).item ≠ some (j.queue, j.pos)) →
      ∃ t, exec (.done k x) s = .next t ∧ Safety.goesOn t k next (ds.drop 1) rs ∧ t.landing k n = {} ∧
        Safety.changesOnly (fun _ _ _ => false) [.cores, .slots] s t) ∧
    (Safety.issues s k x 0xA4 i → u ≠ 0x30000 → u ≠ 0x30060 → Safety.trapRoom s k →
      ∃ t, exec (.done k x) s = .next t ∧ Safety.traps s t k 6 1 (s.core k).pc ds false ∧ quiet t) ∧
    (∀ (q : Fin 32) (d : Endpoint), Safety.issues s k x 0xA5 i → x.net = {} → q.val = u.toNat % 32 →
      wrongForm s (.core k) .dbell (coreMem q 0) 4 = false →
      carry (takeCells s k (needOf i)) (.core k) (requestOf (.core k) .dbell (coreMem q 0) 4) =
        (takeCells s k (needOf i), .target d false) →
      ∃ t, exec (.dbell k x) s = .next t ∧ Safety.goesOn t k next (ds.drop 1) rs ∧
        bit (t.rd .EVT_STATUS (pageOf (.core q))) 1 = true ∧
        Safety.changesOnly (fun r n _ => Safety.eventOf (.core q) r n) [.cores] s t) ∧
    (Safety.issues s k x 0xA6 i →
      ∃ t, exec (.synci k x) s = .next t ∧ Safety.goesOn t k next ds rs ∧
        (∀ a, a < 0x8000 → tget 0 (t.core k).code (coreMem k a) = s.byte (coreMem k a)) ∧ quiet t) ∧
    (Safety.issues s k x 0xA7 i → queueOfProd s 4 k none = none →
      ∃ t, exec (.out k x) s = .next t ∧ Safety.goesOn t k next (ds.drop 2) rs ∧
        t.rd .SC_OUT_DROP k = satAdd 32 (s.rd .SC_OUT_DROP k) 1 ∧
        Safety.changesOnly (fun r n _ => r == .SC_OUT_DROP && n == k.val) [.cores] s t) ∧
    (∀ q ep, Safety.issues s k x 0xA7 i → (∃ e, (s.queue q).beyond.head? = some e ∧ e.hold.isSome = true) →
      queueOfProd s 4 k none = some q → gqKind s q = 1 → outEpoch s k = some ep → 16 ≤ gqCap s q →
      failedEpoch s (coreDomain s k) ep = false → (s.domain (coreDomain s k)).next ≤ ep → (s.queue q).tail = [] →
      (s.queue q).skips = [] → (s.queue q).gaps = [] → gqPing s q = false → gqAppend s q + 16 ≤ gqFree s q + gqCap s q →
      gqReady s q (gqAppend s q) 16 = true →
      ∃ t, exec (.out k x) s = .next t ∧ Safety.goesOn t k next (ds.drop 2) rs ∧
        (t.queue q).beyond = (s.queue q).beyond ++ [{ len := 16, hold := some ep }] ∧ (t.queue q).stalled = false ∧
        (∀ n, n < 16 → t.byte (gqBase s q + (gqAppend s q + n) % gqCap s q) =
          (leBytes 4 (cell ds 1).toNat ++ leBytes 4 u.toNat ++ leBytes 4 (i.arg % 4) ++ leBytes 4 0).getD n 0) ∧
        Safety.changesOnly (fun r n _ => r == .GQ_STATUS && n == q) [.cores, .queues, .mem, .bad] s t) ∧
    (Safety.issues s k x 0xA8 i → u.toNat % 32 = 0 → (areaOf u.toNat = 1 ∨ areaOf u.toNat = 2) →
      queueOfProd s 4 k none = none →
      ∃ t, exec (.outd k x) s = .next t ∧ Safety.goesOn t k next (ds.drop 1) rs ∧
        t.rd .SC_OUT_DROP k = satAdd 32 (s.rd .SC_OUT_DROP k) 1 ∧
        Safety.changesOnly (fun r n _ => r == .SC_OUT_DROP && n == k.val) [.cores] s t) ∧
    (∀ q ep, Safety.issues s k x 0xA8 i → (∃ e, (s.queue q).beyond.head? = some e ∧ e.hold.isSome = true) →
      u.toNat % 32 = 0 → (areaOf u.toNat = 1 ∨ areaOf u.toNat = 2) → x.data = .ok →
      badIn s (coreMem k u.toNat) 32 = false → queueOfProd s 4 k none = some q → gqKind s q = 2 → outEpoch s k = some ep →
      32 ≤ gqCap s q → failedEpoch s (coreDomain s k) ep = false → (s.domain (coreDomain s k)).next ≤ ep →
      (s.queue q).tail = [] → (s.queue q).skips = [] → (s.queue q).gaps = [] → gqPing s q = false →
      gqAppend s q + 32 ≤ gqFree s q + gqCap s q → gqReady s q (gqAppend s q) 32 = true →
      ∃ t, exec (.outd k x) s = .next t ∧ Safety.goesOn t k next (ds.drop 1) rs ∧
        (t.queue q).beyond = (s.queue q).beyond ++ [{ len := 32, hold := some ep }] ∧ (t.queue q).stalled = false ∧
        (∀ n, n < 32 → t.byte (gqBase s q + (gqAppend s q + n) % gqCap s q) = s.byte (coreMem k u.toNat + n)) ∧
        Safety.changesOnly (fun r n _ => r == .GQ_STATUS && n == q) [.cores, .queues, .mem, .bad] s t) ∧
    (Safety.issues s k x 0xA8 i → u.toNat % 32 ≠ 0 → Safety.trapRoom s k →
      ∃ t, exec (.outd k x) s = .next t ∧ Safety.traps s t k 5 32 (s.core k).pc ds false ∧ (t.core k).cur.sp 5 = u) ∧
    (Safety.issues s k x 0xA9 i →
      Safety.computes s k (.stamp k x) next (hi32 (s.rd .PWR_TB) :: lo32 (s.rd .PWR_TB) :: ds) rs st))

/-- Traps and interrupts (R384 to R386, R397 to R401, R405 to R409): a reserved opcode traps EMULATE, a stack without its
region traps STACK_LIMIT into bank T, a trap in bank T is a double stack fault, and the highest requested level is taken, but
not inside an access and not at once in a repetition; a core that is to stop does so behind the instruction (R401, R410).
The model's choices in it: logs 114, 141. -/
def Obligations.TrapsAndInterruptsEnter : Prop :=
  (∀ (k : Fin 32) (x : CoreEnv) (op : Nat) (w : Word) (s : State), Safety.calm s → coreWorks s k = true →
    (s.core k).run ≠ .inWait → (s.core k).rep = false → x.fetch = .ok → (s.core k).stopping = false →
    (s.core k).mirrors = [] →
    decodeAt s k .normal (s.core k).pc = .trap 2 0 (some op) w → formOf op = none → Safety.trapRoom s k →
    ∃ t, exec (.reservedOpcode k x) s = .next t ∧ Safety.traps s t k 2 0 (s.core k).pc (Safety.ds s k) false ∧
      (t.core k).cur.sp 1 = w ∧ (t.core k).cur.sp 2 = (s.core k).pc &&& 0xFFFF ∧
      Safety.changesOnly (fun _ _ _ => false) [.cores] s t) ∧
  (∀ (k : Fin 32) (x : CoreEnv) (i : Insn) (s : State), Safety.calm s → coreWorks s k = true → (s.core k).run ≠ .inWait →
    (s.core k).rep = false → x.fetch = .ok → (s.core k).stopping = false → (s.core k).mirrors = [] →
    decodeAt s k .normal (s.core k).pc = .ok i →
    i.op = 0x01 → (s.core k).bank < 4 →
    Safety.ds s k = [] → (Safety.rs s k).length ≤ 8 → regionOk (s.core k).cur = false →
    ∃ t, exec (.drop k x) s = .next t ∧ (t.core k).bank = bankT ∧
      (t.core k).pc = (s.core k).vbase + 0x30 ∧ (t.core k).cur.ds = [] ∧
      (t.core k).cur.rs = [frame (s.core k).pc (s.core k).bank false] ∧ (t.core k).cur.sp 3 = (s.core k).pc ∧
      (t.core k).cur.sp 4 = BitVec.ofNat 32 (3 + 65536 * (s.core k).bank) ∧
      (t.core k).bk (s.core k).bank = (s.core k).cur ∧ Safety.changesOnly (fun _ _ _ => false) [.cores] s t) ∧
  (∀ (k : Fin 32) (x : CoreEnv) (i : Insn) (s : State), Safety.calm s → Safety.issues s k x 0xA0 i →
    (s.core k).bank = bankT →
    ∃ t, exec (.trap k x) s = .next t ∧ (t.core k).run = .halted ∧ bit (t.rd .EVT_STATUS (pageOf (.core k))) 0 = true ∧
      bit (t.rd .EVT_STATUS (pageOf .epochs)) 0 = true) ∧
  (∀ (k : Fin 32) (x : CoreEnv) (l : Nat) (s : State), Safety.calm s → coreWorks s k = true →
    (s.core k).stopping = false → interruptible (s.core k) x.since = true → levelToTake s k = some l →
    (((s.core k).bk l).ds.length ≤ 16 ∧ ((s.core k).bk l).rs.length < 8) →
    ∃ t, exec (.interruptEntry k x) s = .next t ∧ (t.core k).bank = l ∧
      (t.core k).pc = (s.core k).vbase + BitVec.ofNat 32 (16 * (16 + l)) ∧ (t.core k).rep = false ∧ (t.core k).run = .running ∧
      ((t.core k).bk l).rs = frame (s.core k).pc (s.core k).bank (s.core k).rep :: ((s.core k).bk l).rs ∧
      ((t.core k).bk l).ds = ((s.core k).bk l).ds ∧ Safety.changesOnly (fun _ _ _ => false) [.cores] s t) ∧
  (∀ (k : Fin 32) (x : CoreEnv) (s : State), Safety.calm s →
    (s.core k).run = .blocked ∨ ((s.core k).rep = true ∧ x.since < 32) →
    ∃ t, exec (.interruptEntry k x) s = .next t ∧ Safety.changesOnly (fun _ _ _ => false) [] s t) ∧
  (∀ (k : Fin 32) (x : CoreEnv) (i : Insn) (s : State), Safety.calm s → coreWorks s k = true → (s.core k).run ≠ .inWait →
    (s.core k).rep = false → x.fetch = .ok → (s.core k).stopping = true → (s.core k).mirrors = [] →
    decodeAt s k .normal (s.core k).pc = .ok i →
    i.op = 0x00 →
    ∃ t, exec (.nop k x) s = .next t ∧ (t.core k).pc = i.last + 2 ∧ (t.core k).stopped = true ∧
      (t.core k).stopping = false ∧ Safety.changesOnly (fun _ _ _ => false) [.cores] s t)

/-! Chapter 14, and the core page of chapter 13. -/

/-- Running, stopping and resetting a core, its doorbell and bank mirrors (R404, R407, R410, R413, R430).
The model's choices in it: logs 16, 141. -/
def Obligations.CoresFollowTheirPages : Prop :=
  (∀ (q : Requester) (k : Fin 32) (s : State), Safety.calm s → Safety.serves s q (.core k) .SC_CTRL k 0 →
    (s.core k).inReset = false →
    (∃ t, exec (.coreRun q k) s = .next t ∧ t.rd .SC_CTRL k = setBit (s.rd .SC_CTRL k) 0 true ∧
      (t.core k).stopping = false ∧ (t.core k).stopped = ((s.core k).stopping && (s.core k).stopped) ∧
      (t.core k).bank = (s.core k).bank ∧ ((s.core k).run ≠ .inWait → (t.core k).pc = (s.core k).pc) ∧
      ((s.core k).stopping = false → (s.core k).stopped = true → (s.core k).fresh = true →
        (t.core k).code = (syncCode s k |>.core k).code) ∧
      (∀ j, j ≠ k.val → (s.core j).run ≠ .inWait → t.core j = s.core j) ∧
      Safety.changesOnly (fun r i _ => r == .SC_CTRL && i == k.val) [.captured, .cores] s t) ∧
    (∃ t, exec (.coreStop q k) s = .next t ∧ t.rd .SC_CTRL k = setBit (s.rd .SC_CTRL k) 0 false ∧
      (t.core k).stopped = ((s.core k).stopped || atBoundary (s.core k)) ∧
      ((s.core k).stopped = false → atBoundary (s.core k) = false → (t.core k).stopping = true) ∧
      (t.core k).banks = (s.core k).banks ∧ ((s.core k).run ≠ .inWait → (t.core k).pc = (s.core k).pc) ∧
      (∀ j, j ≠ k.val → (s.core j).run ≠ .inWait → t.core j = s.core j) ∧
      Safety.changesOnly (fun r i _ => r == .SC_CTRL && i == k.val) [.captured, .cores] s t)) ∧
  (∀ (q : Requester) (k : Fin 32) (run : Bool) (s : State), Safety.calm s → Safety.serves s q (.core k) .SC_CTRL k 0 →
    s.power.inReset = false →
    ∃ t, exec (.coreReset q k run) s = .next t ∧ t.core k = { code := (s.core k).code, inReset := true } ∧
      bit (t.rd .SC_CTRL k) 0 = run ∧ (∀ i, i < 2 → (t.landing k i).state =
        if (s.landing k i).state = .filling then .filling else .empty) ∧
      (∀ i, i < 2 → (s.landing k i).state = .filling → (t.landing k i).drop = true) ∧
      (s.sched.items = [] → (∀ r i j, blockOfKey ⟨r, i, j⟩ ≠ some (.core k) → Safety.ambient r = false →
        t.rd r i j = s.rd r i j) ∧
        ∀ p, p ∉ [.staged, .captured, .force, .reqs, .cores, .slots] → Safety.partKept p s t)) ∧
  (∀ (q : Requester) (k : Fin 32) (run : Bool) (j : Item) (s : State), Safety.calm s →
    Safety.serves s q (.core k) .SC_CTRL k 0 → s.power.inReset = false → s.sched.items = [j] → j.state = .inSlot →
    j.core = k.val → j.slot < 2 → (s.landing k j.slot).item = some (j.queue, j.pos) →
    ∃ t, exec (.coreReset q k run) s = .next t ∧ bit (t.rd .EVT_STATUS (pageOf .sched)) 1 = true ∧
      ((s.landing k j.slot).state ≠ .taken ∨ bit (s.rd .FLW_CTRL j.flow) 28 = true →
        t.sched.items = [{ j with state := .again }] ∧ t.rd .SCH_ABANDON_CNT = s.rd .SCH_ABANDON_CNT) ∧
      ((s.landing k j.slot).state = .taken → bit (s.rd .FLW_CTRL j.flow) 28 = false →
        t.rd .SCH_ABANDON_CNT = satAdd 32 (s.rd .SCH_ABANDON_CNT) 1)) ∧
  (∀ (k : Fin 32) (s : State), Safety.calm s → s.up (.core k) = true → (s.core k).inReset = true → (s.core k).stopped = true →
    (s.core k).stopping = false →
    ∃ t, exec (.coreResetDone k) s = .next t ∧ (t.core k).inReset = false ∧
      (t.core k).stopped = !bit (s.rd .SC_CTRL k) 0 ∧ ((s.core k).run ≠ .inWait → (t.core k).pc = (s.core k).pc) ∧
      (∀ j, j ≠ k.val → (s.core j).run ≠ .inWait → t.core j = s.core j) ∧
      Safety.changesOnly (fun _ _ _ => false) [.cores] s t) ∧
  (∀ (q : Requester) (k : Fin 32) (s : State), Safety.calm s → Safety.serves s q (.core k) .SC_DBELL_SET k 0 →
    ∃ t, exec (.doorbellSet q k) s = .next t ∧ bit (t.rd .EVT_STATUS (pageOf (.core k))) 1 = true ∧
      Safety.changesOnly (fun r i _ => Safety.eventOf (.core k) r i) [.captured] s t) ∧
  (∀ (q : Requester) (k : Fin 32) (b : Fin 4) (v : Word) (s : State), Safety.calm s →
    Safety.serves s q (.core k) .SC_BK_DS_BASE k b → boundOk v = true → (s.core k).run ≠ .halted →
    (s.core k).run ≠ .blocked →
    ∃ t, exec (.bankMirrorWrite q k b 0 v) s = .next t ∧ ((t.core k).bk b).sp 0x0A = v &&& 0xFFFFFFFC ∧
      ((t.core k).bk b).dsp = v &&& 0xFFFFFFFC ∧ ((t.core k).bk b).ds = ((s.core k).bk b).ds ∧
      (∀ c, c ≠ b.val → (t.core k).bk c = (s.core k).bk c) ∧
      Safety.changesOnly (fun _ _ _ => false) [.captured, .cores] s t) ∧
  (∀ (q : Requester) (k : Fin 32) (b : Fin 4) (v : Word) (s : State), Safety.calm s →
    Safety.serves s q (.core k) .SC_BK_DS_LIMIT k b → boundOk v = true → (s.core k).run ≠ .halted →
    (s.core k).run ≠ .blocked →
    ∃ t, exec (.bankMirrorWrite q k b 1 v) s = .next t ∧ ((t.core k).bk b).sp 0x0B = v &&& 0xFFFFFFFC ∧
      ((t.core k).bk b).rsp = v &&& 0xFFFFFFFC ∧ (∀ c, c ≠ b.val → (t.core k).bk c = (s.core k).bk c) ∧
      Safety.changesOnly (fun _ _ _ => false) [.captured, .cores] s t) ∧
  (∀ (q : Requester) (k : Fin 32) (b : Fin 4) (v : Word) (s : State), Safety.calm s →
    Safety.serves s q (.core k) .SC_BK_DSP k b → (s.core k).run ≠ .halted → (s.core k).run ≠ .blocked →
    ∃ t, exec (.bankMirrorWrite q k b 2 v) s = .next t ∧ ((t.core k).bk b).dsp = v &&& 0xFFFFFFFC ∧
      ((t.core k).bk b).sp 0x0A = ((s.core k).bk b).sp 0x0A ∧ (∀ c, c ≠ b.val → (t.core k).bk c = (s.core k).bk c) ∧
      Safety.changesOnly (fun _ _ _ => false) [.captured, .cores] s t) ∧
  (∀ (q : Requester) (k : Fin 32) (b : Fin 4) (v : Word) (s : State), Safety.calm s →
    Safety.serves s q (.core k) .SC_BK_RSP k b → (s.core k).run ≠ .halted → (s.core k).run ≠ .blocked →
    ∃ t, exec (.bankMirrorWrite q k b 3 v) s = .next t ∧ ((t.core k).bk b).rsp = v &&& 0xFFFFFFFC ∧
      ((t.core k).bk b).sp 0x0B = ((s.core k).bk b).sp 0x0B ∧ (∀ c, c ≠ b.val → (t.core k).bk c = (s.core k).bk c) ∧
      Safety.changesOnly (fun _ _ _ => false) [.captured, .cores] s t) ∧
  (∀ (q : Requester) (k : Fin 32) (b which : Fin 4) (r : Reg) (v : Word) (s : State), Safety.calm s →
    (which.val, r) ∈ [(0, .SC_BK_DS_BASE), (1, .SC_BK_DS_LIMIT), (2, .SC_BK_DSP), (3, .SC_BK_RSP)] →
    Safety.serves s q (.core k) r k b → (s.core k).run = .halted → boundOk v = true →
    ∃ t, exec (.bankMirrorWrite q k b which v) s = .next t ∧ Safety.changesOnly (fun _ _ _ => false) [.captured] s t) ∧
  (∀ (q : Requester) (k : Fin 32) (b which : Fin 4) (r : Reg) (v : Word) (s : State), Safety.calm s →
    (which.val, r) ∈ [(0, .SC_BK_DS_BASE), (1, .SC_BK_DS_LIMIT), (2, .SC_BK_DSP), (3, .SC_BK_RSP)] →
    Safety.serves s q (.core k) r k b → (s.core k).run = .blocked → boundOk v = true →
    ∃ t w, exec (.bankMirrorWrite q k b which v) s = .next t ∧ w &&& 0xFFFFFFFC = v &&& 0xFFFFFFFC ∧
      t.core k = { s.core k with mirrors := (s.core k).mirrors ++ [(b.val, which.val, w)] } ∧
      Safety.changesOnly (fun _ _ _ => false) [.captured, .cores] s t) ∧
  (∀ (k : Fin 32) (x : CoreEnv) (i : Insn) (b : Nat) (v : Word) (s : State), Safety.calm s → coreWorks s k = true →
    (s.core k).stopping = false → (s.core k).run = .blocked → (s.core k).rep = false → x.fetch = .ok →
    decodeAt s k .normal (s.core k).pc = .ok i → i.op = 0x7B → Safety.cellsReady (s.core k) (needOf i) →
    storesOut s k = [] → (s.core k).storeErr = none → (s.core k).mirrors = [(b, 2, v)] →
    ∃ t, exec (.fence k x) s = .next t ∧ (t.core k).run = .running ∧ (t.core k).pc = i.last + 2 ∧ (t.core k).mirrors = [] ∧
      ((t.core k).bk b).dsp = v &&& 0xFFFFFFFC ∧ Safety.changesOnly (fun _ _ _ => false) [.cores] s t)

/-- The scheduler (R417, R418, R421 to R423, R425 to R427, R437): stray heads are released at once; of the candidates, one of
the highest priority class, and the next class in turn, goes to a core's lower-numbered EMPTY slot with its flow's DSEQ; the
slot fills; waits for affinity expire; a starved flow is recorded; a flow is enabled, or refused with FLOW_INVALID.
The model's choices in it: log 14. -/
def Obligations.SchedulerDispatchesItems : Prop :=
  (∀ (f k : Nat) (d : List Byte) (s : State), Safety.calm s → s.ready .sched = true → s.pwrState < 2 → Safety.noStrays s →
    choose s (Safety.candidates s) = some f → offer s f = some (.head d) → coreFor s f false = some k →
    (s.queue (flwQueue s f)).skips = [] → (readEntry s (flwQueue s f)).1 = s → Safety.copiesAgree s →
    bit (s.rd .SCH_TRACE_CTRL) 0 = false →
    ∃ t, exec .dispatch s = .next t ∧ (t.landing k (Safety.freeSlot s k)).state = .filling ∧
      (t.landing k (Safety.freeSlot s k)).bytes = d ∧ (t.landing k (Safety.freeSlot s k)).flow = f ∧
      (t.landing k (Safety.freeSlot s k)).item = some (flwQueue s f, gqRead s (flwQueue s f)) ∧
      gqRead t (flwQueue s f) = min (gqRead s (flwQueue s f) + 32) (gqWrite s (flwQueue s f)) ∧
      t.rdf .FLW_STATUS 8 5 f = k ∧ bit (t.rd .FLW_STATUS f) 13 = true ∧
      t.rdf .FLW_STATUS 16 16 f = (s.rdf .FLW_STATUS 16 16 f + 1) % 65536 ∧
      t.rd .SCH_DISPATCH_CNT = satAdd 64 (s.rd .SCH_DISPATCH_CNT) 1 ∧
      (∃ i, t.sched.items = s.sched.items ++ [i] ∧ i.state = .inSlot ∧ i.flow = f ∧ i.queue = flwQueue s f ∧
        i.pos = gqRead s (flwQueue s f) ∧ i.dseq = s.rdf .FLW_STATUS 16 16 f ∧ i.core = k ∧ i.slot = Safety.freeSlot s k) ∧
      Safety.changesOnly (fun r i _ => r == .FLW_STATUS || r == .SCH_DISPATCH_CNT ||
        ((r == .GQ_READ || r == .GQ_STATUS) && i == flwQueue s f)) [.queues, .sched, .slots] s t) ∧
  (∀ (f k : Nat) (j : Item) (s : State), Safety.calm s → s.ready .sched = true → s.pwrState < 2 → Safety.noStrays s →
    choose s (Safety.candidates s) = some f → offer s f = some (.again j) → coreFor s f true = some k →
    bit (s.rd .SCH_TRACE_CTRL) 4 = false →
    ∃ t, exec .dispatch s = .next t ∧ (t.landing k (Safety.freeSlot s k)).state = .filling ∧
      (t.landing k (Safety.freeSlot s k)).bytes = j.desc ∧
      (t.landing k (Safety.freeSlot s k)).item = some (j.queue, j.pos) ∧
      t.rdf .FLW_STATUS 16 16 f = s.rdf .FLW_STATUS 16 16 f ∧ t.rd .SCH_DISPATCH_CNT = satAdd 64 (s.rd .SCH_DISPATCH_CNT) 1 ∧
      Safety.changesOnly (fun r _ _ => r == .FLW_STATUS || r == .SCH_DISPATCH_CNT) [.sched, .slots] s t) ∧
  (∀ (s : State), Safety.calm s → s.ready .sched = true → s.pwrState < 2 → Safety.noStrays s →
    choose s (Safety.candidates s) = none →
    ∃ t, exec .dispatch s = .next t ∧ t.sched = { s.sched with waits := t.sched.waits } ∧
      (∀ f, f ∈ enabledFlows s → (offer s f).any (!isAgain ·) = true → anyCore s f = true → bit (flwStatus t f) 14 = true) ∧
      Safety.changesOnly (fun _ _ _ => false) [.sched] s t) ∧
  (∀ (f : Nat) (flows : List Nat) (s : State), choose s flows = some f →
    f ∈ flows ∧ (∀ g, g ∈ flows → s.rdf .SCH_CLASS 0 4 0 (flwClass s g) ≤ s.rdf .SCH_CLASS 0 4 0 (flwClass s f)) ∧
    (∀ g c, g ∈ flows → s.rdf .SCH_CLASS 0 4 0 (flwClass s g) = s.rdf .SCH_CLASS 0 4 0 (flwClass s f) →
      tget none s.sched.lastClass (s.rdf .SCH_CLASS 0 4 0 (flwClass s f)) = some c → c < flwClass s g →
      c < flwClass s f ∧ flwClass s f ≤ flwClass s g)) ∧
  (∀ (q : Nat) (d : List Byte) (s : State), Safety.calm s → s.ready .sched = true → s.pwrState < 2 → itemQueues s = [q] →
    Safety.copiesAgree s → gqWrite s q = gqRead s q + 32 → headItem s q = some d → isStray s q d = true → (s.queue q).skips = [] →
    s.rd .SCH_TRACE_CTRL = 0 →
    ∃ t, exec .dispatch s = .next t ∧ t.rd .SCH_STRAY_CNT = satAdd 32 (s.rd .SCH_STRAY_CNT) 1 ∧
      t.rd .SCH_STRAY_INFO = BitVec.ofNat 64 (flowOf d + 4096 * q + 2 ^ 31) ∧ gqRead t q = gqWrite s q ∧
      bit (t.rd .EVT_STATUS (pageOf .sched)) 0 = true) ∧
  (∀ (k : Fin 32) (i : Fin 2) (e : Ecc) (data : List Byte) (s : State), Safety.calm s → (s.landing k i).state = .filling →
    (s.landing k i).drop = false → (s.landing k i).bytes.length = 32 →
    (prefetch s (s.landing k i).bytes e).2 = some data →
    ∃ t, exec (.slotFill k i e) s = .next t ∧ (t.landing k i).state = .filled ∧
      (t.landing k i).bytes.drop 8 = (s.landing k i).bytes.drop 8 ++ data ++ List.replicate (64 - data.length) 0 ∧
      (∀ j : Item, s.sched.items = [j] → (s.landing k i).item = some (j.queue, j.pos) →
        ((t.landing k i).bytes.take 8).drop 6 = leBytes 2 j.dseq)) ∧
  (∀ (k : Fin 32) (i : Fin 2) (e : Ecc) (s : State), Safety.calm s → (s.landing k i).state = .filling →
    (s.landing k i).drop = false → (s.landing k i).bytes.length = 32 →
    (prefetch s (s.landing k i).bytes e).2 = none →
    ∃ t, exec (.slotFill k i e) s = .next t ∧ (t.landing k i).state = .filled ∧
      (t.landing k i).bytes.drop 32 = List.replicate 64 0 ∧ leNat (((t.landing k i).bytes.drop 12).take 1) / 4 % 2 = 1 ∧
      bit (t.rd .EVT_STATUS (pageOf .sched)) 5 = true) ∧
  (∀ (k : Fin 32) (i : Fin 2) (e : Ecc) (s : State), Safety.calm s → (s.landing k i).state = .filling →
    (s.landing k i).drop = true →
    ∃ t, exec (.slotFill k i e) s = .next t ∧ t.landing k i = {} ∧ Safety.changesOnly (fun _ _ _ => false) [.slots] s t) ∧
  (∀ (f : Fin 4096) (d : List Byte) (s : State), Safety.calm s → s.ready .sched = true → s.pwrState < 2 →
    Safety.copiesAgree s → bit (flwStatus s f) 14 = true → offer s f = some (.head d) → s.rd .SCH_TRACE_CTRL = 0 →
    (readEntry s (flwQueue s f)).1 = s →
    ∃ t, exec (.affExpire f) s = .next t ∧ bit (flwStatus t f) 14 = false ∧
      t.rd .SCH_DISPATCH_CNT = (if anyCore s f then satAdd 64 (s.rd .SCH_DISPATCH_CNT) 1 else s.rd .SCH_DISPATCH_CNT) ∧
      Safety.changesOnly (fun r i _ => r == .FLW_STATUS || r == .SCH_DISPATCH_CNT ||
        ((r == .GQ_READ || r == .GQ_STATUS) && i == flwQueue s f)) [.queues, .sched, .slots] s t) ∧
  (∀ (f : Fin 4096) (s : State), Safety.calm s → s.ready .sched = true → s.rd .SCH_STARVE_INT ≠ 0 →
    (offer s f).any (!isAgain ·) = true → anyCore s f = false →
    ∃ t, exec (.starved f) s = .next t ∧ bit (t.rd .EVT_STATUS (pageOf .sched)) 4 = true ∧
      t.rd .SCH_STARVE_FLOW = (if bit (s.rd .SCH_STARVE_FLOW) 31 then s.rd .SCH_STARVE_FLOW else BitVec.ofNat 64 (f + 2 ^ 31)) ∧
      Safety.changesOnly (fun r i _ => Safety.eventOf .sched r i || r == .SCH_STARVE_FLOW) [] s t) ∧
  (∀ (q : Requester) (f : Fin 4096) (s : State), Safety.calm s → Safety.serves s q .sched .FLW_CTRL f 0 → flwEn s f = false →
    flwMode s f ≠ 3 → s.rdf .FLW_CTRL 10 8 f ≤ 200 →
    (∃ t, exec (.flowEnable q f) s = .next t ∧
      (gqEn s (flwQueue s f) = true ∧ gqKind s (flwQueue s f) = 2 ∧ (gqCons s (flwQueue s f)).1 = 2 ∧ s.rd .FLW_CORES f ≠ 0 →
        t.rd .FLW_CTRL f = setBit (s.rd .FLW_CTRL f) 0 true ∧
        Safety.changesOnly (fun r i _ => r == .FLW_CTRL && i == f.val) [.captured] s t) ∧
      (¬(gqEn s (flwQueue s f) = true ∧ gqKind s (flwQueue s f) = 2 ∧ (gqCons s (flwQueue s f)).1 = 2 ∧
          s.rd .FLW_CORES f ≠ 0) →
        flwEn t f = false ∧ (s.rd .FAULT_COUNT (pageOf .sched) = 0 →
          t.rd .FAULT_REC0 (pageOf .sched) = BitVec.ofNat 64 (0x01000000 + f)) ∧
        Safety.changesOnly (fun r i _ => Safety.faultOf .sched r i) [.captured] s t)))

/-! Chapter 15: scratchpad banks. -/

/-- Banks (R447 to R452, R456, R457): handover, the DMA engine's START, ABORT and end, power states, the background test.
The model's choices in it: logs 12, 96. -/
def Obligations.BanksFollowTheirCommands : Prop :=
  (∀ (q : Requester) (b : Fin 64) (v : Word) (s : State), Safety.calm s → Safety.serves s q .banks .SPB_OWNER b 0 →
    dmaBusy s b = false → (s.rdf .SPB_OWNER 0 3 b = 3 → bankPing s b = false) → fld v 0 3 ≤ 4 →
    (fld v 0 3 = 1 → fld v 8 6 < 32) → (fld v 0 3 = 2 → fld v 8 6 < 48) →
    ∃ t, exec (.bankHandover q b v) s = .next t ∧ t.rd .SPB_OWNER b = merge 0x13F07 (s.rd .SPB_OWNER b) (ext v) ∧
      Safety.changesOnly (fun r i _ => r == .SPB_OWNER && i == b.val) [.captured] s t) ∧
  (∀ (q : Requester) (b : Fin 64) (v : Word) (s : State), Safety.calm s → Safety.serves s q .banks .SPB_OWNER b 0 →
    (dmaBusy s b = true ∨ (s.rdf .SPB_OWNER 0 3 b = 3 ∧ bankPing s b = true)) → s.rd .FAULT_COUNT (pageOf .banks) = 0 →
    ∃ t, exec (.bankHandover q b v) s = .next t ∧
      t.rd .FAULT_REC0 (pageOf .banks) = BitVec.ofNat 64 (0x00020000 + 256 * b) ∧
      Safety.changesOnly (fun r i _ => Safety.faultOf .banks r i) [.captured] s t) ∧
  (∀ (q : Requester) (b : Fin 64) (out : Bool) (s : State), Safety.calm s → Safety.serves s q .banks .SPB_DMA_CMD b 0 →
    dmaBusy s b = false → dmaOk s b = true →
    ∃ t, exec (.bankDmaStart q b out) s = .next t ∧ t.rd .SPB_DMA_STATUS b = 1 ∧
      t.spb b = { s.spb b with out := out, stuck := false, ofs := (s.rd .SPB_DMA_OFS b).toNat,
                               addr := (s.rd .SPB_DMA_ADDR b).toNat, len := (s.rd .SPB_DMA_LEN b).toNat } ∧
      Safety.changesOnly (fun r i _ => r == .SPB_DMA_STATUS && i == b.val) [.captured, .spbs] s t) ∧
  (∀ (q : Requester) (b : Fin 64) (out : Bool) (s : State), Safety.calm s → Safety.serves s q .banks .SPB_DMA_CMD b 0 →
    (dmaBusy s b = true ∨ dmaOk s b = false) → s.rd .FAULT_COUNT (pageOf .banks) = 0 →
    ∃ t, exec (.bankDmaStart q b out) s = .next t ∧
      t.rd .FAULT_REC0 (pageOf .banks) = BitVec.ofNat 64 (0x00020034 + 256 * b) ∧
      Safety.changesOnly (fun r i _ => Safety.faultOf .banks r i) [.captured] s t) ∧
  (∀ (q : Requester) (b : Fin 64) (s : State), Safety.calm s → Safety.serves s q .banks .SPB_DMA_CMD b 0 →
    (∃ t, exec (.bankDmaAbort q b) s = .next t ∧
      (dmaBusy s b = true → (s.spb b).stuck = false → t.rd .SPB_DMA_STATUS b = 0 ∨ dmaState t b = 3 ∧
        bit (t.rd .EVT_STATUS (pageOf .banks)) 3 = true) ∧
      (dmaBusy s b = false ∨ (s.spb b).stuck = true → Safety.changesOnly (fun _ _ _ => false) [.captured] s t))) ∧
  (∀ (b : Fin 64) (bs : List Byte) (s : State), Safety.calm s → dmaBusy s b = true → (s.spb b).stuck = false →
    (s.spb b).out = false → bankState s b = 0 → dmaPacket (s.spb b).addr (s.spb b).len = (s.spb b).len →
    busRead s (.bankDma b) (s.spb b).addr (s.spb b).len = (s, .ok, bs) → bs.length = (s.spb b).len →
    (let ba := dmaBank s b
    ∃ t, exec (.bankDmaEnd b .ok) s = .next t ∧ t.rd .SPB_DMA_STATUS b = 2 ∧ t.bytes ba bs.length = bs ∧
      (∀ a, a < ba ∨ ba + bs.length ≤ a → t.byte a = s.byte a) ∧ bit (t.rd .EVT_STATUS (pageOf .banks)) 3 = true ∧
      Safety.changesOnly (fun r i _ => Safety.eventOf .banks r i || (r == .SPB_DMA_STATUS && i == b.val)) [.mem, .bad] s t)) ∧
  (∀ (b : Fin 64) (e : Ecc) (s : State), Safety.calm s → dmaBusy s b = true → (s.spb b).stuck = false →
    (dmaWhole s b e).1.epo.detected = [] →
    ∃ t, exec (.bankDmaEnd b e) s = .next t ∧
      (match (dmaWhole s b e).2 with
      | some (.noAnswer, _) => (t.spb b).stuck = true
      | some (st, ga) => t.rd .SPB_DMA_STATUS b = BitVec.ofNat 64 (3 + 16 * st.code) ∧
          t.rd .SPB_DMA_FAIL b = BitVec.ofNat 64 ga ∧ bit (t.rd .EVT_STATUS (pageOf .banks)) 3 = true
      | none => t.rd .SPB_DMA_STATUS b = 2 ∧ bit (t.rd .EVT_STATUS (pageOf .banks)) 3 = true)) ∧
  (∀ (q : Requester) (b : Fin 64) (v : Word) (s : State), Safety.calm s → Safety.serves s q .banks .SPB_PWR b 0 →
    fld v 0 2 ≠ 3 → fld v 4 2 ≠ 3 → (fld v 0 2 = 0 ∨ (dmaBusy s b = false ∧ bankPing s b = false)) →
    ∃ t, exec (.bankPowerRequest q b v) s = .next t ∧ t.rd .SPB_PWR b = merge 0x33 (s.rd .SPB_PWR b) (ext v) ∧
      bankState t b = (if bankState s b = fld v 0 2 then bankState s b else 3) ∧
      Safety.changesOnly (fun r i _ => (r == .SPB_PWR || r == .SPB_STATUS) && i == b.val) [.captured, .spbs] s t) ∧
  (∀ (q : Requester) (b : Fin 64) (v : Word) (s : State), Safety.calm s → Safety.serves s q .banks .SPB_PWR b 0 →
    fld v 0 2 ≠ 3 → fld v 0 2 ≠ 0 → (dmaBusy s b = true ∨ bankPing s b = true) → s.rd .FAULT_COUNT (pageOf .banks) = 0 →
    ∃ t, exec (.bankPowerRequest q b v) s = .next t ∧
      t.rd .FAULT_REC0 (pageOf .banks) = BitVec.ofNat 64 (0x00020004 + 256 * b) ∧
      Safety.changesOnly (fun r i _ => Safety.faultOf .banks r i) [.captured] s t) ∧
  (∀ (b : Fin 64) (s : State), Safety.calm s → bankState s b = 3 →
    ∃ t, exec (.bankPowerDone b) s = .next t ∧ bankState t b = s.rdf .SPB_PWR 0 2 b ∧
      (∀ a, bankBase + b.val * 2 ^ 18 ≤ a → a < bankBase + (b.val + 1) * 2 ^ 18 →
        t.byte a = if s.rdf .SPB_PWR 0 2 b = 2 then 0 else s.byte a) ∧
      (∀ a, a < bankBase + b.val * 2 ^ 18 ∨ bankBase + (b.val + 1) * 2 ^ 18 ≤ a → t.byte a = s.byte a) ∧
      Safety.changesOnly (fun r i _ => r == .SPB_STATUS && i == b.val) [.mem, .bad] s t) ∧
  (∀ (b : Fin 64) (spares : BitVec 4) (s : State), Safety.calm s → bit (s.rd .SPB_TEST b) 0 = true → bankState s b = 0 →
    s.asleep = false →
    (let row := s.rdf .SPB_TEST_STATUS 0 8 b
    (∃ t, exec (.rowTest b false spares) s = .next t ∧ t.rdf .SPB_TEST_STATUS 0 8 b = (row + 1) % 256 ∧
      t.rdf .SPB_TEST_STATUS 16 16 b = (if row = 255 then min (s.rdf .SPB_TEST_STATUS 16 16 b + 1) 0xFFFF
        else s.rdf .SPB_TEST_STATUS 16 16 b) ∧
      Safety.changesOnly (fun r i _ => r == .SPB_TEST_STATUS && i == b.val) [] s t) ∧
    (bit (s.spb b).used 0 = false → bit spares 0 = false →
      ∃ t, exec (.rowTest b true spares) s = .next t ∧ (t.spb b).used = (s.spb b).used ||| 1 ∧ t.rdf .SPB_REPAIR 0 8 b = row ∧
        bit (t.rd .EVT_STATUS (pageOf .banks)) 0 = true ∧
        Safety.changesOnly (fun r i _ => Safety.eventOf .banks r i ||
          ((r == .SPB_TEST_STATUS || r == .SPB_REPAIR) && i == b.val)) [.spbs] s t) ∧
    ((s.spb b).used = 15 →
      ∃ t, exec (.rowTest b true spares) s = .next t ∧ t.rdf .SPB_STATUS 4 1 b = 1 ∧
        bit (t.rd .EVT_STATUS (pageOf .banks)) 1 = true ∧ (s.rd .FAULT_COUNT (pageOf .banks) = 0 →
          t.rd .FAULT_REC0 (pageOf .banks) = BitVec.ofNat 64 (0x01010000 + b + 256 * row)) ∧
        Safety.changesOnly (fun r i _ => Safety.eventOf .banks r i || Safety.faultOf .banks r i ||
          ((r == .SPB_TEST_STATUS || r == .SPB_STATUS) && i == b.val)) [] s t)))

/-! Chapter 16: epochs. -/

/-- Boundaries and their placing (R462 to R465, R474, R585, R601): a boundary advances the epoch number, records each input
queue's pending mark, takes the FEC snapshots, and marks late domains; sync edges place boundaries or count as slips.
The model's choices in it: logs 74, 95. -/
def Obligations.BoundariesFall : Prop :=
  (∀ (upsets : List DetourUpset) (s : State), Safety.calm s → s.power.inReset = false → s.asleep = false →
    ∃ t, exec (.epochBoundary upsets) s = .next t ∧ t.rd .EPO_NUMBER = s.rd .EPO_NUMBER + 1 ∧ t.gpio.epochOut = true ∧
      t.epo.period = s.rdf .EPO_PERIOD 0 24 ∧ t.epo.placed = none ∧
      (∀ q, q ∈ enabledQueues s → ((gqCons s q).1 = 1 ∨ (gqCons s q).1 = 2) →
        (epochNow s, gqWrite s q) ∈ (t.queue q).pend) ∧
      (∀ d, d < 4 → (t.domain d).next = (s.domain d).next ∧ (t.domain d).waits = false ∧
        ((s.domain d).next + 3 ≤ epochNow s → (t.domain d).norec = true) ∧
        ((s.domain d).next < epochNow s → bit (t.rd .EVT_STATUS (pageOf .epochs)) 7 = true)) ∧
      (∀ (l : Fin 24) (i : Nat), s.up (.lane l) = true → i < 17 →
        t.rd .LANE_FEC_HSNAP l i = s.rd .LANE_FEC_HIST l i - tget 0 (s.lane l).fecBase i) ∧
      (∀ x, upsets = [x] → tget 0 s.detourDiff x.router.val = 0 → bit (s.rd .CRT_STATUS x.router) 1 = false →
        bit (t.rd .CRT_STATUS x.router) 1 = true ∧ bit (t.rd .CRT_CAUSE x.router) 3 = true ∧
        t.rd .CRT_DETOUR x.router = (if x.second then s.rd .CRT_DETOUR x.router
          else s.rd .CRT_DETOUR x.router ^^^ (1 <<< x.at_.val)) ∧
        (s.rd .FAULT_COUNT (pageOf (.router x.router)) = 0 →
          t.rd .FAULT_REC0 (pageOf (.router x.router)) = 0x01020000)) ∧
      (upsets = [] → s.detourDiff = [] → Safety.changesOnly (fun r i _ => r == .EPO_NUMBER || r == .EPO_SNAP_LATE_CNT ||
        Safety.eventOf .epochs r i || r == .LANE_FEC_HSNAP || r == .LANE_ADAPT)
        [.epo, .queues, .lanes, .health, .gpio, .bounds] s t)) ∧
  (∀ (upsets : List DetourUpset) (s : State), Safety.calm s → s.power.inReset = false → s.asleep = true →
    ∃ t, exec (.epochBoundary upsets) s = .next t ∧ t.rd .EPO_NUMBER = s.rd .EPO_NUMBER + 1 ∧ t.gpio.epochOut = true ∧
      Safety.changesOnly (fun r _ _ => r == .EPO_NUMBER) [.epo, .gpio, .bounds] s t) ∧
  (∀ (s : State), Safety.calm s →
    ∃ t, exec .epochOutEnd s = .next t ∧ t.gpio.epochOut = false ∧ Safety.changesOnly (fun _ _ _ => false) [.gpio] s t) ∧
  (∀ (since : Nat) (s : State), Safety.calm s → s.rdf .EPO_STATUS 12 2 = 1 →
    ∃ t, exec (.epochSyncEdge since) s = .next t ∧
      (if 7 * s.epo.period ≤ 8 * since ∧ 8 * since ≤ 9 * s.epo.period
       then t.epo.placed = some false ∧ t.rdf .EPO_STATUS 12 2 = 1 ∧ t.rdf .EPO_STATUS 16 8 = 0 ∧
         t.rd .EPO_SYNC_OFS = BitVec.ofNat 64 (toBits 32 ((since : Int) - s.epo.period)) ∧ t.rd .EPO_SLIP_CNT = s.rd .EPO_SLIP_CNT
       else t.epo.placed = s.epo.placed ∧ t.rd .EPO_SLIP_CNT = satAdd 32 (s.rd .EPO_SLIP_CNT) 1 ∧
         bit (t.rd .EVT_STATUS (pageOf .epochs)) 4 = true ∧
         t.rdf .EPO_STATUS 16 8 = min 255 (s.rdf .EPO_STATUS 16 8 + 1) ∧
         t.rdf .EPO_STATUS 12 2 = if bit (s.rd .EPO_CTRL) 1 = true ∧
           s.rdf .EPO_SLIP_LIMIT 0 8 ≤ min 255 (s.rdf .EPO_STATUS 16 8 + 1) then 2 else 1) ∧
      Safety.changesOnly (fun r i _ => r == .EPO_STATUS || r == .EPO_SYNC_OFS || r == .EPO_SLIP_CNT ||
        Safety.eventOf .epochs r i) [.epo] s t) ∧
  (∀ (since : Nat) (s : State), Safety.calm s → s.rdf .EPO_STATUS 12 2 = 2 →
    ∃ t, exec (.epochSyncEdge since) s = .next t ∧
      (if s.epo.period ≤ 2 * (since + 4)
       then t.epo.placed = some true ∧ t.rdf .EPO_STATUS 12 2 = 1 ∧ t.rdf .EPO_STATUS 16 8 = 0 ∧
         bit (t.rd .EVT_STATUS (pageOf .epochs)) 5 = true
       else t.epo.placed = s.epo.placed ∧ t.rdf .EPO_STATUS 12 2 = 2 ∧
         t.rd .EPO_SLIP_CNT = satAdd 32 (s.rd .EPO_SLIP_CNT) 1)) ∧
  (∀ (since : Nat) (s : State), Safety.calm s → s.rdf .EPO_STATUS 12 2 = 0 →
    ∃ t, exec (.epochSyncEdge since) s = .next t ∧ Safety.changesOnly (fun _ _ _ => false) [] s t) ∧
  (∀ (upsets : List DetourUpset) (s : State), Safety.calm s → s.power.inReset = false →
    (s.rdf .EPO_STATUS 12 2 = 1 → s.epo.placed = none →
      ∃ t, exec (.syncWindowClose upsets) s = .next t ∧ t.rd .EPO_SLIP_CNT = satAdd 32 (s.rd .EPO_SLIP_CNT) 1 ∧
        t.rd .EPO_NUMBER = s.rd .EPO_NUMBER + 1 ∧ bit (t.rd .EVT_STATUS (pageOf .epochs)) 4 = true) ∧
    (s.rdf .EPO_STATUS 12 2 = 2 → s.epo.placed = none →
      ∃ t, exec (.realignTimeout upsets) s = .next t ∧ t.rd .EPO_SLIP_CNT = s.rd .EPO_SLIP_CNT ∧
        t.rd .EPO_NUMBER = s.rd .EPO_NUMBER + 1 ∧ t.rdf .EPO_STATUS 12 2 = 2))

/-- Commits and recoveries (R472, R473, R478 to R480, R482, R483): a complete snapshot commits its epoch; a restore rewinds
the input queues and resumes; a lost snapshot store makes the result UNRECOVERABLE.
The model's choices in it: log 90. -/
def Obligations.EpochsCommitAndRecover : Prop :=
  (∀ (d : Fin 4) (s : State), Safety.calm s → Safety.copiesAgree s → snapComplete s d = true →
    (let n := (s.domain d).next
    ∃ t, exec (.epochCommit d) s = .next t ∧ t.rd .EPO_COMMITTED 0 d = epochNum s n ∧ (t.domain d).next = n + 1 ∧
      (t.domain d).kept = true ∧ (t.domain d).norec = false ∧ (t.domain d).tries = 0 ∧
      (∀ x, x ∈ domTiles s d → (t.tile x).kept = (s.tile x).snaps.find? (fun y => y.epoch == n)) ∧
      ((s.domain d).replay = true → t.rd .EPO_RECOVER_CNT = satAdd 32 (s.rd .EPO_RECOVER_CNT) 1 ∧
        bit (t.rd .EVT_STATUS (pageOf .epochs)) 1 = true ∧ t.rdf .EPO_DOM_INFO 4 2 0 d = 1) ∧
      (domOutputs s d = [] → ∀ q p, q ∈ domInputs s d → gqEpochMark s q = true → markPos s q n = some p →
        gqFree s q ≤ p → p < 2 ^ 63 → gqMark t q = some p) ∧
      (domOutputs s d = [] → (∀ q, q ∈ domInputs s d → gqEpochMark s q = false) → Safety.changesOnly (fun r i j =>
        ((r == .EPO_COMMITTED || r == .EPO_DOM_INFO) && j == d.val) || r == .EPO_RECOVER_CNT || Safety.eventOf .epochs r i)
        [.epo, .tiles, .queues] s t))) ∧
  (∀ (d : Fin 4) (s : State), Safety.calm s → snapComplete s d = false →
    ∃ t, exec (.epochCommit d) s = .next t ∧ Safety.changesOnly (fun _ _ _ => false) [] s t) ∧
  (∀ (d : Fin 4) (s : State), Safety.calm s → recovering s d = true → coupled s d = [d.val] → domOutputs s d = [] →
    s.sched.items = [] → Safety.copiesAgree s → (∀ x, x ∈ domTiles s d → (s.tile x).ports = [] ∧ (s.tile x).undo = [] ∧
      (s.tile x).mems = [] ∧ ∃ y, (s.tile x).kept = some y ∧ y.image = []) →
    (∀ q, q ∈ domInputs s d → (s.queue q).skips = [] ∧ ∃ m, gqMark s q = some m ∧ m ≤ gqWrite s q) →
    ∃ t, exec (.recoveryComplete d []) s = .next t ∧ recovering t d = false ∧ (t.domain d).replay = true ∧
      (∀ q m, q ∈ domInputs s d → gqMark s q = some m → gqRead t q = m) ∧
      (∀ x y, x ∈ domTiles s d → (s.tile x).kept = some y → t.rd .TILE_REMAP_ACT x = y.map ∧ (t.tile x).ways = [] ∧
        (t.tile x).epoch = y.epoch + 1)) ∧
  (∀ (d : Fin 4) (x : Fin 48) (s : State), Safety.calm s → recovering s d = true → coupled s d = [d.val] →
    Safety.copiesAgree s → (∀ y, y ∈ domTiles s d → (s.tile y).mems = []) →
    (domTiles s d).find? (fun y => y == x.val) = some x.val →
    ∃ t, exec (.recoveryComplete d [x]) s = .next t ∧ bit (t.rd .EVT_STATUS (pageOf .epochs)) 0 = true ∧
      bit (t.rd .EVT_STATUS (pageOf .epochs)) 2 = true ∧ (t.domain d).waits = true ∧
      (t.domain d).floor = epochNow s + 1 ∧ (s.rd .FAULT_COUNT (pageOf .epochs) = 0 →
        t.rd .FAULT_REC0 (pageOf .epochs) = BitVec.ofNat 64 (0x01010000 + x)))

/-! Chapter 17: the Corridor. -/

/-- Packets at their targets (R492, R495, R497, R498, R500): a read of memory answers its bytes, a write stores them, an atomic
reads and writes one word, a posted write draws no answer, a DBELL sets its core's doorbell; a packet of the wrong form is answered
at once; a dropped header is counted and leaves its request without an answer; nothing of a write with a poisoned unit is performed.
The model's choices in it: log 83. -/
def Obligations.PacketsArePerformed : Prop :=
  (∀ (q : Requester) (tag : BitVec 12) (a : Addr) (n : Nat) (d : Endpoint) (s : State), Safety.calm s →
    Safety.reaches s q a.toNat n false → Safety.comesTo s q a.toNat n d → reqOf s q tag = none → badIn s a.toNat n = false →
    ∃ t, exec (.corridorRd q tag a n .ok {}) s = .next t ∧
      t.reqs = s.reqs ++ [{ who := q, tag := tag, reads := true, status := .ok, data := s.bytes a.toNat n, addr := a.toNat,
                            router := d.router, port := some d.port }] ∧
      Safety.changesOnly (fun _ _ _ => false) [.reqs] s t) ∧
  (∀ (q : Requester) (tag : BitVec 12) (a : Addr) (bs : List Byte) (d : Endpoint) (s : State), Safety.calm s →
    Safety.reaches s q a.toNat bs.length true → Safety.comesTo s q a.toNat bs.length d → reqOf s q tag = none →
    ∃ t, exec (.corridorWr q tag a bs {}) s = .next t ∧ t.bytes a.toNat bs.length = bs ∧
      (∀ x, x < a.toNat ∨ a.toNat + bs.length ≤ x → t.byte x = s.byte x) ∧
      t.reqs = s.reqs ++ [{ who := q, tag := tag, reads := false, status := .ok, addr := a.toNat, router := d.router,
                            port := some d.port }] ∧
      Safety.changesOnly (fun _ _ _ => false) [.reqs, .mem, .bad] s t) ∧
  (∀ (q : Requester) (tag : BitVec 12) (a : Addr) (v want : Word) (d : Endpoint) (s : State), Safety.calm s →
    Safety.reaches s q a.toNat 4 true → Safety.comesTo s q a.toNat 4 d → reqOf s q tag = none →
    badIn s a.toNat 4 = false →
    (let old := s.bytes a.toNat 4
    let req : Req := { who := q, tag := tag, reads := true, status := .ok, data := old, addr := a.toNat, router := d.router,
                       port := some d.port }
    (∃ t, exec (.corridorAmoadd q tag a v .ok {}) s = .next t ∧ t.leAt a.toNat 4 = (leNat old + v.toNat) % 2 ^ 32 ∧
      t.reqs = s.reqs ++ [req] ∧ (∀ x, x < a.toNat ∨ a.toNat + 4 ≤ x → t.byte x = s.byte x) ∧
      Safety.changesOnly (fun _ _ _ => false) [.reqs, .mem, .bad] s t) ∧
    (∃ t, exec (.corridorSwap q tag a v .ok {}) s = .next t ∧ t.leAt a.toNat 4 = v.toNat ∧ t.reqs = s.reqs ++ [req] ∧
      (∀ x, x < a.toNat ∨ a.toNat + 4 ≤ x → t.byte x = s.byte x) ∧
      Safety.changesOnly (fun _ _ _ => false) [.reqs, .mem, .bad] s t) ∧
    (∃ t, exec (.corridorCas q tag a want v .ok {}) s = .next t ∧
      t.leAt a.toNat 4 = (if leNat old = want.toNat then v.toNat else leNat old) ∧ t.reqs = s.reqs ++ [req] ∧
      (∀ x, x < a.toNat ∨ a.toNat + 4 ≤ x → t.byte x = s.byte x) ∧
      Safety.changesOnly (fun _ _ _ => false) [.reqs, .mem, .bad] s t))) ∧
  (∀ (a : Addr) (bs : List Byte) (s : State), Safety.calm s → s.asleep = false →
    Safety.reaches s .host a.toNat bs.length true →
    ∃ t, exec (.corridorWrp a bs {}) s = .next t ∧ t.bytes a.toNat bs.length = bs ∧
      (∀ x, x < a.toNat ∨ a.toNat + bs.length ≤ x → t.byte x = s.byte x) ∧
      Safety.changesOnly (fun _ _ _ => false) [.mem, .bad] s t) ∧
  (∀ (a : Addr) (bs : List Byte) (d : Endpoint) (r : Nat) (s : State), Safety.calm s → s.asleep = false →
    wrongForm s .host .wrp a.toNat bs.length = false → destOf s (endpointOf .host).router a.toNat = some d →
    compareOn s (wayFrom s (endpointOf .host).router d).1 = s → refusedAt s (endpointOf .host) d = some r →
    ∃ t, exec (.corridorWrp a bs {}) s = .next t ∧ t.rd .CRT_DROP_POSTED r = satAdd 32 (s.rd .CRT_DROP_POSTED r) 1 ∧
      Safety.changesOnly (fun x i _ => x == .CRT_DROP_POSTED && i == r) [] s t) ∧
  (∀ (q k : Fin 32) (d : Endpoint) (s : State), Safety.calm s → wrongForm s (.core q) .dbell (coreMem k 0) 4 = false →
    carry s (.core q) (requestOf (.core q) .dbell (coreMem k 0) 4) = (s, .target d false) →
    ∃ t, exec (.corridorDbell q k {}) s = .next t ∧ bit (t.rd .EVT_STATUS (pageOf (.core k))) 1 = true ∧
      Safety.changesOnly (fun r i _ => Safety.eventOf (.core k) r i) [] s t) ∧
  (∀ (q : Requester) (tag : BitVec 12) (a : Addr) (n : Nat) (s : State), Safety.calm s → portOpen s q = true →
    reqOf s q tag = none → wrongForm s q .rd a.toNat n = true →
    ∃ t, exec (.corridorRd q tag a n .ok {}) s = .next t ∧ t.rsp.status = .addressError ∧ t.rsp.data = [] ∧
      Safety.changesOnly (fun _ _ _ => false) [] s t) ∧
  (∀ (q : Requester) (tag : BitVec 12) (a : Addr) (n : Nat) (d : Endpoint) (h : Fin 64) (m : BitVec 128) (z : Hop)
    (s : State), Safety.calm s → portOpen s q = true → s.asleep = false → reqOf s q tag = none →
    wrongForm s q .rd a.toNat n = false → destOf s (endpointOf q).router a.toNat = some d →
    portOn s (endpointOf q).router (8 + (endpointOf q).port) = true →
    dropHop (wayFrom s (endpointOf q).router d).1 (requestOf q .rd a.toNat n tag.toNat) (endpointOf q) d
      { hdr := some (h, m) } = some z →
    compareOn s (passed (wayFrom s (endpointOf q).router d).1 (some z)) = s →
    ∃ t, exec (.corridorRd q tag a n .ok { there := { hdr := some (h, m) } }) s = .next t ∧
      t.rd .CRT_HDR_ERR_CNT h = satAdd 32 (s.rd .CRT_HDR_ERR_CNT h) 1 ∧ bit (t.rd .CRT_CAUSE h) 4 = true ∧
      (s.rd .FAULT_COUNT (pageOf (.router h)) = 0 →
        t.rd .FAULT_REC0 (pageOf (.router h)) = BitVec.ofNat 64 (0x01000000 + z.input % 65536)) ∧
      (∃ y, t.reqs = s.reqs ++ [y] ∧ y.who = q ∧ y.tag = tag ∧ y.lost = true) ∧
      Safety.changesOnly (fun r i _ => Safety.faultOf (.router h) r i || (r == .CRT_HDR_ERR_CNT && i == h.val))
        [.reqs] s t) ∧
  (∀ (q : Requester) (tag : BitVec 12) (a : Addr) (bs : List Byte) (d : Endpoint) (u : Fin 64) (s : State), Safety.calm s →
    portOpen s q = true → s.asleep = false → reqOf s q tag = none → wrongForm s q .wr a.toNat bs.length = false →
    Safety.comesTo s q a.toNat bs.length d →
    ((wayFrom s (endpointOf q).router d).1.any fun z => z.router == u.val) = true →
    ∃ t, exec (.corridorWr q tag a bs { there := { spoilt := [u] } }) s = .next t ∧ (∀ x, t.byte x = s.byte x) ∧
      bit (t.rd .CRT_CAUSE u) 5 = true ∧
      (∃ y, t.reqs = s.reqs ++ [y] ∧ y.who = q ∧ y.tag = tag ∧ y.lost = false ∧ y.status = .poison) ∧
      Safety.changesOnly (fun r i _ => Safety.faultOf (.router u) r i) [.reqs] s t) ∧
  (∀ (q : Requester) (tag : BitVec 12) (a : Addr) (n : Nat) (s : State), Safety.calm s →
    (reqOf s q tag).isSome = true →
    ∃ t, exec (.corridorRd q tag a n .ok {}) s = .next t ∧ Safety.changesOnly (fun _ _ _ => false) [] s t)

/-- Responses and their absence (R374, R375, R498), and the reconfiguration of a router (R505, R507). A response whose way back
is usable completes its request, whose requester sees its status. -/
def Obligations.ResponsesAndReconfigurations : Prop :=
  (∀ (q : Requester) (tag : BitVec 12) (r : Req) (s : State), Safety.calm s → reqOf s q tag = some r →
    r.lost = false → r.late = false → r.store = none → Safety.returns s q r →
    (r.reads = true →
      ∃ t, exec (.rspData q tag {}) s = .next t ∧ t.rsp.status = r.status ∧
        t.rsp.data = (if r.status = .ok ∨ r.status = .poison then r.data else []) ∧
        t.reqs = s.reqs.filter (fun y => !(y.who == q && y.tag == tag)) ∧
        Safety.changesOnly (fun _ _ _ => false) [.reqs] s t) ∧
    (r.reads = false →
      ∃ t, exec (.rspNodata q tag {}) s = .next t ∧ t.rsp.status = r.status ∧
        t.reqs = s.reqs.filter (fun y => !(y.who == q && y.tag == tag)) ∧
        Safety.changesOnly (fun _ _ _ => false) [.reqs] s t)) ∧
  (∀ (k : Fin 32) (tag : BitVec 12) (r : Req) (a : Word) (s : State), Safety.calm s → reqOf s (.core k) tag = some r →
    r.reads = false → r.lost = false → r.late = false → r.store = some a → r.who = .core k → Safety.returns s (.core k) r →
    ∃ t, exec (.rspNodata (.core k) tag {}) s = .next t ∧
      t.reqs = s.reqs.filter (fun y => !(y.who == .core k && y.tag == tag)) ∧
      (t.core k).window = answerStore r.tag (s.core k).window ∧ (∀ j, j ≠ k.val → (s.core j).run ≠ .inWait → t.core j = s.core j) ∧
      (r.status = .ok → (t.core k).storeErr = (s.core k).storeErr ∧
        Safety.changesOnly (fun _ _ _ => false) [.reqs, .cores] s t) ∧
      (r.status ≠ .ok → (s.core k).storeErr = none → (t.core k).storeErr = some (a, r.status) ∧
        bit (t.rd .EVT_STATUS (pageOf (.core k))) 0 = true ∧ (s.rd .FAULT_COUNT (pageOf (.core k)) = 0 →
          t.rd .FAULT_REC0 (pageOf (.core k)) = BitVec.ofNat 64 (0x01010000 + r.status.code)))) ∧
  (∀ (q : Requester) (tag : BitVec 12) (s : State), Safety.calm s → reqOf s q tag = none →
    (let e := (endpointOf q).router
    (∃ t, exec (.rspData q tag {}) s = .next t ∧ t.rd .CRT_DROP_RSP e = satAdd 32 (s.rd .CRT_DROP_RSP e) 1 ∧
      Safety.changesOnly (fun _ _ _ => false) [] s t) ∧
    (∃ t, exec (.rspNodata q tag {}) s = .next t ∧ t.rd .CRT_DROP_RSP e = satAdd 32 (s.rd .CRT_DROP_RSP e) 1 ∧
      Safety.changesOnly (fun _ _ _ => false) [] s t))) ∧
  (∀ (q : Requester) (tag : BitVec 12) (r : Req) (s : State), Safety.calm s → reqOf s q tag = some r → r.late = false →
    r.store = none → s.rdf .CRT_RSP_TIMEOUT 0 16 (endpointOf q).router ≠ 0 →
    ∃ t, exec (.responseTimeout q tag) s = .next t ∧ t.rsp.status = .timeout ∧
      bit (t.rd .CRT_CAUSE (endpointOf q).router) 6 = true ∧
      t.reqs = s.reqs.map (fun y => if y = r then { y with late := true, store := none } else y) ∧
      Safety.changesOnly (fun _ _ _ => false) [.reqs] s t) ∧
  (∀ (k : Fin 32) (tag : BitVec 12) (r : Req) (a : Word) (s : State), Safety.calm s → reqOf s (.core k) tag = some r →
    r.late = false → r.store = some a → r.who = .core k → s.rdf .CRT_RSP_TIMEOUT 0 16 (endpointOf (.core k)).router ≠ 0 →
    ∃ t, exec (.responseTimeout (.core k) tag) s = .next t ∧
      (t.core k).window = answerStore r.tag (s.core k).window ∧
      (t.core k).storeErr = (if (s.core k).storeErr = none then some (a, .timeout) else (s.core k).storeErr) ∧
      bit (t.rd .CRT_CAUSE (endpointOf (.core k)).router) 6 = true) ∧
  (∀ (q : Requester) (r : Fin 64) (s : State), Safety.calm s → Safety.serves s q (.router r) .CRT_CMD r 0 →
    (bit (s.rd .CRT_STATUS r) 0 = false →
      ∃ t, exec (.apply q r) s = .next t ∧ bit (t.rd .CRT_STATUS r) 0 = true ∧
        Safety.changesOnly (fun x i _ => x == .CRT_STATUS && i == r.val) [.captured] s t) ∧
    (bit (s.rd .CRT_STATUS r) 0 = true → s.rd .FAULT_COUNT (pageOf (.router r)) = 0 →
      ∃ t, exec (.apply q r) s = .next t ∧ t.rd .FAULT_REC0 (pageOf (.router r)) = 0x00020060 ∧
        Safety.changesOnly (fun x i _ => Safety.faultOf (.router r) x i) [.captured] s t)) ∧
  (∀ (r : Fin 64) (s : State), Safety.calm s → bit (s.rd .CRT_STATUS r) 0 = true → tget false s.resetting (0x700 + r) = false →
    (∃ t, exec (.reconfigDone r) s = .next t ∧ t.rd .CRT_PORT_EN r = s.rd .CRT_NEXT_PORT_EN r ∧
      t.rd .CRT_VN_PART r = s.rd .CRT_NEXT_VN_PART r ∧ t.rd .CRT_DETOUR r = s.rd .CRT_NEXT_DETOUR r ∧
      t.rdf .CRT_STATUS 0 2 r = 0 ∧ bit (t.rd .CRT_CAUSE r) 1 = true ∧ tget 0 t.detourDiff r.val = 0 ∧
      (∀ x, x ≠ r.val → tget 0 t.detourDiff x = tget 0 s.detourDiff x) ∧
      Safety.changesOnly (fun x i _ => (x == .CRT_PORT_EN || x == .CRT_VN_PART || x == .CRT_DETOUR || x == .CRT_STATUS) &&
        i == r.val) [.detourDiff] s t) ∧
    (∃ t, exec (.quiesceTimeout r) s = .next t ∧ bit (t.rd .CRT_STATUS r) 0 = false ∧ bit (t.rd .CRT_CAUSE r) 2 = true ∧
      (s.rd .FAULT_COUNT (pageOf (.router r)) = 0 → t.rd .FAULT_REC0 (pageOf (.router r)) = 0x01030000) ∧
      Safety.changesOnly (fun x i _ => Safety.faultOf (.router r) x i || (x == .CRT_STATUS && i == r.val)) [] s t))

/-! Chapter 18: Raold Link. -/

/-- The link's states (R512, R514, R530, R531): training step by step to ACTIVE, RETRAIN and its ends, TRAIN_EN, loop-backs,
LINK_RESET.
The model's choices in it: logs 30, 142. -/
def Obligations.LinkTrains : Prop :=
  (∀ (q : Requester) (v : Word) (s : State), Safety.calm s → Safety.serves s q .link .RLK_CTRL 0 0 → fld v 8 4 ≠ 0 →
    ∃ t, exec (.trainEnable q v) s = .next t ∧ t.rd .RLK_CTRL = merge 0xF01 (s.rd .RLK_CTRL) (ext v) ∧
      linkState t = (if bit v 0 = true ∧ bit (s.rd .RLK_CTRL) 0 = false ∧ linkState s = 0 then 1
        else if bit v 0 = false ∧ bit (s.rd .RLK_CTRL) 0 = true then 0 else linkState s) ∧
      (bit v 0 = false → bit (s.rd .RLK_CTRL) 0 = true → linkState s ≠ 0 → bit (t.rd .RLK_CAUSE) 1 = true) ∧
      Safety.changesOnly (fun r _ _ => r == .RLK_CTRL || r == .RLK_STATUS || r == .RLK_CAUSE) [.captured] s t) ∧
  (∀ (s : State), Safety.calm s → s.up .link = true → linkState s = 1 → nearEnd s = false →
    ∃ t, exec .signalDetected s = .next t ∧ linkState t = 2 ∧
      Safety.changesOnly (fun r _ _ => r == .RLK_STATUS) [] s t) ∧
  (∀ (b : TrainBlock), trainFields (trainBits b) = some b ∧ fld (trainBits b) 0 8 = 0xA5) ∧
  (∀ (inverted : BitVec 4) (reversed : Bool) (skew : Nat) (code : Fin 4) (h : Fin 4 → BitVec 58)
    (later : List (List (BitVec 66))) (s : State), Safety.calm s → s.up .link = true → (linkState s = 2 ∨ linkState s = 5) →
    ∃ t, exec (.linkAligned ((List.finRange 4).map fun (i : Fin 4) => Safety.heard (inverted.getLsbD i) (h i)
        (List.replicate 2 ⟨BitVec.ofNat 3 (laneAt reversed i), true, BitVec.ofNat 4 (code + 1), 1, true⟩)) later skew) s = .next t ∧
      t.link.rx = later ∧
      (if 16 < skew then Safety.changesOnly (fun _ _ _ => false) [.link] s t
       else linkState t = (if linkState s = 2 then 3 else 5) ∧ t.link.aligned = (s.link.aligned || linkState s == 5) ∧
         t.rdf .RLK_TRAIN 0 4 = inverted.toNat ∧ bit (t.rd .RLK_TRAIN) 4 = reversed ∧ t.rdf .RLK_TRAIN 8 8 = skew ∧
         Safety.changesOnly (fun r _ _ => r == .RLK_STATUS || r == .RLK_TRAIN) [.link] s t)) ∧
  (∀ (n : Nat) (h : Fin 4 → BitVec 58) (s : State), Safety.calm s → s.up .link = true →
    (linkState s = 3 ∨ linkState s = 5 ∧ s.link.aligned = true) →
    s.link.rx = ((List.finRange 4).map fun (i : Fin 4) => Safety.heard (bit (s.rd .RLK_TRAIN) i) (h i)
        (List.replicate n ⟨BitVec.ofNat 3 (laneAt (bit (s.rd .RLK_TRAIN) 4) i), true, 3, 1, true⟩)) →
    ∃ t, exec .linkUp s = .next t ∧
      (if n ≤ 16 then Safety.changesOnly (fun _ _ _ => false) [] s t
       else linkState t = 4 ∧ (linkState s = 3 → bit (t.rd .RLK_CAUSE) 0 = true) ∧ t.heldEvents = [] ∧ t.link.rx = [] ∧
        (s.link.hpend = true → t.link.rxSeq = 0 ∧ t.link.hpend = false ∧
          t.rd .RLK_HRESET_CNT = satAdd 32 (s.rd .RLK_HRESET_CNT) 1) ∧
        (s.link.hpend = false → t.link.rxSeq = s.link.rxSeq ∧ t.link.waiting = s.link.waiting ∧
          t.link.replay = s.link.replay ∧
          Safety.changesOnly (fun r _ _ => r == .RLK_STATUS || r == .RLK_CAUSE) [.link] s t))) ∧
  (∀ (s : State), Safety.calm s → linkState s = 4 →
    ∃ t, exec .lockLost s = .next t ∧ linkState t = 5 ∧ t.link = { s.link with aligned := false } ∧
      Safety.changesOnly (fun r _ _ => r == .RLK_STATUS) [.link] s t) ∧
  (∀ (q : Requester) (s : State), Safety.calm s → Safety.serves s q .link .RLK_CMD 0 0 →
    (∃ t, exec (.rlkRetrain q) s = .next t ∧ linkState t = (if linkState s = 4 then 5 else linkState s) ∧
      (linkState s = 4 → t.link.aligned = false) ∧
      Safety.changesOnly (fun r _ _ => r == .RLK_STATUS) [.captured, .link] s t) ∧
    (nearEnd s = true → ∃ t, exec (.rlkLoopStart q) s = .next t ∧ t.link.looping = true ∧ t.rd .RLK_LOOP_STATUS = 0 ∧
      Safety.changesOnly (fun r _ _ => r == .RLK_LOOP_STATUS) [.captured, .link] s t)) ∧
  (∀ (s : State), Safety.calm s → linkState s = 5 →
    ∃ t, exec .retrainTimeout s = .next t ∧ linkState t = 1 ∧ t.link.hpend = true ∧ bit (t.rd .RLK_CAUSE) 1 = true ∧
      Safety.changesOnly (fun r i _ => Safety.faultOf .link r i || r == .RLK_STATUS || r == .RLK_CAUSE) [.link] s t) ∧
  (∀ (s : State), Safety.calm s → linkState s = 6 →
    ∃ t, exec .loopbackSignalLoss s = .next t ∧ linkState t = 1 ∧ linkDepth t = 0 ∧
      Safety.changesOnly (fun r i _ => r == .RLK_STATUS || (r == .LOOP_CTRL && i == pageOf .link)) [] s t) ∧
  (∀ (fails : Nat) (s : State), Safety.calm s → s.link.looping = true →
    ∃ t, exec (.rlkLoopDone fails) s = .next t ∧ t.link.looping = false ∧ bit (t.rd .RLK_LOOP_STATUS) 0 = true ∧
      bit (t.rd .RLK_LOOP_STATUS) 1 = decide (fails ≠ 0) ∧ t.rdf .RLK_LOOP_STATUS 16 16 = min fails 65535 ∧
      Safety.changesOnly (fun r _ _ => r == .RLK_LOOP_STATUS) [.link] s t) ∧
  (∀ (payload : BitVec 512) (ctl : BitVec 64) (s : State), Safety.calm s → s.up .link = true → linkState s = 4 →
    flitGood payload ctl = true → fld ctl 24 4 = 2 →
    ∃ t, exec (.linkReset payload ctl) s = .next t ∧ linkState t = 3 ∧ t.rd .RLK_HRESET_CNT = satAdd 32 (s.rd .RLK_HRESET_CNT) 1 ∧
      bit (t.rd .PWR_RESET_CAUSE) 4 = true ∧ t.link.waiting = [] ∧ t.link.replay = [] ∧ t.link.rxSeq = 0 ∧ t.link.txSeq = 0 ∧
      linkDepth t = 0 ∧ (∀ i, i < 16 → (t.rd .RLK_BS_GRANT 0 i).toNat = (t.stream i).read % 2 ^ 48))

/-- Flits (R515 to R520, R522): the expected DATA flit is accepted, a duplicate is not, one out of order asks for a NAK, a bad
CRC is counted; a NULL flit's ACK frees the replay buffer and its credit report stands; NAKs and time-outs replay, up to the
limit.
The model's choices in it: logs 97, 98. -/
def Obligations.FlitsAreSequenced : Prop :=
  (∀ (payload : BitVec 512) (ctl : BitVec 64) (s : State), Safety.calm s → s.up .link = true → linkState s = 4 →
    flitGood payload ctl = true → 4 ≤ fld ctl 24 4 →
    ∃ t, exec (.dataFlit payload ctl) s = .next t ∧
      (let d := (BitVec.ofNat 12 (fld ctl 0 12) - s.link.rxSeq).toNat
      t.link.rxSeq = (if d = 0 then s.link.rxSeq + 1 else s.link.rxSeq) ∧
      t.link.rxq = (if d = 0 ∧ fld ctl 24 2 = 0 then s.link.rxq ++ [leBytes 64 payload.toNat] else s.link.rxq) ∧
      t.link.nakked = (if d = 0 then false else if 2049 ≤ d then s.link.nakked else true) ∧
      t.link.nakDue = (s.link.nakDue || decide (0 < d) && decide (d < 2049) && !s.link.nakked)) ∧
      t.rd .RLK_CRC_ERR_CNT = s.rd .RLK_CRC_ERR_CNT) ∧
  (∀ (payload : BitVec 512) (ctl : BitVec 64) (s : State), Safety.calm s → s.up .link = true → linkState s = 4 →
    flitGood payload ctl = false →
    ∃ t, exec (.dataFlit payload ctl) s = .next t ∧ t.rd .RLK_CRC_ERR_CNT = satAdd 32 (s.rd .RLK_CRC_ERR_CNT) 1 ∧
      t.link.rxSeq = s.link.rxSeq ∧ t.link.rxq = s.link.rxq ∧ t.link.replay = s.link.replay ∧
      t.link.nakked = (s.link.nakked || decide (4 ≤ fld ctl 24 4) && decide (fld ctl 24 4 < 8)) ∧
      Safety.changesOnly (fun r _ _ => r == .RLK_CRC_ERR_CNT) [.link] s t) ∧
  (∀ (payload : BitVec 512) (ctl : BitVec 64) (s : State), Safety.calm s → s.up .link = true → linkState s = 4 →
    flitGood payload ctl = true → fld ctl 24 4 = 0 →
    (∀ f, f ∈ s.link.replay → f.bulk = none) →
    ∃ t, exec (.nullFlit payload ctl) s = .next t ∧
      t.link.replay = s.link.replay.filter (fun f => !decide ((BitVec.ofNat 12 (fld ctl 12 12) - f.seq).toNat < 2048)) ∧
      (tget 0 t.link.cred (fld ctl 28 2)).toNat = fld ctl 30 10 ∧ t.link.rxSeq = s.link.rxSeq ∧
      t.link.replays = (if t.link.replay.length = s.link.replay.length then s.link.replays else 0) ∧
      Safety.changesOnly (fun _ _ _ => false) [.link] s t) ∧
  (∀ (payload : BitVec 512) (ctl : BitVec 64) (s : State), Safety.calm s → s.up .link = true → linkState s = 4 →
    flitGood payload ctl = true → fld ctl 24 4 = 1 →
    (∀ f, f ∈ s.link.replay → 2048 ≤ (BitVec.ofNat 12 (fld ctl 12 12) - f.seq).toNat) →
    ∃ t, exec (.nak payload ctl) s = .next t ∧ t.link.replay = s.link.replay ∧
      (if s.rdf .RLK_CTRL 8 4 ≤ s.link.replays
       then linkState t = 5 ∧ bit (t.rd .RLK_CAUSE) 2 = true ∧ (s.rd .FAULT_COUNT (pageOf .link) = 0 →
         t.rd .FAULT_REC0 (pageOf .link) = 0x01000000)
       else linkState t = 4 ∧ t.rd .RLK_REPLAY_CNT = satAdd 32 (s.rd .RLK_REPLAY_CNT) 1 ∧
         t.link.resend = s.link.replay ∧ t.link.replays = s.link.replays + 1)) ∧
  (∀ (s : State), Safety.calm s → s.up .link = true → linkState s = 4 →
    ∃ t, exec .replayTimeout s = .next t ∧ t.link.replay = s.link.replay ∧
      (if s.link.replay = [] then t.rd .RLK_REPLAY_CNT = s.rd .RLK_REPLAY_CNT ∧ linkState t = 4
       else if s.rdf .RLK_CTRL 8 4 ≤ s.link.replays then linkState t = 5 ∧ bit (t.rd .RLK_CAUSE) 2 = true
       else t.rd .RLK_REPLAY_CNT = satAdd 32 (s.rd .RLK_REPLAY_CNT) 1 ∧ t.link.replays = s.link.replays + 1 ∧
         t.link.resend = s.link.replay ∧ linkState t = 4) ∧
      Safety.changesOnly (fun r i _ => Safety.faultOf .link r i || r == .RLK_REPLAY_CNT || r == .RLK_STATUS ||
        r == .RLK_CAUSE) [.link] s t)

/-- Transactions of the host (R524 to R526, R529): reads and writes are performed and completed, a posted write draws no
completion, a grant is taken over, SYNC is answered with its cookie and stamps; one beyond 256 outstanding is answered at
once; a malformed one is discarded.
The model's choices in it: logs 81, 86. -/
def Obligations.TransactionsAreAnswered : Prop :=
  (∀ (x : Tran) (s : State), Safety.calm s → Safety.takes s x 1 → (∀ e, e ∈ x.ecc → e = .ok) →
    Safety.reaches s .host x.addr.toNat 4 false →
    badIn s x.addr.toNat 4 = false →
    ∃ t, exec (.regRd x) s = .next t ∧ Safety.completes t x 0 (some (s.bytes x.addr.toNat 4)) ∧
      t.link.rxq = s.link.rxq.drop (tranPayloads x).length ∧ t.link.freed = s.link.freed + (tranPayloads x).length ∧
      Safety.changesOnly (fun _ _ _ => false) [.link] s t) ∧
  (∀ (x : Tran) (s : State), Safety.calm s → Safety.takes s x 2 → (∀ e, e ∈ x.ecc → e = .ok) →
    Safety.reaches s .host x.addr.toNat 4 true →
    ∃ t, exec (.regWr x) s = .next t ∧ t.leAt x.addr.toNat 4 = x.word3.toNat ∧ Safety.completes t x 0 none ∧
      (∀ a, a < x.addr.toNat ∨ x.addr.toNat + 4 ≤ a → t.byte a = s.byte a) ∧
      Safety.changesOnly (fun _ _ _ => false) [.link, .mem, .bad] s t) ∧
  (∀ (x : Tran) (s : State), Safety.calm s → Safety.takes s x 3 → (∀ e, e ∈ x.ecc → e = .ok) →
    Safety.reaches s .host x.addr.toNat x.len.toNat false →
    badIn s x.addr.toNat x.len.toNat = false → blockPacket x.addr.toNat x.len.toNat = x.len.toNat →
    ∃ t, exec (.blkRd x) s = .next t ∧ Safety.completes t x 0 (some (s.bytes x.addr.toNat x.len.toNat)) ∧
      Safety.changesOnly (fun _ _ _ => false) [.link] s t) ∧
  (∀ (x : Tran) (s : State), Safety.calm s → Safety.takes s x 4 → (∀ e, e ∈ x.ecc → e = .ok) →
    Safety.reaches s .host x.addr.toNat x.len.toNat true →
    blockPacket x.addr.toNat x.len.toNat = x.len.toNat →
    ∃ t, exec (.blkWr x) s = .next t ∧ t.bytes x.addr.toNat x.len.toNat = tranData x ∧ Safety.completes t x 0 none ∧
      (∀ a, a < x.addr.toNat ∨ x.addr.toNat + x.len.toNat ≤ a → t.byte a = s.byte a) ∧
      Safety.changesOnly (fun _ _ _ => false) [.link, .mem, .bad] s t) ∧
  (∀ (x : Tran) (s : State), Safety.calm s → Safety.takes s x 5 → (∀ e, e ∈ x.ecc → e = .ok) →
    Safety.reaches s .host x.addr.toNat x.len.toNat true →
    blockPacket x.addr.toNat x.len.toNat = x.len.toNat →
    ∃ t, exec (.blkWrP x) s = .next t ∧ t.bytes x.addr.toNat x.len.toNat = tranData x ∧
      (∀ a, a < x.addr.toNat ∨ x.addr.toNat + x.len.toNat ≤ a → t.byte a = s.byte a) ∧
      Safety.changesOnly (fun _ _ _ => false) [.link, .mem, .bad] s t) ∧
  (∀ (x : Tran) (s : State), Safety.calm s → Safety.takes s x 10 → x.stream.toNat < 16 →
    ∃ t, exec (.bulkGrant x) s = .next t ∧ t.rd .RLK_BS_GRANT 0 x.stream.toNat = x.addr.setWidth 64 ∧
      Safety.changesOnly (fun r _ j => (r == .RLK_BS_GRANT || r == .RLK_BS_STATUS) && j == x.stream.toNat) [.link] s t) ∧
  (∀ (x : Tran) (depart : DWord) (s : State), Safety.calm s → Safety.takes s x 11 →
    ∃ t, exec (.sync x depart) s = .next t ∧
      Safety.carries t 1 (tranHeader 12 x.tag.toNat 0 0 0 16 x.word3.toNat ++ leBytes 8 (s.rd .PWR_TB).toNat ++
        leBytes 8 depart.toNat) ∧ Safety.changesOnly (fun _ _ _ => false) [.link] s t) ∧
  (∀ (x : Tran) (s : State), Safety.calm s → linkState s = 4 → s.up .link = true → s.pwrState = 0 → tranHeld s x = true →
    malformed x = false →
    x.ttype.toNat = 2 → 256 ≤ outstanding s →
    ∃ t, exec (.regWr x) s = .next t ∧ Safety.completes t x 7 none ∧ Safety.changesOnly (fun _ _ _ => false) [.link] s t) ∧
  (∀ (x : Tran) (depart : DWord) (c : Instr) (s : State), Safety.calm s → linkState s = 4 → s.up .link = true →
    tranHeld s x = true → malformed x = true →
    c ∈ [.regRd x, .regWr x, .blkRd x, .blkWr x, .blkWrP x, .bulkGrant x, .sync x depart] →
    ∃ t, exec c s = .next t ∧ t.rd .RLK_DROP_CNT = satAdd 32 (s.rd .RLK_DROP_CNT) 1 ∧ bit (t.rd .RLK_CAUSE) 3 = true ∧
      (s.rd .FAULT_COUNT (pageOf .link) = 0 → t.rd .FAULT_REC0 (pageOf .link) = BitVec.ofNat 64 (0x01010000 + x.ttype.toNat)) ∧
      Safety.changesOnly (fun r i _ => Safety.faultOf .link r i || r == .RLK_DROP_CNT || r == .RLK_CAUSE) [.link] s t)

/-- Bulk streams (R525, R529, R636): a stream sends the whole entries that its grant allows and that can be delivered, stalls
where the grant has no room for the next, and raises its cause when it has stalled for 1 ms.
The model's choices in it: logs 28, 158. -/
def Obligations.StreamsSend : Prop :=
  (∀ (i : Fin 16) (q e : Nat) (ends : List Nat) (s : State), Safety.calm s → linkState s = 4 → s.up .link = true →
    s.asleep = false → streamQueue s i = some q → bit (s.rd .RLK_BS_CTRL 0 i) 0 = true → (s.queue q).skips = [] →
    gqRead s q = (s.stream i).read → (s.stream i).cut = false → (s.stream i).span = none →
    (s.stream i).next < gqWrite s q →
    entriesHeld s q (s.stream i).next
      (wholeEntries s q (s.stream i).next (grantRoom s i (s.stream i).next) 256 (s.stream i).next) = ends →
    ends.getLast? = some e → 32 ≤ e - (s.stream i).next → (entriesBytes s q (s.stream i).next ends).1 = s →
    ∃ t, exec (.bulkData i) s = .next t ∧ (t.stream i).next = e ∧ bit (t.rd .RLK_BS_STATUS 0 i) 1 = false ∧
      Safety.carries t 3 (tranHeader 9 0 0 i (s.stream i).next (entriesBytes s q (s.stream i).next ends).2.length 0 ++
        (entriesBytes s q (s.stream i).next ends).2) ∧
      Safety.changesOnly (fun r _ j => r == .RLK_BS_STATUS && j == i.val) [.link] s t) ∧
  (∀ (i : Fin 16) (q : Nat) (s : State), Safety.calm s → linkState s = 4 → s.up .link = true → s.asleep = false →
    streamQueue s i = some q → bit (s.rd .RLK_BS_CTRL 0 i) 0 = true → (s.queue q).skips = [] →
    gqRead s q = (s.stream i).read → (s.stream i).cut = false →
    (s.stream i).span = none → (s.stream i).next < gqWrite s q → grantRoom s i (s.stream i).next = 0 →
    0 < entrySize s q (s.stream i).next →
    ∃ t, exec (.bulkData i) s = .next t ∧ bit (t.rd .RLK_BS_STATUS 0 i) 1 = true ∧ (t.stream i) = s.stream i) ∧
  (∀ (i : Fin 16) (s : State), Safety.calm s → bit (s.rd .RLK_BS_STATUS 0 i) 1 = true →
    ∃ t, exec (.bulkStall i) s = .next t ∧ bit (t.rd .RLK_CAUSE) 4 = true ∧
      Safety.changesOnly (fun r _ _ => r == .RLK_CAUSE) [] s t)

/-! Chapter 19: boot and security. -/

/-- The boot from flash (R545, R546, R551): no valid copy, one, the higher version of two, two of the same version with
different digests; the image that runs is logged and its version shown.
The model's choices in it: log 18. -/
def Obligations.FlashBoots : Prop :=
  (∀ (r : FuseStep) (s : State), Safety.calm s → bootState s = 1 →
    ∃ t, exec (.flashBoot none none r) s = .next t ∧ bootState t = (if s.sec.bootSel = 2 then 2 else 4) ∧
      bit (t.rd .EVT_STATUS (pageOf .security)) 1 = true ∧ (s.rd .FAULT_COUNT (pageOf .security) = 0 →
        t.rd .FAULT_REC0 (pageOf .security) = 0x01010A01)) ∧
  (∀ (x : FlashCopy) (r : FuseStep) (s : State), Safety.calm s → bootState s = 1 →
    manifestError s 1 (256 + x.payload.length) x.manifest (keyOk s x.manifest) = 0 →
    digestOk x.manifest x.payload = true → mCommit x.manifest = false → s.sec.log = [] →
    (∃ t, exec (.flashBoot (some x) none r) s = .next t ∧ bootState t = 5 ∧ bit (t.rd .SEC_BOOT_STATUS) 3 = false ∧
      bit (t.rd .SEC_BOOT_STATUS) 4 = false ∧ t.rdf .SEC_BOOT_STATUS 8 7 = mVersion x.manifest ∧
      t.sec.log = [logEntry s x.manifest] ∧ t.rd .SEC_LOG_COUNT = 1 ∧ t.fuses = s.fuses) ∧
    (∃ t, exec (.flashBoot none (some x) r) s = .next t ∧ bootState t = 5 ∧ bit (t.rd .SEC_BOOT_STATUS) 3 = true ∧
      bit (t.rd .SEC_BOOT_STATUS) 4 = false ∧ t.rdf .SEC_BOOT_STATUS 8 7 = mVersion x.manifest ∧
      t.sec.log = [logEntry s x.manifest] ∧ t.fuses = s.fuses)) ∧
  (∀ (x y : FlashCopy) (r : FuseStep) (s : State), Safety.calm s → bootState s = 1 →
    manifestError s 1 (256 + x.payload.length) x.manifest (keyOk s x.manifest) = 0 →
    manifestError s 1 (256 + y.payload.length) y.manifest (keyOk s y.manifest) = 0 →
    (mVersion x.manifest = mVersion y.manifest → cut x.manifest 0x20 0x60 ≠ cut y.manifest 0x20 0x60 →
      ∃ t, exec (.flashBoot (some x) (some y) r) s = .next t ∧ bootState t = 3 ∧ t.sec.copies = some (x, y) ∧
        bit (t.rd .EVT_STATUS (pageOf .security)) 0 = true ∧
        Safety.changesOnly (fun r i _ => Safety.eventOf .security r i || r == .SEC_BOOT_STATUS) [.sec] s t) ∧
    (mVersion x.manifest < mVersion y.manifest → digestOk y.manifest y.payload = true → mCommit y.manifest = false →
      s.sec.log = [] →
      ∃ t, exec (.flashBoot (some x) (some y) r) s = .next t ∧ bootState t = 5 ∧ bit (t.rd .SEC_BOOT_STATUS) 3 = true ∧
        t.rdf .SEC_BOOT_STATUS 8 7 = mVersion y.manifest))

/-- Security commands (R542, R543, R546, R548, R550, R552, R554): a write of `SEC_CMD` makes its command the one under way,
or is refused while one is; a command ends with its status and error, having done what it does.
The model's choices in it: logs 48, 145. -/
def Obligations.SecurityCommandsRun : Prop :=
  (∀ (q : Requester) (n : BitVec 7) (c : Instr) (op v : Nat) (s : State), Safety.calm s →
    Safety.serves s q .security .SEC_CMD 0 0 →
    (c, op, v) ∈ [(.bootLink q, 1, 0), (.bootCopyA q, 2, 0), (.bootCopyB q, 3, 0), (.keyCommand q, 4, 0), (.debugOpen q, 5, 0),
      (.debugClose q, 6, 0), (.debugChallenge q, 7, 0), (.quote q, 8, 0), (.cfgRollback q n, 9, n.toNat)] →
    (s.sec.cmd = none → ∃ t, exec c s = .next t ∧ t.sec.cmd = some (op, v) ∧ t.rd .SEC_CMD_STATUS = 1 ∧
      Safety.changesOnly (fun r _ _ => r == .SEC_CMD_STATUS) [.captured, .sec] s t) ∧
    (s.sec.cmd.isSome = true → ∃ t, exec c s = .next t ∧ (s.rd .FAULT_COUNT (pageOf .security) = 0 →
        t.rd .FAULT_REC0 (pageOf .security) = 0x00020044) ∧
      Safety.changesOnly (fun r i _ => Safety.faultOf .security r i) [.captured] s t)) ∧
  (∀ (chal : BitVec 256) (r : FuseStep) (c v : Nat) (s : State), Safety.calm s → s.sec.cmd = some (c, v) →
    (let x := performCommand { s with sec := { s.sec with cmd := none } } c v chal r
    ∃ t, exec (.secCommandDone chal r) s = .next t ∧
      t.rd .SEC_CMD_STATUS = BitVec.ofNat 64 ((if x.2 = 0 then 2 else 3) + 256 * x.2))) ∧
  (∀ (chal : BitVec 256) (r : FuseStep) (v : Nat) (s : State), Safety.calm s → s.sec.cmd = some (7, v) →
    ∃ t, exec (.secCommandDone chal r) s = .next t ∧ t.sec.cmd = none ∧ t.sec.fresh = true ∧ t.rd .SEC_CMD_STATUS = 2 ∧
      (∀ j, j < 8 → (t.rd .SEC_DBG_CHAL 0 j).toNat = chal.toNat / 2 ^ (32 * j) % 2 ^ 32) ∧
      Safety.changesOnly (fun r _ _ => r == .SEC_DBG_CHAL || r == .SEC_CMD_STATUS) [.sec] s t) ∧
  (∀ (chal : BitVec 256) (r : FuseStep) (v : Nat) (s : State), Safety.calm s → s.sec.cmd = some (6, v) →
    ∃ t, exec (.secCommandDone chal r) s = .next t ∧ t.rd .SEC_CMD_STATUS = 2 ∧
      t.rd .SEC_DBG_STATUS = (if s.rdf .SEC_DBG_STATUS 0 2 = 2 then 1 else s.rd .SEC_DBG_STATUS) ∧
      Safety.changesOnly (fun r _ _ => r == .SEC_DBG_STATUS || r == .SEC_CMD_STATUS) [.sec] s t) ∧
  (∀ (chal : BitVec 256) (r : FuseStep) (c v : Nat) (s : State), Safety.calm s → s.sec.cmd = some (c, v) →
    ((c = 1 ∧ bootState s ≠ 2 ∧ bootState s ≠ 3 ∧ bootState s ≠ 4) ∨ ((c = 2 ∨ c = 3) ∧ s.sec.copies = none) ∨
      (c = 5 ∧ s.rdf .SEC_DBG_STATUS 0 2 ≠ 1)) →
    ∃ t, exec (.secCommandDone chal r) s = .next t ∧ t.rd .SEC_CMD_STATUS = 0x603 ∧
      Safety.changesOnly (fun r _ _ => r == .SEC_CMD_STATUS) [.sec] s t) ∧
  (∀ (chal : BitVec 256) (r : FuseStep) (v : Nat) (a b : FlashCopy) (s : State), Safety.calm s → bootState s = 3 →
    s.sec.copies = some (a, b) → s.sec.log = [] →
    (s.sec.cmd = some (2, v) → digestOk a.manifest a.payload = true → mCommit a.manifest = false →
      ∃ t, exec (.secCommandDone chal r) s = .next t ∧ bootState t = 5 ∧ bit (t.rd .SEC_BOOT_STATUS) 3 = false ∧
        t.sec.copies = none ∧ t.sec.log = [logEntry s a.manifest]) ∧
    (s.sec.cmd = some (3, v) → digestOk b.manifest b.payload = true → mCommit b.manifest = false →
      ∃ t, exec (.secCommandDone chal r) s = .next t ∧ bootState t = 5 ∧ bit (t.rd .SEC_BOOT_STATUS) 3 = true ∧
        t.sec.copies = none ∧ t.sec.log = [logEntry s b.manifest])) ∧
  (∀ (chal : BitVec 256) (v : Nat) (s : State), Safety.calm s → s.sec.cmd = some (9, v) → v ≤ 64 → s.hold = false →
    (cfgCount s < v → v ≤ s.sec.cfgHigh → ∃ t, exec (.secCommandDone chal .done) s = .next t ∧ t.rd .SEC_CMD_STATUS = 2 ∧
      cfgCount t = v ∧ bootCount t = bootCount s) ∧
    (cfgCount s < v → s.sec.cfgHigh < v → ∃ t, exec (.secCommandDone chal .done) s = .next t ∧
      t.rd .SEC_CMD_STATUS = 0x303 ∧ t.fuses = s.fuses) ∧
    (v ≤ cfgCount s → ∃ t, exec (.secCommandDone chal .done) s = .next t ∧ t.rd .SEC_CMD_STATUS = 2 ∧ t.fuses = s.fuses)) ∧
  (∀ (chal : BitVec 256) (r : FuseStep) (v : Nat) (s : State), Safety.calm s → s.sec.cmd = some (8, v) →
    (idSeed s).isSome = true →
    ∃ t, exec (.secCommandDone chal r) s = .next t ∧ t.rd .SEC_CMD_STATUS = 2 ∧
      t.rd .SEC_QUOTE_COUNT = BitVec.ofNat 64 s.sec.log.length ∧
      Safety.changesOnly (fun r _ _ => r == .SEC_QUOTE_COUNT || r == .SEC_QUOTE_DIGEST || r == .SEC_QUOTE_SIG ||
        r == .SEC_CMD_STATUS) [.sec] s t)

/-! Chapter 20: health and ageing. -/

/-- Sensors and the margin ledger (R557, R558, R560 to R563): readings are stored, thresholds and ranges raise their events, a
pass stores each measured period and plans the lowest sufficient setpoint, the regulator moves by 5 mV and is confirmed.
The model's choices in it: logs 32, 33, 146. -/
def Obligations.HealthIsWatched : Prop :=
  (∀ (ts : List (BitVec 12)) (s : State), Safety.calm s → ts.length ≤ 32 →
    ∃ t, exec (.tempSample ts) s = .next t ∧ (∀ (i : Nat) (h : i < ts.length), t.rdf .HLT_TEMP 0 12 0 i = (ts[i]).toNat) ∧
      ((∃ x, x ∈ temps t ∧ (8 * (s.rdf .HLT_TEMP_HIGH 0 8 : Nat) : Int) ≤ x) → t.health.high = true ∧
        (s.health.high = false → bit (t.rd .EVT_STATUS (pageOf .health)) 1 = true)) ∧
      ((∃ x, x ∈ temps t ∧ (8 * (s.rdf .HLT_TEMP_CRIT 0 8 : Nat) : Int) ≤ x) → t.health.crit = true ∧
        (s.health.crit = false → bit (t.rd .EVT_STATUS (pageOf .health)) 2 = true)) ∧
      Safety.changesOnly (fun r i _ => Safety.faultOf .health r i || Safety.eventOf .health r i || r == .HLT_TEMP ||
        r == .HLT_TEMP_MAX) [.health] s t) ∧
  (∀ (vs : List (BitVec 12)) (s : State), Safety.calm s → vs.length ≤ 24 →
    ∃ t, exec (.vmonSample vs) s = .next t ∧ (∀ (j : Nat) (h : j < vs.length), t.rdf .HLT_VMON 0 12 0 j = (vs[j]).toNat ∧
        (∀ lo hi, supplyRange s j = some (lo, hi) → bit (t.rd .HLT_VMON 0 j) 12 = decide ((vs[j]).toNat < lo) ∧
          bit (t.rd .HLT_VMON 0 j) 13 = decide (hi < (vs[j]).toNat) ∧
          (((vs[j]).toNat < lo ∧ bit (s.rd .HLT_VMON 0 j) 12 = false) ∨ (hi < (vs[j]).toNat ∧
            bit (s.rd .HLT_VMON 0 j) 13 = false) →
            bit (t.rd .EVT_STATUS (pageOf .health)) 3 = true))) ∧
      Safety.changesOnly (fun r i _ => Safety.faultOf .health r i || Safety.faultOf .gpio r i || Safety.eventOf .health r i ||
        r == .HLT_VMON) [] s t) ∧
  (∀ (ps : List (Option (BitVec 16))) (s : State), Safety.calm s → bit (s.rd .HLT_CTRL) 0 = true → s.hold = false →
    bootState s = 5 → ps.length ≤ 96 →
    ∃ t, exec (.ledgerPass ps) s = .next t ∧
      t.rdf .HLT_LEDGER_STATUS 0 16 = min (s.rdf .HLT_LEDGER_STATUS 0 16 + 1) 0xFFFF ∧
      (∀ (i : Nat) (h : i < ps.length) (p : BitVec 16), ps[i] = some p → t.rdf .HLT_SENT 16 16 0 i = p.toNat ∧
        (-32768 ≤ wearOf s i p.toNat → wearOf s i p.toNat ≤ 32767 → wear t i = wearOf s i p.toNat)) ∧
      (let r := (t.rd .HLT_AVS_REQ).toNat
      ((∃ k, k < 280 ∧ worstPred t (650 + 5 * k : Nat) 0 72 ≤ targetOfCore t) →
        650 ≤ r ∧ r % 5 = 0 ∧ worstPred t r 0 72 ≤ targetOfCore t ∧
        (∀ v : Nat, 650 ≤ v → v < r → v % 5 = 0 → targetOfCore t < worstPred t v 0 72)) ∧
      (t.rd .HLT_AVS_SET).toNat = (if s.health.mayFall then min r (s.rdf .HLT_AVS_MAX 0 10)
        else max (s.rdf .HLT_AVS_SET 0 10) (min r (s.rdf .HLT_AVS_MAX 0 10))) ∧ t.health.mayFall = false ∧
      (s.rdf .HLT_AVS_MAX 0 10 < r → bit (t.rd .EVT_STATUS (pageOf .health)) 4 = true)) ∧
      Safety.changesOnly (fun r i _ => Safety.faultOf .health r i || Safety.eventOf .health r i || r == .HLT_SENT ||
        r == .HLT_WEAR_MAX || r == .HLT_AVS_REQ || r == .HLT_AVS_SET || r == .HLT_MARGIN || r == .HLT_LEDGER_STATUS ||
        r == .MC_TRACK_INT || r == .HTH_DERATE) [.health, .mcs, .draws] s t) ∧
  (∀ (start cur : Nat) (s : State), Safety.calm s → bit (s.rd .HLT_CTRL) 1 = true → s.hold = false →
    s.rdf .HLT_AVS_SET 0 10 ≠ 0 → s.health.vout = some cur → cur ≠ s.rdf .HLT_AVS_SET 0 10 →
    (∃ t, exec (.avsStep start none) s = .next t ∧ t.health.vout = some (if cur < s.rdf .HLT_AVS_SET 0 10
        then min (s.rdf .HLT_AVS_SET 0 10) (cur + 5) else max (s.rdf .HLT_AVS_SET 0 10) (cur - 5)) ∧
      t.rdf .HLT_AVS_STATUS 0 2 = 1 ∧ Safety.changesOnly (fun r _ _ => r == .HLT_AVS_STATUS) [.health] s t) ∧
    (∀ c, ∃ t, exec (.avsStep start (some c)) s = .next t ∧ t.health.vout = some cur ∧ t.rdf .HLT_AVS_STATUS 0 2 = 0 ∧
      bit (t.rd .EVT_STATUS (pageOf .health)) 5 = true ∧ (s.rd .FAULT_COUNT (pageOf .health) = 0 →
        t.rd .FAULT_REC0 (pageOf .health) = BitVec.ofNat 64 (0x01000000 + c.toNat)))) ∧
  (∀ (reading : Nat) (s : State), Safety.calm s → bit (s.rd .HLT_CTRL) 1 = true → s.hold = false →
    s.rdf .HLT_AVS_SET 0 10 ≠ 0 → s.health.vout = some (s.rdf .HLT_AVS_SET 0 10) → bit (s.rd .HLT_AVS_STATUS) 0 = true →
    reading < 1024 →
    ∃ t, exec (.avsConfirm reading none) s = .next t ∧ t.rdf .HLT_AVS_STATUS 16 10 = reading ∧
      (if s.rdf .HLT_AVS_SET 0 10 + 15 < reading ∨ reading + 15 < s.rdf .HLT_AVS_SET 0 10
       then t.rdf .HLT_AVS_STATUS 0 2 = 0 ∧ bit (t.rd .EVT_STATUS (pageOf .health)) 5 = true ∧
         (s.rd .FAULT_COUNT (pageOf .health) = 0 →
           t.rd .FAULT_REC0 (pageOf .health) = BitVec.ofNat 64 (0x01010000 + reading))
       else t.rdf .HLT_AVS_STATUS 0 2 = 2 ∧ Safety.changesOnly (fun r _ _ => r == .HLT_AVS_STATUS) [] s t))

/-- Rotation, BIST and gap tests (R570 to R573). -/
def Obligations.TilesRotateAndAreTested : Prop :=
  (∀ (x p : Nat) (s : State), Safety.calm s → bit (s.rd .HLT_ROT_CTRL) 0 = true → s.rdf .HLT_ROT_STATUS 0 3 = 0 →
    s.health.rotEpoch + s.rdf .HLT_ROT_CTRL 8 16 ≤ epochNow s → candidate s = some x →
    ((List.range 32).map (8 + ·)).find? (spareReady s) = some p → s.up (tileB x) = true →
    recovering s (tileDomain s x) = false → (s.rdf .TILE_LDR_STATUS 0 3 = 0 ∨ 5 ≤ s.rdf .TILE_LDR_STATUS 0 3) →
    ∃ t, exec .rotationStart s = .next t ∧ t.rdf .HLT_ROT_STATUS 0 3 = 1 ∧ t.health.rot = some (x, p) ∧
      t.health.last = x ∧ t.health.rotEpoch = epochNow s ∧
      Safety.changesOnly (fun r _ _ => r == .HLT_ROT_STATUS) [.health] s t) ∧
  (∀ (x p : Nat) (s : State), Safety.calm s → s.health.rot = some (x, p) → x < 48 → p < 48 → x ≠ p →
    deliveryStopped s x = true → drained s x = true →
    ∃ t u, exec .rotationDrained s = .next t ∧ t = settle (resolve (resumeTile u x)) ∧ physOf u x = physOf s p ∧
      physOf u p = physOf s x ∧ (∀ y, y < 48 → y ≠ x → y ≠ p → physOf u y = physOf s y) ∧ u.rdf .HLT_ROT_STATUS 0 3 = 3 ∧
      u.rdf .HLT_ROT_STATUS 8 6 = physOf s x ∧ u.health.rot = none ∧
      u.rdf .HLT_ROT_STATUS 16 16 = min (s.rdf .HLT_ROT_STATUS 16 16 + 1) 0xFFFF ∧
      Safety.changesOnly (fun r _ _ => r == .HLT_ROT_STATUS || r == .HLT_TILE_PHYS) [.health] s u) ∧
  (∀ (x p : Nat) (s : State), Safety.calm s → s.health.rot = some (x, p) → x < 48 → drained s x = false →
    ∃ t, exec .rotationDrained s = .next t ∧ Safety.changesOnly (fun _ _ _ => false) [] s t) ∧
  (∀ (x p : Nat) (s : State), Safety.calm s → s.health.rot = some (x, p) → x < 48 →
    ∃ t u, exec .rotateAbandoned s = .next t ∧ t = settle (resolve (resumeTile u x)) ∧ u.rdf .HLT_ROT_STATUS 0 3 = 0 ∧
      u.health.rot = none ∧ physOf u x = physOf s x ∧
      (s.rd .FAULT_COUNT (pageOf .health) = 0 → u.rd .FAULT_REC0 (pageOf .health) = BitVec.ofNat 64 (0x01060000 + x)) ∧
      Safety.changesOnly (fun r i _ => Safety.faultOf .health r i || r == .HLT_ROT_STATUS) [.health] s u) ∧
  (∀ (fails : Bool) (s : State), Safety.calm s → s.rdf .HLT_ROT_STATUS 0 3 = 3 →
    ∃ t, exec (.bistSlice fails) s = .next t ∧ t.rdf .HLT_ROT_STATUS 0 3 = (if s.health.slices = 255 then 0 else 3) ∧
      t.health.slices = (if s.health.slices = 255 then 0 else s.health.slices + 1) ∧
      (fails = true → bit (t.rd .HLT_TILE_BAD) (s.rdf .HLT_ROT_STATUS 8 6) = true ∧
        bit (t.rd .EVT_STATUS (pageOf .health)) 6 = true ∧ (s.rd .FAULT_COUNT (pageOf .health) = 0 →
          t.rd .FAULT_REC0 (pageOf .health) = BitVec.ofNat 64 (0x01040000 + s.rdf .HLT_ROT_STATUS 8 6))) ∧
      (fails = false → Safety.changesOnly (fun r _ _ => r == .HLT_ROT_STATUS) [.health] s t)) ∧
  (∀ (x : Fin 48) (f : Fin 64) (good : Bool) (s : State), Safety.calm s → bit (s.rd .HLT_CTRL) 3 = true →
    s.ready (.tile x) = true → fuIdle s x f = true →
    (let n := tget 0 s.health.gaps (64 * x.val + f.val)
    ∃ t, exec (.gapVector x f good) s = .next t ∧
      tget 0 t.health.gaps (64 * x.val + f.val) = (if n = 4095 then 0 else n + 1) ∧
      t.rd .HLT_GAP_STATUS = (if n = 4095 then satAdd 32 (s.rd .HLT_GAP_STATUS) 1 else s.rd .HLT_GAP_STATUS) ∧
      (n = 4095 → good = false → (8 ≤ x.val → x.val < 40 → x.val ∈ t.health.urgent) ∧
        bit (t.rd .EVT_STATUS (pageOf .health)) 6 = true ∧
        (s.rd .FAULT_COUNT (pageOf .health) = 0 →
          t.rd .FAULT_REC0 (pageOf .health) = BitVec.ofNat 64 (0x01050000 + f + 256 * x))) ∧
      ((n ≠ 4095 ∨ good = true) → Safety.changesOnly (fun r _ _ => r == .HLT_GAP_STATUS) [.health] s t)))

/-! Chapters 21 and 22: device states, HOLD, resets, pins. -/

/-- Device states (R583 to R587): Quiet, Active, Standby entry with its drains, Standby, a wake that waits for PLLs and channels.
The model's choices in it: log 103. -/
def Obligations.DeviceStatesChange : Prop :=
  (∀ (q : Requester) (s : State), Safety.calm s → Safety.levelsFollow s → Safety.serves s q .devctl .PWR_CMD 0 0 →
    Safety.answers s q (regAddr .PWR_CMD) 4 → s.pwrState = 0 → quietOk s = true →
    ∃ t, exec (.quiet q) s = .next t ∧ t.pwrState = 1 ∧ t.hold = s.hold ∧
      Safety.changesOnly (fun _ _ _ => false) [.captured] s t) ∧
  (∀ (q : Requester) (s : State), Safety.calm s → Safety.serves s q .devctl .PWR_CMD 0 0 → s.pwrState = 0 → quietOk s = false →
    ∃ t, exec (.quiet q) s = .next t ∧ t.pwrState = 0 ∧
      t.rdf .FAULT_COUNT 0 16 0 = min (s.rdf .FAULT_COUNT 0 16 0 + 1) 0xFFFF ∧
      (s.rd .FAULT_COUNT 0 = 0 → t.rd .FAULT_REC0 0 = 0x00020080) ∧
      Safety.changesOnly (fun r i _ => Safety.faultOf .devctl r i) [.captured] s t) ∧
  (∀ (q : Requester) (s : State), Safety.calm s → Safety.serves s q .devctl .PWR_CMD 0 0 → s.pwrState ≤ 1 →
    ∃ t, exec (.active q) s = .next t ∧ t.pwrState = 0 ∧ Safety.changesOnly (fun _ _ _ => false) [.captured] s t) ∧
  (∀ (q : Requester) (s : State), Safety.calm s → Safety.serves s q .devctl .PWR_CMD 0 0 → s.pwrState ≤ 1 → s.hold = false →
    ∃ t, exec (.standby q) s = .next t ∧ t.pwrState = 2 ∧ bit (t.rd .STR_STATUS) 0 = false ∧
      (∀ d, d < 23 → s.domSt d = .on → t.domSt d = .draining ∧ bit t.power.entered d = true) ∧ t.domSt 23 = s.domSt 23) ∧
  (∀ (q : Requester) (s : State), Safety.calm s → Safety.serves s q .devctl .PWR_CMD 0 0 → s.pwrState ≤ 1 → s.hold = true →
    ∃ t, exec (.standby q) s = .next t ∧ t.pwrState = 2 ∧ t.power.entry = true ∧
      Safety.changesOnly (fun _ _ _ => false) [.captured, .power] s t) ∧
  (∀ (s : State), Safety.calm s → s.pwrState = 2 → s.hold = false →
    ∃ t, exec .standbyEntered s = .next t ∧ t.pwrState = (if s.power.wake then 4 else 3) ∧ t.lanes = [] ∧ t.groups = [] ∧
      t.ports = [] ∧ t.slots = [] ∧ t.reqs = []) ∧
  (∀ (w : WakeSource) (s : State), Safety.calm s → s.pwrState = 3 → s.hold = false → wakeValid s w = true →
    ∃ t, exec (.wake w) s = .next t ∧ t.pwrState = 4 ∧ Safety.changesOnly (fun _ _ _ => false) [] s t) ∧
  (∀ (w : WakeSource) (s : State), Safety.calm s → s.pwrState = 2 → wakeValid s w = true →
    ∃ t, exec (.wake w) s = .next t ∧ t.pwrState = 2 ∧ t.power.wake = true ∧
      Safety.changesOnly (fun _ _ _ => false) [.power] s t) ∧
  (∀ (s : State), Safety.calm s → s.pwrState = 4 → s.hold = false → s.power.woken = false →
    ∃ t, exec .wakeComplete s = .next t ∧ t.power.wdt = 0 ∧ t.pwrState = (if wakeReady (wakeStart s) then 0 else 4) ∧
      (wakeReady (wakeStart s) = false → t.power.woken = true)) ∧
  (∀ (s : State), Safety.calm s → s.pwrState = 4 → s.hold = false → s.power.woken = true →
    (wakeReady s = true → ∃ t, exec .wakeComplete s = .next t ∧ t.pwrState = 0 ∧ t.power.woken = false) ∧
    (wakeReady s = false → ∃ t, exec .wakeComplete s = .next t ∧ Safety.changesOnly (fun _ _ _ => false) [] s t))

/-- HOLD (R590, R591) and the first-fault log (R600). -/
def Obligations.HoldAndLog : Prop :=
  (∀ (s : State), Safety.calm s → s.hold = false →
    ∃ t, exec .holdStart s = .next t ∧ t.hold = true ∧ bit (t.rd .EVT_STATUS (pageOf .health)) 0 = true ∧
      Safety.changesOnly (fun r i _ => Safety.eventOf .health r i) [] s t) ∧
  (∀ (mv us : Nat) (s : State), Safety.calm s → s.hold = true → mv < 1024 → 50 ≤ us → us < 2 ^ 20 →
    ∃ t, exec (.holdEnd mv us) s = .next t ∧ t.hold = false ∧ t.rd .HLT_EXCURSIONS = satAdd 32 (s.rd .HLT_EXCURSIONS) 1 ∧
      t.rdf .HLT_EXC_LAST 0 12 = mv ∧ t.rdf .HLT_EXC_LAST 12 20 = us ∧ t.power.down = 0 ∧ t.power.entry = false) ∧
  (∀ (mv us : Nat) (s : State), Safety.calm s → us < 50 →
    ∃ t, exec (.holdEnd mv us) s = .next t ∧ t.hold = s.hold ∧ Safety.changesOnly (fun _ _ _ => false) [] s t) ∧
  (∀ (q : Requester) (v : Word) (s : State), Safety.calm s → Safety.serves s q .devctl .PWR_FLOG_CNT 0 0 →
    ∃ t, exec (.flogClear q v) s = .next t ∧ t.rd .PWR_FLOG_CNT = 0 ∧ (∀ j, j < 16 → t.rd .PWR_FLOG 0 j = 0) ∧
      Safety.changesOnly (fun r _ _ => r == .PWR_FLOG || r == .PWR_FLOG_CNT) [.captured] s t)

/-- Device resets (R592 to R594) and the watchdog (R593).
The model's choices in it: logs 94, 99, 135. -/
def Obligations.ResetsTakeEffect : Prop :=
  (∀ (s : State), ∃ t, exec .resetP s = .next t ∧ (∀ r i j, t.rd r i j = por r i j) ∧ t.mem = [] ∧ t.fuses = s.fuses ∧
    t.pending = s.pending ∧ t.power = State.reset.power ∧ t.cores = [] ∧ t.queues = [] ∧ t.lanes = []) ∧
  (∀ (sram : Bool) (kept : BitVec 8) (unissued : List (Nat × Nat)) (mv us : Nat) (s : State),
    ∃ t, exec (.resetB sram ⟨kept, unissued⟩ mv us) s = .next t ∧ t.power.inReset = true ∧ bit t.power.cause 1 = true ∧
      t.fuses = s.fuses ∧ t.pending = s.pending ∧ t.cores = [] ∧ t.queues = [] ∧ t.lanes = [] ∧
      (∀ b : Block, t.rd .EVT_ENABLE (pageOf b) = 0 ∧ t.rd .BLK_CTRL (pageOf b) = 0) ∧
      (t.rd .PWR_CTRL = s.rd .PWR_CTRL ∧ t.rd .PWR_RESET_CAUSE = s.rd .PWR_RESET_CAUSE)) ∧
  (∀ (s : State), ∃ t, exec .resetE s = .next t ∧ t.power.inReset = true ∧ bit t.power.cause 2 = true ∧
      t.fuses = s.fuses ∧ t.pending = s.pending ∧ t.cores = [] ∧ t.queues = [] ∧ t.lanes = [] ∧
      (∀ b : Block, t.rd .EVT_ENABLE (pageOf b) = 0 ∧ t.rd .BLK_CTRL (pageOf b) = 0) ∧
      (t.rd .PWR_CTRL = s.rd .PWR_CTRL ∧ t.rd .PWR_RESET_CAUSE = s.rd .PWR_RESET_CAUSE)) ∧
  (∀ (s : State), bit (s.rd .PWR_WDT_CTRL) 0 = true → s.rdf .PWR_WDT_LEFT 0 16 = 0 → s.asleep = false → s.power.inReset = false →
    ∃ t, exec .watchdogExpiry s = .next t ∧ t.power.inReset = true ∧ bit t.power.cause 3 = true ∧ t.fuses = s.fuses ∧
      t.cores = [] ∧ t.queues = [] ∧ t.lanes = []) ∧
  (∀ (s : State), Safety.calm s → s.rdf .PWR_WDT_LEFT 0 16 ≠ 0 →
    ∃ t, exec .watchdogExpiry s = .next t ∧ Safety.changesOnly (fun _ _ _ => false) [] s t) ∧
  (∀ (q : Requester) (v : Word) (s : State), Safety.calm s → Safety.serves s q .devctl .PWR_WDT_KICK 0 0 → v = 0x4B1C →
    ∃ t, exec (.wdtKick q v) s = .next t ∧ (t.rd .PWR_WDT_LEFT).toNat = s.rdf .PWR_WDT_CTRL 16 16 ∧ t.power.wdt = 0 ∧
      Safety.changesOnly (fun r _ _ => r == .PWR_WDT_LEFT) [.captured, .power] s t) ∧
  (∀ (q : Requester) (v : Word) (s : State), Safety.calm s → Safety.serves s q .devctl .PWR_WDT_KICK 0 0 → v ≠ 0x4B1C →
    ∃ t, exec (.wdtKick q v) s = .next t ∧ t.rdf .FAULT_COUNT 0 16 0 = min (s.rdf .FAULT_COUNT 0 16 0 + 1) 0xFFFF ∧
      Safety.changesOnly (fun r i _ => Safety.faultOf .devctl r i) [.captured] s t) ∧
  (∀ (sel : BitVec 2) (vsel : BitVec 4) (s : State), s.power.inReset = true →
    ∃ t, exec (.resetRelease sel vsel) s = .next t ∧ t.power.inReset = false ∧ t.power.full = false ∧
      t.rd .PWR_RESET_CAUSE = s.rd .PWR_RESET_CAUSE ||| s.power.cause.setWidth 64 ∧ t.rd .EPO_NUMBER = 0 ∧
      t.sec.bootSel = sel ∧
      (s.power.full = true → ∀ b, b < 4 → t.rd .GPIO_BANK 0 b = BitVec.ofNat 64 (vsel.getLsbD b).toNat))

/-- Pins (R134, R550, R601 to R613, R629): functions are switched, latches set and cleared, levels accepted; what a pad drives
and pulls, in a Heath that does not run and in a bank without its supply too; the test access port; PPS and SMBus.
The model's choices in it: logs 104, 131, 143. -/
def Obligations.PinsFollowTheirCommands : Prop :=
  (∀ (q : Requester) (n : Fin 96) (v : Word) (s : State), Safety.calm s → Safety.serves s q .gpio .GPIO_CFG 0 n →
    fld v 0 4 < 4 → (fld v 4 3 = 0 ∨ fld v 0 4 = 2) → fld v 10 2 ≠ 3 → fld v 16 3 < 6 → (fld v 20 4 = 0 ∨ n.val < 16) →
    ∃ t, exec (.functionSwitch q n v) s = .next t ∧
      t.rd .GPIO_CFG 0 n = merge 0x1F73F7F (s.rd .GPIO_CFG 0 n) (ext v) ∧ t.rdf .GPIO_CFG 0 4 0 n = fld v 0 4 ∧
      t.rdf .GPIO_CFG 16 3 0 n = fld v 16 3 ∧
      (if fld v 0 7 = s.rdf .GPIO_CFG 0 7 0 n then t.gpio = s.gpio
       else tget 0 t.gpio.quiet n.val = 2 ∧ t.gpio.filt.getLsbD n = pinBit t .GPIO_IN n ∧
         (fld v 0 4 = 0 → fld v 12 1 = 0 → Config.heathClaims s.heath.frames n = false → bankSupplyOk s (n / 24) = true →
           pinBit s .GPIO_OE n = true → pinBit t .GPIO_IN n = pinBit s .GPIO_OUT n) ∧
         (fld v 0 4 = 2 → bit (s.rd .STR_ES_CTRL 0 (fld v 4 3)) 0 = true →
           t.stair.es.getLsbD (fld v 4 3) = pinBit t .GPIO_IN n)) ∧
      (fld v 16 3 = 4 → t.gpio.filt.getLsbD n = true → pinBit t .GPIO_EVT n = true) ∧
      Safety.changesOnly (fun r _ j => (r == .GPIO_CFG && j == n.val) || ((r == .GPIO_EVT || r == .GPIO_IN) && j == n.val / 32))
        [.captured, .gpio, .stair, .power] s t) ∧
  (∀ (q : Requester) (w : Fin 3) (v : Word) (s : State), Safety.calm s → Safety.serves s q .gpio .GPIO_OUT_SET 0 w →
    ∃ t, exec (.gpioOutSet q w v) s = .next t ∧ t.rd .GPIO_OUT 0 w = s.rd .GPIO_OUT 0 w ||| ext v ∧
      Safety.changesOnly (fun r _ j => r == .GPIO_OUT && j == w.val) [.captured] s t) ∧
  (∀ (q : Requester) (w : Fin 3) (v : Word) (s : State), Safety.calm s → Safety.serves s q .gpio .GPIO_OUT_CLR 0 w →
    ∃ t, exec (.gpioOutClr q w v) s = .next t ∧ t.rd .GPIO_OUT 0 w = s.rd .GPIO_OUT 0 w &&& ~~~ ext v ∧
      Safety.changesOnly (fun r _ j => r == .GPIO_OUT && j == w.val) [.captured] s t) ∧
  (∀ (n : Fin 96) (level : Bool) (ticks : Nat) (s : State), Safety.calm s →
    (ticks < s.rdf .GPIO_CFG 20 4 0 n ∨ tget 0 s.gpio.quiet n.val ≠ 0) →
    ∃ t, exec (.gpioPinEvent n ⟨level, ticks⟩) s = .next t ∧ pinBit t .GPIO_IN n = level ∧
      Safety.changesOnly (fun r _ j => r == .GPIO_IN && j == n.val / 32) [] s t) ∧
  (∀ (n : Fin 96) (level : Bool) (ticks : Nat) (s : State), Safety.calm s → s.rdf .GPIO_CFG 20 4 0 n ≤ ticks →
    tget 0 s.gpio.quiet n.val = 0 →
    ∃ t, exec (.gpioPinEvent n ⟨level, ticks⟩) s = .next t ∧ t.gpio.filt.getLsbD n = level ∧ pinBit t .GPIO_IN n = level ∧
      (s.gpio.filt.getLsbD n ≠ level → s.rdf .GPIO_CFG 16 3 0 n = 3 → pinBit t .GPIO_EVT n = true) ∧
      (s.rdf .GPIO_CFG 16 3 0 n = 0 → t.rd .GPIO_EVT 0 (n / 32) = s.rd .GPIO_EVT 0 (n / 32)) ∧
      Safety.changesOnly (fun r _ j => (r == .GPIO_IN || r == .GPIO_EVT) && j == n.val / 32) [.gpio, .power] s t) ∧
  (∀ (n : Fin 96) (claim : Option (Option Bool)) (s : State),
    (bankSupplyOk s (n / 24) = false → padDrive s n claim = none) ∧
    (s.rdf .GPIO_CFG 12 1 0 n = 1 → padDrive s n claim ≠ some true) ∧
    (bankSupplyOk s (n / 24) = true → s.rdf .GPIO_CFG 12 1 0 n = 0 → s.rdf .GPIO_CFG 0 4 0 n = 0 →
      padDrive s n none = if pinBit s .GPIO_OE n then some (pinBit s .GPIO_OUT n) else none) ∧
    (s.rdf .GPIO_CFG 0 4 0 n = 1 → hthState s ≠ 4 → hthState s ≠ 5 → padDrive s n claim = none ∧ padPull s n = 0)) ∧
  (∀ (tms tdi : Bool) (pins : List (TapPin × Bool)) (s : State),
    (let t := tapClock s tms tdi pins
    t.tap.state = s.tap.state.next tms ∧
    (s.tap.state = .shiftDr ∨ s.tap.state = .shiftIr → t.tap.shift = s.tap.shift.drop 1 ++ [tdi]) ∧
    (s.tap.state = .captureDr → s.tap.instr = .sample → t.tap.shift =
      (pins.filter fun x => match x.1 with
        | .linkLane _ | .refclk _ => false
        | _ => true).map Prod.snd) ∧
    (s.tap.state.next tms = .updateIr → debugScope s 1 = false → t.tap.instr.mandatory = true) ∧
    Safety.changesOnly (fun _ _ _ => false) [.tap] s t)) ∧
  (∀ (l : Nat) (was : Bool) (mv : Int), (150 ≤ mv → testReceive l was mv = true) ∧ (mv ≤ -150 → testReceive l was mv = false) ∧
    (-50 < mv → mv < 50 → testReceive l was mv = was)) ∧
  (∀ (x : DWord) (s : State), Safety.calm s →
    ∃ t, exec (.ppsEdge x) s = .next t ∧ t.rd .GPIO_PPS_STAMP = x ∧ t.rd .GPIO_PPS_CNT = satAdd 32 (s.rd .GPIO_PPS_CNT) 1 ∧
      Safety.changesOnly (fun r _ _ => r == .GPIO_PPS_STAMP || r == .GPIO_PPS_CNT) [] s t) ∧
  (∀ (addr : BitVec 7) (wr : Bool) (cmd : BitVec 8) (s : State), Safety.calm s → addr.toNat = s.rdf .GPIO_SMB_CTRL 0 7 →
    ∃ t, exec (.smbusReadWord addr wr cmd) s = .next t ∧ t.gpio.smbus = (if wr then none else smbusWord s cmd.toNat) ∧
      (wr = false → cmd = 1 → t.gpio.smbus = some ((s.rd .PWR_RESET_CAUSE).setWidth 16)) ∧
      Safety.changesOnly (fun _ _ _ => false) [.gpio] s t)

end
end

