-- ==== Sys2Proof/Laws/Table.lean ====
section
/-! SUPPORT. Laws of the sparse tables: reading what was set, and the canonical form. -/

namespace Sys2Proof.Machine

variable {κ β : Type} [DecidableEq κ]

theorem tget_tdel_same (d : β) (t : Tbl κ β) (k : κ) : tget d (tdel t k) k = d := by
  induction t with
  | nil => rfl
  | cons e r ih =>
    obtain ⟨k', v⟩ := e
    by_cases h : k' = k <;> simp [tdel, tget, h, ih]

theorem tget_tdel_ne (d : β) (t : Tbl κ β) {k k' : κ} (h : k ≠ k') : tget d (tdel t k) k' = tget d t k' := by
  induction t with
  | nil => rfl
  | cons e r ih =>
    obtain ⟨a, v⟩ := e
    by_cases ha : a = k
    · subst ha; simp [tdel, tget, h, ih]
    · simp only [tdel, if_neg ha, tget, ih]

theorem tget_tins_same (ord : κ → Nat) (d v : β) (t : Tbl κ β) (k : κ) (hk : ∀ e ∈ t,
  e.1 ≠ k) : tget d (tins ord t k v) k = v := by
  induction t with
  | nil => simp [tins, tget]
  | cons e r ih =>
    obtain ⟨a, w⟩ := e
    have ha : a ≠ k := hk (a, w) (by simp)
    simp only [tins]
    split
    · simp [tget]
    · simp only [tget, if_neg ha]
      exact ih fun e he => hk e (by simp [he])

theorem tget_tins_ne (ord : κ → Nat) (d v : β) (t : Tbl κ β) {k k' : κ} (h : k ≠ k') :
    tget d (tins ord t k v) k' = tget d t k' := by
  induction t with
  | nil => simp [tins, tget, h]
  | cons e r ih =>
    obtain ⟨a, w⟩ := e
    simp only [tins]
    split
    · simp [tget, h]
    · by_cases hb : a = k' <;> simp [tget, hb, ih]

theorem not_mem_tdel (t : Tbl κ β) (k : κ) : ∀ e ∈ tdel t k, e.1 ≠ k := by
  induction t with
  | nil => simp [tdel]
  | cons e r ih =>
    obtain ⟨a, w⟩ := e
    by_cases h : a = k
    · simpa [tdel, h] using ih
    · intro e he
      simp only [tdel, if_neg h, List.mem_cons] at he
      rcases he with rfl | he
      · exact h
      · exact ih e he

/-- A key set reads as it was set. -/
@[simp] theorem tget_tset_same [DecidableEq β] (ord : κ → Nat) (d v : β) (t : Tbl κ β) (k : κ) :
    tget d (tset ord d t k v) k = v := by
  unfold tset
  split
  · rename_i h; rw [tget_tdel_same]; exact h.symm
  · exact tget_tins_same ord d v _ k (not_mem_tdel t k)

/-- Setting a key leaves every other key. -/
theorem tget_tset_ne [DecidableEq β] (ord : κ → Nat) (d v e : β) (t : Tbl κ β) {k k' : κ} (h : k ≠ k') :
    tget e (tset ord d t k v) k' = tget e t k' := by
  unfold tset
  split
  · exact tget_tdel_ne e t h
  · rw [tget_tins_ne ord e v _ h, tget_tdel_ne e t h]

/-! The canonical form. -/

theorem tabove_tdel (ord : κ → Nat) (n : Nat) (t : Tbl κ β) (k : κ) (h : tabove ord n t = true) :
    tabove ord n (tdel t k) = true := by
  induction t with
  | nil => rfl
  | cons e r ih =>
    obtain ⟨a, w⟩ := e
    simp only [tabove, Bool.and_eq_true] at h
    by_cases ha : a = k
    · rw [tdel, if_pos ha]; exact ih h.2
    · rw [tdel, if_neg ha, tabove, h.1, ih h.2]; rfl

theorem twf_tdel [DecidableEq β] (ord : κ → Nat) (d : κ → β) (t : Tbl κ β) (k : κ) (h : twf ord d t = true) :
    twf ord d (tdel t k) = true := by
  induction t with
  | nil => rfl
  | cons e r ih =>
    obtain ⟨a, w⟩ := e
    simp only [twf, Bool.and_eq_true] at h
    by_cases ha : a = k
    · simpa [tdel, ha] using ih h.2
    · simp only [tdel, if_neg ha, twf, Bool.and_eq_true]
      exact ⟨⟨h.1.1, tabove_tdel ord _ r k h.1.2⟩, ih h.2⟩

omit [DecidableEq κ] in
theorem tabove_tins (ord : κ → Nat) (n : Nat) (t : Tbl κ β) (k : κ) (v : β) (h : tabove ord n t = true) (hk : n < ord k) :
    tabove ord n (tins ord t k v) = true := by
  induction t with
  | nil => simp [tins, tabove, hk]
  | cons e r ih =>
    obtain ⟨a, w⟩ := e
    simp only [tabove, Bool.and_eq_true, decide_eq_true_eq] at h
    simp only [tins]
    split <;> simp [tabove, h.1, hk, h.2, ih h.2]

omit [DecidableEq κ] in
theorem tabove_trans (ord : κ → Nat) {m n : Nat} (hm : m < n) (t : Tbl κ β) (h : tabove ord n t = true) :
    tabove ord m t = true := by
  induction t with
  | nil => rfl
  | cons e r ih =>
    obtain ⟨a, w⟩ := e
    simp only [tabove, Bool.and_eq_true, decide_eq_true_eq] at h ⊢
    exact ⟨by omega, ih h.2⟩

omit [DecidableEq κ] in
theorem twf_tins [DecidableEq β] (ord : κ → Nat) (d : κ → β) (inj : ∀ a b, ord a = ord b → a = b) (t : Tbl κ β) (k : κ) (v : β)
    (h : twf ord d t = true) (hv : v ≠ d k) (hk : ∀ e ∈ t, e.1 ≠ k) : twf ord d (tins ord t k v) = true := by
  induction t with
  | nil => simp [tins, twf, tabove, hv]
  | cons e r ih =>
    obtain ⟨a, w⟩ := e
    have hak : a ≠ k := hk (a, w) (by simp)
    simp only [twf, Bool.and_eq_true, decide_eq_true_eq] at h
    simp only [tins]
    split
    · rename_i hlt
      simp only [twf, tabove, Bool.and_eq_true, decide_eq_true_eq]
      exact ⟨⟨hv, hlt, tabove_trans ord hlt r h.1.2⟩, h.1, h.2⟩
    · rename_i hlt
      have hne : ord a ≠ ord k := fun e => hak (inj _ _ e)
      simp only [twf, Bool.and_eq_true, decide_eq_true_eq]
      exact ⟨⟨h.1.1, tabove_tins ord _ r k v h.1.2 (by omega)⟩, ih h.2 fun e he => hk e (by simp [he])⟩

/-- Setting a key keeps the canonical form. -/
theorem twf_tset [DecidableEq β] (ord : κ → Nat) (d : β) (inj : ∀ a b, ord a = ord b → a = b) (t : Tbl κ β) (k : κ) (v : β)
    (h : twf ord (fun _ => d) t = true) : twf ord (fun _ => d) (tset ord d t k v) = true := by
  unfold tset
  split
  · exact twf_tdel ord _ t k h
  · rename_i hv
    exact twf_tins ord _ inj _ k v (twf_tdel ord _ t k h) hv (not_mem_tdel t k)

omit [DecidableEq κ] in
/-- Keeping some entries keeps the canonical form. -/
theorem twf_filter [DecidableEq β] (ord : κ → Nat) (d : κ → β) (p : κ × β → Bool) (t : Tbl κ β) (h : twf ord d t = true) :
    twf ord d (t.filter p) = true := by
  have above : ∀ (n : Nat) (r : Tbl κ β), tabove ord n r = true → tabove ord n (r.filter p) = true := by
    intro n r
    induction r with
    | nil => intro _; rfl
    | cons e r ih =>
      obtain ⟨a, w⟩ := e
      intro h
      simp only [tabove, Bool.and_eq_true] at h
      by_cases hp : p (a, w) = true <;> simp_all [List.filter, tabove]
  induction t with
  | nil => rfl
  | cons e r ih =>
    obtain ⟨a, w⟩ := e
    simp only [twf, Bool.and_eq_true] at h
    by_cases hp : p (a, w) = true
    · simp only [List.filter, hp, twf, Bool.and_eq_true]
      exact ⟨⟨h.1.1, above _ r h.1.2⟩, ih h.2⟩
    · simpa [List.filter, hp] using ih h.2

end Sys2Proof.Machine
end

