-- ==== Sys2Proof/Laws/State.lean ====
section
/-! SUPPORT. One lemma per field per update of State, and what each table reads after an update. -/

namespace Sys2Proof.Machine

variable (s : State)

@[simp] theorem State.wr_pending (r : Reg) (v : DWord) (i j : Nat) : (s.wr r v i j).pending = s.pending := rfl
@[simp] theorem State.wr_staged (r : Reg) (v : DWord) (i j : Nat) : (s.wr r v i j).staged = s.staged := rfl
@[simp] theorem State.wr_captured (r : Reg) (v : DWord) (i j : Nat) : (s.wr r v i j).captured = s.captured := rfl
@[simp] theorem State.wr_force (r : Reg) (v : DWord) (i j : Nat) : (s.wr r v i j).force = s.force := rfl
@[simp] theorem State.wr_rsp (r : Reg) (v : DWord) (i j : Nat) : (s.wr r v i j).rsp = s.rsp := rfl
@[simp] theorem State.wr_reqs (r : Reg) (v : DWord) (i j : Nat) : (s.wr r v i j).reqs = s.reqs := rfl
@[simp] theorem State.wr_levels (r : Reg) (v : DWord) (i j : Nat) : (s.wr r v i j).levels = s.levels := rfl
@[simp] theorem State.wr_sums (r : Reg) (v : DWord) (i j : Nat) : (s.wr r v i j).sums = s.sums := rfl
@[simp] theorem State.wr_rearm (r : Reg) (v : DWord) (i j : Nat) : (s.wr r v i j).rearm = s.rearm := rfl
@[simp] theorem State.wr_heldEvents (r : Reg) (v : DWord) (i j : Nat) : (s.wr r v i j).heldEvents = s.heldEvents := rfl
@[simp] theorem State.wr_hostEvents (r : Reg) (v : DWord) (i j : Nat) : (s.wr r v i j).hostEvents = s.hostEvents := rfl
@[simp] theorem State.wr_resetting (r : Reg) (v : DWord) (i j : Nat) : (s.wr r v i j).resetting = s.resetting := rfl
@[simp] theorem State.wr_dom (r : Reg) (v : DWord) (i j : Nat) : (s.wr r v i j).dom = s.dom := rfl
@[simp] theorem State.wr_mem (r : Reg) (v : DWord) (i j : Nat) : (s.wr r v i j).mem = s.mem := rfl
@[simp] theorem State.wr_quads (r : Reg) (v : DWord) (i j : Nat) : (s.wr r v i j).quads = s.quads := rfl
@[simp] theorem State.wr_lanes (r : Reg) (v : DWord) (i j : Nat) : (s.wr r v i j).lanes = s.lanes := rfl
@[simp] theorem State.wr_groups (r : Reg) (v : DWord) (i j : Nat) : (s.wr r v i j).groups = s.groups := rfl
@[simp] theorem State.wr_mcs (r : Reg) (v : DWord) (i j : Nat) : (s.wr r v i j).mcs = s.mcs := rfl
@[simp] theorem State.wr_bad (r : Reg) (v : DWord) (i j : Nat) : (s.wr r v i j).bad = s.bad := rfl
@[simp] theorem State.wr_spbs (r : Reg) (v : DWord) (i j : Nat) : (s.wr r v i j).spbs = s.spbs := rfl
@[simp] theorem State.wr_handing (r : Reg) (v : DWord) (i j : Nat) : (s.wr r v i j).handing = s.handing := rfl
@[simp] theorem State.wr_posted (r : Reg) (v : DWord) (i j : Nat) : (s.wr r v i j).posted = s.posted := rfl
@[simp] theorem State.wr_queues (r : Reg) (v : DWord) (i j : Nat) : (s.wr r v i j).queues = s.queues := rfl
@[simp] theorem State.wr_ports (r : Reg) (v : DWord) (i j : Nat) : (s.wr r v i j).ports = s.ports := rfl
@[simp] theorem State.wr_bounds (r : Reg) (v : DWord) (i j : Nat) : (s.wr r v i j).bounds = s.bounds := rfl
@[simp] theorem State.wr_sched (r : Reg) (v : DWord) (i j : Nat) : (s.wr r v i j).sched = s.sched := rfl
@[simp] theorem State.wr_slots (r : Reg) (v : DWord) (i j : Nat) : (s.wr r v i j).slots = s.slots := rfl
@[simp] theorem State.wr_cores (r : Reg) (v : DWord) (i j : Nat) : (s.wr r v i j).cores = s.cores := rfl
@[simp] theorem State.wr_tiles (r : Reg) (v : DWord) (i j : Nat) : (s.wr r v i j).tiles = s.tiles := rfl
@[simp] theorem State.wr_exports (r : Reg) (v : DWord) (i j : Nat) : (s.wr r v i j).exports = s.exports := rfl
@[simp] theorem State.wr_epo (r : Reg) (v : DWord) (i j : Nat) : (s.wr r v i j).epo = s.epo := rfl
@[simp] theorem State.wr_hthOut (r : Reg) (v : DWord) (i j : Nat) : (s.wr r v i j).hthOut = s.hthOut := rfl
@[simp] theorem State.wr_discOut (r : Reg) (v : DWord) (i j : Nat) : (s.wr r v i j).discOut = s.discOut := rfl
@[simp] theorem State.wr_heath (r : Reg) (v : DWord) (i j : Nat) : (s.wr r v i j).heath = s.heath := rfl
@[simp] theorem State.wr_stair (r : Reg) (v : DWord) (i j : Nat) : (s.wr r v i j).stair = s.stair := rfl
@[simp] theorem State.wr_ldr (r : Reg) (v : DWord) (i j : Nat) : (s.wr r v i j).ldr = s.ldr := rfl
@[simp] theorem State.wr_sec (r : Reg) (v : DWord) (i j : Nat) : (s.wr r v i j).sec = s.sec := rfl
@[simp] theorem State.wr_link (r : Reg) (v : DWord) (i j : Nat) : (s.wr r v i j).link = s.link := rfl
@[simp] theorem State.wr_health (r : Reg) (v : DWord) (i j : Nat) : (s.wr r v i j).health = s.health := rfl
@[simp] theorem State.wr_gpio (r : Reg) (v : DWord) (i j : Nat) : (s.wr r v i j).gpio = s.gpio := rfl
@[simp] theorem State.wr_power (r : Reg) (v : DWord) (i j : Nat) : (s.wr r v i j).power = s.power := rfl
@[simp] theorem State.wr_fuses (r : Reg) (v : DWord) (i j : Nat) : (s.wr r v i j).fuses = s.fuses := rfl
@[simp] theorem State.wr_draws (r : Reg) (v : DWord) (i j : Nat) : (s.wr r v i j).draws = s.draws := rfl
@[simp] theorem State.wr_detourDiff (r : Reg) (v : DWord) (i j : Nat) : (s.wr r v i j).detourDiff = s.detourDiff := rfl
@[simp] theorem State.wr_tap (r : Reg) (v : DWord) (i j : Nat) : (s.wr r v i j).tap = s.tap := rfl

@[simp] theorem State.putByte_pending (a : Nat) (b : Byte) : (s.putByte a b).pending = s.pending := rfl
@[simp] theorem State.putByte_regs (a : Nat) (b : Byte) : (s.putByte a b).regs = s.regs := rfl
@[simp] theorem State.putByte_staged (a : Nat) (b : Byte) : (s.putByte a b).staged = s.staged := rfl
@[simp] theorem State.putByte_captured (a : Nat) (b : Byte) : (s.putByte a b).captured = s.captured := rfl
@[simp] theorem State.putByte_force (a : Nat) (b : Byte) : (s.putByte a b).force = s.force := rfl
@[simp] theorem State.putByte_rsp (a : Nat) (b : Byte) : (s.putByte a b).rsp = s.rsp := rfl
@[simp] theorem State.putByte_reqs (a : Nat) (b : Byte) : (s.putByte a b).reqs = s.reqs := rfl
@[simp] theorem State.putByte_levels (a : Nat) (b : Byte) : (s.putByte a b).levels = s.levels := rfl
@[simp] theorem State.putByte_sums (a : Nat) (b : Byte) : (s.putByte a b).sums = s.sums := rfl
@[simp] theorem State.putByte_rearm (a : Nat) (b : Byte) : (s.putByte a b).rearm = s.rearm := rfl
@[simp] theorem State.putByte_heldEvents (a : Nat) (b : Byte) : (s.putByte a b).heldEvents = s.heldEvents := rfl
@[simp] theorem State.putByte_hostEvents (a : Nat) (b : Byte) : (s.putByte a b).hostEvents = s.hostEvents := rfl
@[simp] theorem State.putByte_resetting (a : Nat) (b : Byte) : (s.putByte a b).resetting = s.resetting := rfl
@[simp] theorem State.putByte_dom (a : Nat) (b : Byte) : (s.putByte a b).dom = s.dom := rfl
@[simp] theorem State.putByte_quads (a : Nat) (b : Byte) : (s.putByte a b).quads = s.quads := rfl
@[simp] theorem State.putByte_lanes (a : Nat) (b : Byte) : (s.putByte a b).lanes = s.lanes := rfl
@[simp] theorem State.putByte_groups (a : Nat) (b : Byte) : (s.putByte a b).groups = s.groups := rfl
@[simp] theorem State.putByte_mcs (a : Nat) (b : Byte) : (s.putByte a b).mcs = s.mcs := rfl
@[simp] theorem State.putByte_bad (a : Nat) (b : Byte) : (s.putByte a b).bad = s.bad := rfl
@[simp] theorem State.putByte_spbs (a : Nat) (b : Byte) : (s.putByte a b).spbs = s.spbs := rfl
@[simp] theorem State.putByte_handing (a : Nat) (b : Byte) : (s.putByte a b).handing = s.handing := rfl
@[simp] theorem State.putByte_posted (a : Nat) (b : Byte) : (s.putByte a b).posted = s.posted := rfl
@[simp] theorem State.putByte_queues (a : Nat) (b : Byte) : (s.putByte a b).queues = s.queues := rfl
@[simp] theorem State.putByte_ports (a : Nat) (b : Byte) : (s.putByte a b).ports = s.ports := rfl
@[simp] theorem State.putByte_bounds (a : Nat) (b : Byte) : (s.putByte a b).bounds = s.bounds := rfl
@[simp] theorem State.putByte_sched (a : Nat) (b : Byte) : (s.putByte a b).sched = s.sched := rfl
@[simp] theorem State.putByte_slots (a : Nat) (b : Byte) : (s.putByte a b).slots = s.slots := rfl
@[simp] theorem State.putByte_cores (a : Nat) (b : Byte) : (s.putByte a b).cores = s.cores := rfl
@[simp] theorem State.putByte_tiles (a : Nat) (b : Byte) : (s.putByte a b).tiles = s.tiles := rfl
@[simp] theorem State.putByte_exports (a : Nat) (b : Byte) : (s.putByte a b).exports = s.exports := rfl
@[simp] theorem State.putByte_epo (a : Nat) (b : Byte) : (s.putByte a b).epo = s.epo := rfl
@[simp] theorem State.putByte_hthOut (a : Nat) (b : Byte) : (s.putByte a b).hthOut = s.hthOut := rfl
@[simp] theorem State.putByte_discOut (a : Nat) (b : Byte) : (s.putByte a b).discOut = s.discOut := rfl
@[simp] theorem State.putByte_heath (a : Nat) (b : Byte) : (s.putByte a b).heath = s.heath := rfl
@[simp] theorem State.putByte_stair (a : Nat) (b : Byte) : (s.putByte a b).stair = s.stair := rfl
@[simp] theorem State.putByte_ldr (a : Nat) (b : Byte) : (s.putByte a b).ldr = s.ldr := rfl
@[simp] theorem State.putByte_sec (a : Nat) (b : Byte) : (s.putByte a b).sec = s.sec := rfl
@[simp] theorem State.putByte_link (a : Nat) (b : Byte) : (s.putByte a b).link = s.link := rfl
@[simp] theorem State.putByte_health (a : Nat) (b : Byte) : (s.putByte a b).health = s.health := rfl
@[simp] theorem State.putByte_gpio (a : Nat) (b : Byte) : (s.putByte a b).gpio = s.gpio := rfl
@[simp] theorem State.putByte_power (a : Nat) (b : Byte) : (s.putByte a b).power = s.power := rfl
@[simp] theorem State.putByte_fuses (a : Nat) (b : Byte) : (s.putByte a b).fuses = s.fuses := rfl
@[simp] theorem State.putByte_draws (a : Nat) (b : Byte) : (s.putByte a b).draws = s.draws := rfl
@[simp] theorem State.putByte_detourDiff (a : Nat) (b : Byte) : (s.putByte a b).detourDiff = s.detourDiff := rfl
@[simp] theorem State.putByte_tap (a : Nat) (b : Byte) : (s.putByte a b).tap = s.tap := rfl

@[simp] theorem State.setCore_pending (k : Nat) (c : Core) : (s.setCore k c).pending = s.pending := rfl
@[simp] theorem State.setCore_regs (k : Nat) (c : Core) : (s.setCore k c).regs = s.regs := rfl
@[simp] theorem State.setCore_staged (k : Nat) (c : Core) : (s.setCore k c).staged = s.staged := rfl
@[simp] theorem State.setCore_captured (k : Nat) (c : Core) : (s.setCore k c).captured = s.captured := rfl
@[simp] theorem State.setCore_force (k : Nat) (c : Core) : (s.setCore k c).force = s.force := rfl
@[simp] theorem State.setCore_rsp (k : Nat) (c : Core) : (s.setCore k c).rsp = s.rsp := rfl
@[simp] theorem State.setCore_reqs (k : Nat) (c : Core) : (s.setCore k c).reqs = s.reqs := rfl
@[simp] theorem State.setCore_levels (k : Nat) (c : Core) : (s.setCore k c).levels = s.levels := rfl
@[simp] theorem State.setCore_sums (k : Nat) (c : Core) : (s.setCore k c).sums = s.sums := rfl
@[simp] theorem State.setCore_rearm (k : Nat) (c : Core) : (s.setCore k c).rearm = s.rearm := rfl
@[simp] theorem State.setCore_heldEvents (k : Nat) (c : Core) : (s.setCore k c).heldEvents = s.heldEvents := rfl
@[simp] theorem State.setCore_hostEvents (k : Nat) (c : Core) : (s.setCore k c).hostEvents = s.hostEvents := rfl
@[simp] theorem State.setCore_resetting (k : Nat) (c : Core) : (s.setCore k c).resetting = s.resetting := rfl
@[simp] theorem State.setCore_dom (k : Nat) (c : Core) : (s.setCore k c).dom = s.dom := rfl
@[simp] theorem State.setCore_mem (k : Nat) (c : Core) : (s.setCore k c).mem = s.mem := rfl
@[simp] theorem State.setCore_quads (k : Nat) (c : Core) : (s.setCore k c).quads = s.quads := rfl
@[simp] theorem State.setCore_lanes (k : Nat) (c : Core) : (s.setCore k c).lanes = s.lanes := rfl
@[simp] theorem State.setCore_groups (k : Nat) (c : Core) : (s.setCore k c).groups = s.groups := rfl
@[simp] theorem State.setCore_mcs (k : Nat) (c : Core) : (s.setCore k c).mcs = s.mcs := rfl
@[simp] theorem State.setCore_bad (k : Nat) (c : Core) : (s.setCore k c).bad = s.bad := rfl
@[simp] theorem State.setCore_spbs (k : Nat) (c : Core) : (s.setCore k c).spbs = s.spbs := rfl
@[simp] theorem State.setCore_handing (k : Nat) (c : Core) : (s.setCore k c).handing = s.handing := rfl
@[simp] theorem State.setCore_posted (k : Nat) (c : Core) : (s.setCore k c).posted = s.posted := rfl
@[simp] theorem State.setCore_queues (k : Nat) (c : Core) : (s.setCore k c).queues = s.queues := rfl
@[simp] theorem State.setCore_ports (k : Nat) (c : Core) : (s.setCore k c).ports = s.ports := rfl
@[simp] theorem State.setCore_bounds (k : Nat) (c : Core) : (s.setCore k c).bounds = s.bounds := rfl
@[simp] theorem State.setCore_sched (k : Nat) (c : Core) : (s.setCore k c).sched = s.sched := rfl
@[simp] theorem State.setCore_slots (k : Nat) (c : Core) : (s.setCore k c).slots = s.slots := rfl
@[simp] theorem State.setCore_tiles (k : Nat) (c : Core) : (s.setCore k c).tiles = s.tiles := rfl
@[simp] theorem State.setCore_exports (k : Nat) (c : Core) : (s.setCore k c).exports = s.exports := rfl
@[simp] theorem State.setCore_epo (k : Nat) (c : Core) : (s.setCore k c).epo = s.epo := rfl
@[simp] theorem State.setCore_hthOut (k : Nat) (c : Core) : (s.setCore k c).hthOut = s.hthOut := rfl
@[simp] theorem State.setCore_discOut (k : Nat) (c : Core) : (s.setCore k c).discOut = s.discOut := rfl
@[simp] theorem State.setCore_heath (k : Nat) (c : Core) : (s.setCore k c).heath = s.heath := rfl
@[simp] theorem State.setCore_stair (k : Nat) (c : Core) : (s.setCore k c).stair = s.stair := rfl
@[simp] theorem State.setCore_ldr (k : Nat) (c : Core) : (s.setCore k c).ldr = s.ldr := rfl
@[simp] theorem State.setCore_sec (k : Nat) (c : Core) : (s.setCore k c).sec = s.sec := rfl
@[simp] theorem State.setCore_link (k : Nat) (c : Core) : (s.setCore k c).link = s.link := rfl
@[simp] theorem State.setCore_health (k : Nat) (c : Core) : (s.setCore k c).health = s.health := rfl
@[simp] theorem State.setCore_gpio (k : Nat) (c : Core) : (s.setCore k c).gpio = s.gpio := rfl
@[simp] theorem State.setCore_power (k : Nat) (c : Core) : (s.setCore k c).power = s.power := rfl
@[simp] theorem State.setCore_fuses (k : Nat) (c : Core) : (s.setCore k c).fuses = s.fuses := rfl
@[simp] theorem State.setCore_draws (k : Nat) (c : Core) : (s.setCore k c).draws = s.draws := rfl
@[simp] theorem State.setCore_detourDiff (k : Nat) (c : Core) : (s.setCore k c).detourDiff = s.detourDiff := rfl
@[simp] theorem State.setCore_tap (k : Nat) (c : Core) : (s.setCore k c).tap = s.tap := rfl

@[simp] theorem State.setTile_pending (t : Nat) (v : Tile) : (s.setTile t v).pending = s.pending := rfl
@[simp] theorem State.setTile_regs (t : Nat) (v : Tile) : (s.setTile t v).regs = s.regs := rfl
@[simp] theorem State.setTile_staged (t : Nat) (v : Tile) : (s.setTile t v).staged = s.staged := rfl
@[simp] theorem State.setTile_captured (t : Nat) (v : Tile) : (s.setTile t v).captured = s.captured := rfl
@[simp] theorem State.setTile_force (t : Nat) (v : Tile) : (s.setTile t v).force = s.force := rfl
@[simp] theorem State.setTile_rsp (t : Nat) (v : Tile) : (s.setTile t v).rsp = s.rsp := rfl
@[simp] theorem State.setTile_reqs (t : Nat) (v : Tile) : (s.setTile t v).reqs = s.reqs := rfl
@[simp] theorem State.setTile_levels (t : Nat) (v : Tile) : (s.setTile t v).levels = s.levels := rfl
@[simp] theorem State.setTile_sums (t : Nat) (v : Tile) : (s.setTile t v).sums = s.sums := rfl
@[simp] theorem State.setTile_rearm (t : Nat) (v : Tile) : (s.setTile t v).rearm = s.rearm := rfl
@[simp] theorem State.setTile_heldEvents (t : Nat) (v : Tile) : (s.setTile t v).heldEvents = s.heldEvents := rfl
@[simp] theorem State.setTile_hostEvents (t : Nat) (v : Tile) : (s.setTile t v).hostEvents = s.hostEvents := rfl
@[simp] theorem State.setTile_resetting (t : Nat) (v : Tile) : (s.setTile t v).resetting = s.resetting := rfl
@[simp] theorem State.setTile_dom (t : Nat) (v : Tile) : (s.setTile t v).dom = s.dom := rfl
@[simp] theorem State.setTile_mem (t : Nat) (v : Tile) : (s.setTile t v).mem = s.mem := rfl
@[simp] theorem State.setTile_quads (t : Nat) (v : Tile) : (s.setTile t v).quads = s.quads := rfl
@[simp] theorem State.setTile_lanes (t : Nat) (v : Tile) : (s.setTile t v).lanes = s.lanes := rfl
@[simp] theorem State.setTile_groups (t : Nat) (v : Tile) : (s.setTile t v).groups = s.groups := rfl
@[simp] theorem State.setTile_mcs (t : Nat) (v : Tile) : (s.setTile t v).mcs = s.mcs := rfl
@[simp] theorem State.setTile_bad (t : Nat) (v : Tile) : (s.setTile t v).bad = s.bad := rfl
@[simp] theorem State.setTile_spbs (t : Nat) (v : Tile) : (s.setTile t v).spbs = s.spbs := rfl
@[simp] theorem State.setTile_handing (t : Nat) (v : Tile) : (s.setTile t v).handing = s.handing := rfl
@[simp] theorem State.setTile_posted (t : Nat) (v : Tile) : (s.setTile t v).posted = s.posted := rfl
@[simp] theorem State.setTile_queues (t : Nat) (v : Tile) : (s.setTile t v).queues = s.queues := rfl
@[simp] theorem State.setTile_ports (t : Nat) (v : Tile) : (s.setTile t v).ports = s.ports := rfl
@[simp] theorem State.setTile_bounds (t : Nat) (v : Tile) : (s.setTile t v).bounds = s.bounds := rfl
@[simp] theorem State.setTile_sched (t : Nat) (v : Tile) : (s.setTile t v).sched = s.sched := rfl
@[simp] theorem State.setTile_slots (t : Nat) (v : Tile) : (s.setTile t v).slots = s.slots := rfl
@[simp] theorem State.setTile_cores (t : Nat) (v : Tile) : (s.setTile t v).cores = s.cores := rfl
@[simp] theorem State.setTile_exports (t : Nat) (v : Tile) : (s.setTile t v).exports = s.exports := rfl
@[simp] theorem State.setTile_epo (t : Nat) (v : Tile) : (s.setTile t v).epo = s.epo := rfl
@[simp] theorem State.setTile_hthOut (t : Nat) (v : Tile) : (s.setTile t v).hthOut = s.hthOut := rfl
@[simp] theorem State.setTile_discOut (t : Nat) (v : Tile) : (s.setTile t v).discOut = s.discOut := rfl
@[simp] theorem State.setTile_heath (t : Nat) (v : Tile) : (s.setTile t v).heath = s.heath := rfl
@[simp] theorem State.setTile_stair (t : Nat) (v : Tile) : (s.setTile t v).stair = s.stair := rfl
@[simp] theorem State.setTile_ldr (t : Nat) (v : Tile) : (s.setTile t v).ldr = s.ldr := rfl
@[simp] theorem State.setTile_sec (t : Nat) (v : Tile) : (s.setTile t v).sec = s.sec := rfl
@[simp] theorem State.setTile_link (t : Nat) (v : Tile) : (s.setTile t v).link = s.link := rfl
@[simp] theorem State.setTile_health (t : Nat) (v : Tile) : (s.setTile t v).health = s.health := rfl
@[simp] theorem State.setTile_gpio (t : Nat) (v : Tile) : (s.setTile t v).gpio = s.gpio := rfl
@[simp] theorem State.setTile_power (t : Nat) (v : Tile) : (s.setTile t v).power = s.power := rfl
@[simp] theorem State.setTile_fuses (t : Nat) (v : Tile) : (s.setTile t v).fuses = s.fuses := rfl
@[simp] theorem State.setTile_draws (t : Nat) (v : Tile) : (s.setTile t v).draws = s.draws := rfl
@[simp] theorem State.setTile_detourDiff (t : Nat) (v : Tile) : (s.setTile t v).detourDiff = s.detourDiff := rfl
@[simp] theorem State.setTile_tap (t : Nat) (v : Tile) : (s.setTile t v).tap = s.tap := rfl

@[simp] theorem State.setQueue_pending (q : Nat) (v : Queue) : (s.setQueue q v).pending = s.pending := rfl
@[simp] theorem State.setQueue_regs (q : Nat) (v : Queue) : (s.setQueue q v).regs = s.regs := rfl
@[simp] theorem State.setQueue_staged (q : Nat) (v : Queue) : (s.setQueue q v).staged = s.staged := rfl
@[simp] theorem State.setQueue_captured (q : Nat) (v : Queue) : (s.setQueue q v).captured = s.captured := rfl
@[simp] theorem State.setQueue_force (q : Nat) (v : Queue) : (s.setQueue q v).force = s.force := rfl
@[simp] theorem State.setQueue_rsp (q : Nat) (v : Queue) : (s.setQueue q v).rsp = s.rsp := rfl
@[simp] theorem State.setQueue_reqs (q : Nat) (v : Queue) : (s.setQueue q v).reqs = s.reqs := rfl
@[simp] theorem State.setQueue_levels (q : Nat) (v : Queue) : (s.setQueue q v).levels = s.levels := rfl
@[simp] theorem State.setQueue_sums (q : Nat) (v : Queue) : (s.setQueue q v).sums = s.sums := rfl
@[simp] theorem State.setQueue_rearm (q : Nat) (v : Queue) : (s.setQueue q v).rearm = s.rearm := rfl
@[simp] theorem State.setQueue_heldEvents (q : Nat) (v : Queue) : (s.setQueue q v).heldEvents = s.heldEvents := rfl
@[simp] theorem State.setQueue_hostEvents (q : Nat) (v : Queue) : (s.setQueue q v).hostEvents = s.hostEvents := rfl
@[simp] theorem State.setQueue_resetting (q : Nat) (v : Queue) : (s.setQueue q v).resetting = s.resetting := rfl
@[simp] theorem State.setQueue_dom (q : Nat) (v : Queue) : (s.setQueue q v).dom = s.dom := rfl
@[simp] theorem State.setQueue_mem (q : Nat) (v : Queue) : (s.setQueue q v).mem = s.mem := rfl
@[simp] theorem State.setQueue_quads (q : Nat) (v : Queue) : (s.setQueue q v).quads = s.quads := rfl
@[simp] theorem State.setQueue_lanes (q : Nat) (v : Queue) : (s.setQueue q v).lanes = s.lanes := rfl
@[simp] theorem State.setQueue_groups (q : Nat) (v : Queue) : (s.setQueue q v).groups = s.groups := rfl
@[simp] theorem State.setQueue_mcs (q : Nat) (v : Queue) : (s.setQueue q v).mcs = s.mcs := rfl
@[simp] theorem State.setQueue_bad (q : Nat) (v : Queue) : (s.setQueue q v).bad = s.bad := rfl
@[simp] theorem State.setQueue_spbs (q : Nat) (v : Queue) : (s.setQueue q v).spbs = s.spbs := rfl
@[simp] theorem State.setQueue_handing (q : Nat) (v : Queue) : (s.setQueue q v).handing = s.handing := rfl
@[simp] theorem State.setQueue_posted (q : Nat) (v : Queue) : (s.setQueue q v).posted = s.posted := rfl
@[simp] theorem State.setQueue_ports (q : Nat) (v : Queue) : (s.setQueue q v).ports = s.ports := rfl
@[simp] theorem State.setQueue_bounds (q : Nat) (v : Queue) : (s.setQueue q v).bounds = s.bounds := rfl
@[simp] theorem State.setQueue_sched (q : Nat) (v : Queue) : (s.setQueue q v).sched = s.sched := rfl
@[simp] theorem State.setQueue_slots (q : Nat) (v : Queue) : (s.setQueue q v).slots = s.slots := rfl
@[simp] theorem State.setQueue_cores (q : Nat) (v : Queue) : (s.setQueue q v).cores = s.cores := rfl
@[simp] theorem State.setQueue_tiles (q : Nat) (v : Queue) : (s.setQueue q v).tiles = s.tiles := rfl
@[simp] theorem State.setQueue_exports (q : Nat) (v : Queue) : (s.setQueue q v).exports = s.exports := rfl
@[simp] theorem State.setQueue_epo (q : Nat) (v : Queue) : (s.setQueue q v).epo = s.epo := rfl
@[simp] theorem State.setQueue_hthOut (q : Nat) (v : Queue) : (s.setQueue q v).hthOut = s.hthOut := rfl
@[simp] theorem State.setQueue_discOut (q : Nat) (v : Queue) : (s.setQueue q v).discOut = s.discOut := rfl
@[simp] theorem State.setQueue_heath (q : Nat) (v : Queue) : (s.setQueue q v).heath = s.heath := rfl
@[simp] theorem State.setQueue_stair (q : Nat) (v : Queue) : (s.setQueue q v).stair = s.stair := rfl
@[simp] theorem State.setQueue_ldr (q : Nat) (v : Queue) : (s.setQueue q v).ldr = s.ldr := rfl
@[simp] theorem State.setQueue_sec (q : Nat) (v : Queue) : (s.setQueue q v).sec = s.sec := rfl
@[simp] theorem State.setQueue_link (q : Nat) (v : Queue) : (s.setQueue q v).link = s.link := rfl
@[simp] theorem State.setQueue_health (q : Nat) (v : Queue) : (s.setQueue q v).health = s.health := rfl
@[simp] theorem State.setQueue_gpio (q : Nat) (v : Queue) : (s.setQueue q v).gpio = s.gpio := rfl
@[simp] theorem State.setQueue_power (q : Nat) (v : Queue) : (s.setQueue q v).power = s.power := rfl
@[simp] theorem State.setQueue_fuses (q : Nat) (v : Queue) : (s.setQueue q v).fuses = s.fuses := rfl
@[simp] theorem State.setQueue_draws (q : Nat) (v : Queue) : (s.setQueue q v).draws = s.draws := rfl
@[simp] theorem State.setQueue_detourDiff (q : Nat) (v : Queue) : (s.setQueue q v).detourDiff = s.detourDiff := rfl
@[simp] theorem State.setQueue_tap (q : Nat) (v : Queue) : (s.setQueue q v).tap = s.tap := rfl

@[simp] theorem State.setPort_pending (p : Nat) (v : CapPort) : (s.setPort p v).pending = s.pending := rfl
@[simp] theorem State.setPort_regs (p : Nat) (v : CapPort) : (s.setPort p v).regs = s.regs := rfl
@[simp] theorem State.setPort_staged (p : Nat) (v : CapPort) : (s.setPort p v).staged = s.staged := rfl
@[simp] theorem State.setPort_captured (p : Nat) (v : CapPort) : (s.setPort p v).captured = s.captured := rfl
@[simp] theorem State.setPort_force (p : Nat) (v : CapPort) : (s.setPort p v).force = s.force := rfl
@[simp] theorem State.setPort_rsp (p : Nat) (v : CapPort) : (s.setPort p v).rsp = s.rsp := rfl
@[simp] theorem State.setPort_reqs (p : Nat) (v : CapPort) : (s.setPort p v).reqs = s.reqs := rfl
@[simp] theorem State.setPort_levels (p : Nat) (v : CapPort) : (s.setPort p v).levels = s.levels := rfl
@[simp] theorem State.setPort_sums (p : Nat) (v : CapPort) : (s.setPort p v).sums = s.sums := rfl
@[simp] theorem State.setPort_rearm (p : Nat) (v : CapPort) : (s.setPort p v).rearm = s.rearm := rfl
@[simp] theorem State.setPort_heldEvents (p : Nat) (v : CapPort) : (s.setPort p v).heldEvents = s.heldEvents := rfl
@[simp] theorem State.setPort_hostEvents (p : Nat) (v : CapPort) : (s.setPort p v).hostEvents = s.hostEvents := rfl
@[simp] theorem State.setPort_resetting (p : Nat) (v : CapPort) : (s.setPort p v).resetting = s.resetting := rfl
@[simp] theorem State.setPort_dom (p : Nat) (v : CapPort) : (s.setPort p v).dom = s.dom := rfl
@[simp] theorem State.setPort_mem (p : Nat) (v : CapPort) : (s.setPort p v).mem = s.mem := rfl
@[simp] theorem State.setPort_quads (p : Nat) (v : CapPort) : (s.setPort p v).quads = s.quads := rfl
@[simp] theorem State.setPort_lanes (p : Nat) (v : CapPort) : (s.setPort p v).lanes = s.lanes := rfl
@[simp] theorem State.setPort_groups (p : Nat) (v : CapPort) : (s.setPort p v).groups = s.groups := rfl
@[simp] theorem State.setPort_mcs (p : Nat) (v : CapPort) : (s.setPort p v).mcs = s.mcs := rfl
@[simp] theorem State.setPort_bad (p : Nat) (v : CapPort) : (s.setPort p v).bad = s.bad := rfl
@[simp] theorem State.setPort_spbs (p : Nat) (v : CapPort) : (s.setPort p v).spbs = s.spbs := rfl
@[simp] theorem State.setPort_handing (p : Nat) (v : CapPort) : (s.setPort p v).handing = s.handing := rfl
@[simp] theorem State.setPort_posted (p : Nat) (v : CapPort) : (s.setPort p v).posted = s.posted := rfl
@[simp] theorem State.setPort_queues (p : Nat) (v : CapPort) : (s.setPort p v).queues = s.queues := rfl
@[simp] theorem State.setPort_bounds (p : Nat) (v : CapPort) : (s.setPort p v).bounds = s.bounds := rfl
@[simp] theorem State.setPort_sched (p : Nat) (v : CapPort) : (s.setPort p v).sched = s.sched := rfl
@[simp] theorem State.setPort_slots (p : Nat) (v : CapPort) : (s.setPort p v).slots = s.slots := rfl
@[simp] theorem State.setPort_cores (p : Nat) (v : CapPort) : (s.setPort p v).cores = s.cores := rfl
@[simp] theorem State.setPort_tiles (p : Nat) (v : CapPort) : (s.setPort p v).tiles = s.tiles := rfl
@[simp] theorem State.setPort_exports (p : Nat) (v : CapPort) : (s.setPort p v).exports = s.exports := rfl
@[simp] theorem State.setPort_epo (p : Nat) (v : CapPort) : (s.setPort p v).epo = s.epo := rfl
@[simp] theorem State.setPort_hthOut (p : Nat) (v : CapPort) : (s.setPort p v).hthOut = s.hthOut := rfl
@[simp] theorem State.setPort_discOut (p : Nat) (v : CapPort) : (s.setPort p v).discOut = s.discOut := rfl
@[simp] theorem State.setPort_heath (p : Nat) (v : CapPort) : (s.setPort p v).heath = s.heath := rfl
@[simp] theorem State.setPort_stair (p : Nat) (v : CapPort) : (s.setPort p v).stair = s.stair := rfl
@[simp] theorem State.setPort_ldr (p : Nat) (v : CapPort) : (s.setPort p v).ldr = s.ldr := rfl
@[simp] theorem State.setPort_sec (p : Nat) (v : CapPort) : (s.setPort p v).sec = s.sec := rfl
@[simp] theorem State.setPort_link (p : Nat) (v : CapPort) : (s.setPort p v).link = s.link := rfl
@[simp] theorem State.setPort_health (p : Nat) (v : CapPort) : (s.setPort p v).health = s.health := rfl
@[simp] theorem State.setPort_gpio (p : Nat) (v : CapPort) : (s.setPort p v).gpio = s.gpio := rfl
@[simp] theorem State.setPort_power (p : Nat) (v : CapPort) : (s.setPort p v).power = s.power := rfl
@[simp] theorem State.setPort_fuses (p : Nat) (v : CapPort) : (s.setPort p v).fuses = s.fuses := rfl
@[simp] theorem State.setPort_draws (p : Nat) (v : CapPort) : (s.setPort p v).draws = s.draws := rfl
@[simp] theorem State.setPort_detourDiff (p : Nat) (v : CapPort) : (s.setPort p v).detourDiff = s.detourDiff := rfl
@[simp] theorem State.setPort_tap (p : Nat) (v : CapPort) : (s.setPort p v).tap = s.tap := rfl

@[simp] theorem State.setLane_pending (l : Nat) (v : Lane) : (s.setLane l v).pending = s.pending := rfl
@[simp] theorem State.setLane_regs (l : Nat) (v : Lane) : (s.setLane l v).regs = s.regs := rfl
@[simp] theorem State.setLane_staged (l : Nat) (v : Lane) : (s.setLane l v).staged = s.staged := rfl
@[simp] theorem State.setLane_captured (l : Nat) (v : Lane) : (s.setLane l v).captured = s.captured := rfl
@[simp] theorem State.setLane_force (l : Nat) (v : Lane) : (s.setLane l v).force = s.force := rfl
@[simp] theorem State.setLane_rsp (l : Nat) (v : Lane) : (s.setLane l v).rsp = s.rsp := rfl
@[simp] theorem State.setLane_reqs (l : Nat) (v : Lane) : (s.setLane l v).reqs = s.reqs := rfl
@[simp] theorem State.setLane_levels (l : Nat) (v : Lane) : (s.setLane l v).levels = s.levels := rfl
@[simp] theorem State.setLane_sums (l : Nat) (v : Lane) : (s.setLane l v).sums = s.sums := rfl
@[simp] theorem State.setLane_rearm (l : Nat) (v : Lane) : (s.setLane l v).rearm = s.rearm := rfl
@[simp] theorem State.setLane_heldEvents (l : Nat) (v : Lane) : (s.setLane l v).heldEvents = s.heldEvents := rfl
@[simp] theorem State.setLane_hostEvents (l : Nat) (v : Lane) : (s.setLane l v).hostEvents = s.hostEvents := rfl
@[simp] theorem State.setLane_resetting (l : Nat) (v : Lane) : (s.setLane l v).resetting = s.resetting := rfl
@[simp] theorem State.setLane_dom (l : Nat) (v : Lane) : (s.setLane l v).dom = s.dom := rfl
@[simp] theorem State.setLane_mem (l : Nat) (v : Lane) : (s.setLane l v).mem = s.mem := rfl
@[simp] theorem State.setLane_quads (l : Nat) (v : Lane) : (s.setLane l v).quads = s.quads := rfl
@[simp] theorem State.setLane_groups (l : Nat) (v : Lane) : (s.setLane l v).groups = s.groups := rfl
@[simp] theorem State.setLane_mcs (l : Nat) (v : Lane) : (s.setLane l v).mcs = s.mcs := rfl
@[simp] theorem State.setLane_bad (l : Nat) (v : Lane) : (s.setLane l v).bad = s.bad := rfl
@[simp] theorem State.setLane_spbs (l : Nat) (v : Lane) : (s.setLane l v).spbs = s.spbs := rfl
@[simp] theorem State.setLane_handing (l : Nat) (v : Lane) : (s.setLane l v).handing = s.handing := rfl
@[simp] theorem State.setLane_posted (l : Nat) (v : Lane) : (s.setLane l v).posted = s.posted := rfl
@[simp] theorem State.setLane_queues (l : Nat) (v : Lane) : (s.setLane l v).queues = s.queues := rfl
@[simp] theorem State.setLane_ports (l : Nat) (v : Lane) : (s.setLane l v).ports = s.ports := rfl
@[simp] theorem State.setLane_bounds (l : Nat) (v : Lane) : (s.setLane l v).bounds = s.bounds := rfl
@[simp] theorem State.setLane_sched (l : Nat) (v : Lane) : (s.setLane l v).sched = s.sched := rfl
@[simp] theorem State.setLane_slots (l : Nat) (v : Lane) : (s.setLane l v).slots = s.slots := rfl
@[simp] theorem State.setLane_cores (l : Nat) (v : Lane) : (s.setLane l v).cores = s.cores := rfl
@[simp] theorem State.setLane_tiles (l : Nat) (v : Lane) : (s.setLane l v).tiles = s.tiles := rfl
@[simp] theorem State.setLane_exports (l : Nat) (v : Lane) : (s.setLane l v).exports = s.exports := rfl
@[simp] theorem State.setLane_epo (l : Nat) (v : Lane) : (s.setLane l v).epo = s.epo := rfl
@[simp] theorem State.setLane_hthOut (l : Nat) (v : Lane) : (s.setLane l v).hthOut = s.hthOut := rfl
@[simp] theorem State.setLane_discOut (l : Nat) (v : Lane) : (s.setLane l v).discOut = s.discOut := rfl
@[simp] theorem State.setLane_heath (l : Nat) (v : Lane) : (s.setLane l v).heath = s.heath := rfl
@[simp] theorem State.setLane_stair (l : Nat) (v : Lane) : (s.setLane l v).stair = s.stair := rfl
@[simp] theorem State.setLane_ldr (l : Nat) (v : Lane) : (s.setLane l v).ldr = s.ldr := rfl
@[simp] theorem State.setLane_sec (l : Nat) (v : Lane) : (s.setLane l v).sec = s.sec := rfl
@[simp] theorem State.setLane_link (l : Nat) (v : Lane) : (s.setLane l v).link = s.link := rfl
@[simp] theorem State.setLane_health (l : Nat) (v : Lane) : (s.setLane l v).health = s.health := rfl
@[simp] theorem State.setLane_gpio (l : Nat) (v : Lane) : (s.setLane l v).gpio = s.gpio := rfl
@[simp] theorem State.setLane_power (l : Nat) (v : Lane) : (s.setLane l v).power = s.power := rfl
@[simp] theorem State.setLane_fuses (l : Nat) (v : Lane) : (s.setLane l v).fuses = s.fuses := rfl
@[simp] theorem State.setLane_draws (l : Nat) (v : Lane) : (s.setLane l v).draws = s.draws := rfl
@[simp] theorem State.setLane_detourDiff (l : Nat) (v : Lane) : (s.setLane l v).detourDiff = s.detourDiff := rfl
@[simp] theorem State.setLane_tap (l : Nat) (v : Lane) : (s.setLane l v).tap = s.tap := rfl

@[simp] theorem State.setGroup_pending (g : Nat) (v : Group) : (s.setGroup g v).pending = s.pending := rfl
@[simp] theorem State.setGroup_regs (g : Nat) (v : Group) : (s.setGroup g v).regs = s.regs := rfl
@[simp] theorem State.setGroup_staged (g : Nat) (v : Group) : (s.setGroup g v).staged = s.staged := rfl
@[simp] theorem State.setGroup_captured (g : Nat) (v : Group) : (s.setGroup g v).captured = s.captured := rfl
@[simp] theorem State.setGroup_force (g : Nat) (v : Group) : (s.setGroup g v).force = s.force := rfl
@[simp] theorem State.setGroup_rsp (g : Nat) (v : Group) : (s.setGroup g v).rsp = s.rsp := rfl
@[simp] theorem State.setGroup_reqs (g : Nat) (v : Group) : (s.setGroup g v).reqs = s.reqs := rfl
@[simp] theorem State.setGroup_levels (g : Nat) (v : Group) : (s.setGroup g v).levels = s.levels := rfl
@[simp] theorem State.setGroup_sums (g : Nat) (v : Group) : (s.setGroup g v).sums = s.sums := rfl
@[simp] theorem State.setGroup_rearm (g : Nat) (v : Group) : (s.setGroup g v).rearm = s.rearm := rfl
@[simp] theorem State.setGroup_heldEvents (g : Nat) (v : Group) : (s.setGroup g v).heldEvents = s.heldEvents := rfl
@[simp] theorem State.setGroup_hostEvents (g : Nat) (v : Group) : (s.setGroup g v).hostEvents = s.hostEvents := rfl
@[simp] theorem State.setGroup_resetting (g : Nat) (v : Group) : (s.setGroup g v).resetting = s.resetting := rfl
@[simp] theorem State.setGroup_dom (g : Nat) (v : Group) : (s.setGroup g v).dom = s.dom := rfl
@[simp] theorem State.setGroup_mem (g : Nat) (v : Group) : (s.setGroup g v).mem = s.mem := rfl
@[simp] theorem State.setGroup_quads (g : Nat) (v : Group) : (s.setGroup g v).quads = s.quads := rfl
@[simp] theorem State.setGroup_lanes (g : Nat) (v : Group) : (s.setGroup g v).lanes = s.lanes := rfl
@[simp] theorem State.setGroup_mcs (g : Nat) (v : Group) : (s.setGroup g v).mcs = s.mcs := rfl
@[simp] theorem State.setGroup_bad (g : Nat) (v : Group) : (s.setGroup g v).bad = s.bad := rfl
@[simp] theorem State.setGroup_spbs (g : Nat) (v : Group) : (s.setGroup g v).spbs = s.spbs := rfl
@[simp] theorem State.setGroup_handing (g : Nat) (v : Group) : (s.setGroup g v).handing = s.handing := rfl
@[simp] theorem State.setGroup_posted (g : Nat) (v : Group) : (s.setGroup g v).posted = s.posted := rfl
@[simp] theorem State.setGroup_queues (g : Nat) (v : Group) : (s.setGroup g v).queues = s.queues := rfl
@[simp] theorem State.setGroup_ports (g : Nat) (v : Group) : (s.setGroup g v).ports = s.ports := rfl
@[simp] theorem State.setGroup_bounds (g : Nat) (v : Group) : (s.setGroup g v).bounds = s.bounds := rfl
@[simp] theorem State.setGroup_sched (g : Nat) (v : Group) : (s.setGroup g v).sched = s.sched := rfl
@[simp] theorem State.setGroup_slots (g : Nat) (v : Group) : (s.setGroup g v).slots = s.slots := rfl
@[simp] theorem State.setGroup_cores (g : Nat) (v : Group) : (s.setGroup g v).cores = s.cores := rfl
@[simp] theorem State.setGroup_tiles (g : Nat) (v : Group) : (s.setGroup g v).tiles = s.tiles := rfl
@[simp] theorem State.setGroup_exports (g : Nat) (v : Group) : (s.setGroup g v).exports = s.exports := rfl
@[simp] theorem State.setGroup_epo (g : Nat) (v : Group) : (s.setGroup g v).epo = s.epo := rfl
@[simp] theorem State.setGroup_hthOut (g : Nat) (v : Group) : (s.setGroup g v).hthOut = s.hthOut := rfl
@[simp] theorem State.setGroup_discOut (g : Nat) (v : Group) : (s.setGroup g v).discOut = s.discOut := rfl
@[simp] theorem State.setGroup_heath (g : Nat) (v : Group) : (s.setGroup g v).heath = s.heath := rfl
@[simp] theorem State.setGroup_stair (g : Nat) (v : Group) : (s.setGroup g v).stair = s.stair := rfl
@[simp] theorem State.setGroup_ldr (g : Nat) (v : Group) : (s.setGroup g v).ldr = s.ldr := rfl
@[simp] theorem State.setGroup_sec (g : Nat) (v : Group) : (s.setGroup g v).sec = s.sec := rfl
@[simp] theorem State.setGroup_link (g : Nat) (v : Group) : (s.setGroup g v).link = s.link := rfl
@[simp] theorem State.setGroup_health (g : Nat) (v : Group) : (s.setGroup g v).health = s.health := rfl
@[simp] theorem State.setGroup_gpio (g : Nat) (v : Group) : (s.setGroup g v).gpio = s.gpio := rfl
@[simp] theorem State.setGroup_power (g : Nat) (v : Group) : (s.setGroup g v).power = s.power := rfl
@[simp] theorem State.setGroup_fuses (g : Nat) (v : Group) : (s.setGroup g v).fuses = s.fuses := rfl
@[simp] theorem State.setGroup_draws (g : Nat) (v : Group) : (s.setGroup g v).draws = s.draws := rfl
@[simp] theorem State.setGroup_detourDiff (g : Nat) (v : Group) : (s.setGroup g v).detourDiff = s.detourDiff := rfl
@[simp] theorem State.setGroup_tap (g : Nat) (v : Group) : (s.setGroup g v).tap = s.tap := rfl

@[simp] theorem State.setPll_pending (q : Nat) (v : Pll) : (s.setPll q v).pending = s.pending := rfl
@[simp] theorem State.setPll_regs (q : Nat) (v : Pll) : (s.setPll q v).regs = s.regs := rfl
@[simp] theorem State.setPll_staged (q : Nat) (v : Pll) : (s.setPll q v).staged = s.staged := rfl
@[simp] theorem State.setPll_captured (q : Nat) (v : Pll) : (s.setPll q v).captured = s.captured := rfl
@[simp] theorem State.setPll_force (q : Nat) (v : Pll) : (s.setPll q v).force = s.force := rfl
@[simp] theorem State.setPll_rsp (q : Nat) (v : Pll) : (s.setPll q v).rsp = s.rsp := rfl
@[simp] theorem State.setPll_reqs (q : Nat) (v : Pll) : (s.setPll q v).reqs = s.reqs := rfl
@[simp] theorem State.setPll_levels (q : Nat) (v : Pll) : (s.setPll q v).levels = s.levels := rfl
@[simp] theorem State.setPll_sums (q : Nat) (v : Pll) : (s.setPll q v).sums = s.sums := rfl
@[simp] theorem State.setPll_rearm (q : Nat) (v : Pll) : (s.setPll q v).rearm = s.rearm := rfl
@[simp] theorem State.setPll_heldEvents (q : Nat) (v : Pll) : (s.setPll q v).heldEvents = s.heldEvents := rfl
@[simp] theorem State.setPll_hostEvents (q : Nat) (v : Pll) : (s.setPll q v).hostEvents = s.hostEvents := rfl
@[simp] theorem State.setPll_resetting (q : Nat) (v : Pll) : (s.setPll q v).resetting = s.resetting := rfl
@[simp] theorem State.setPll_dom (q : Nat) (v : Pll) : (s.setPll q v).dom = s.dom := rfl
@[simp] theorem State.setPll_mem (q : Nat) (v : Pll) : (s.setPll q v).mem = s.mem := rfl
@[simp] theorem State.setPll_lanes (q : Nat) (v : Pll) : (s.setPll q v).lanes = s.lanes := rfl
@[simp] theorem State.setPll_groups (q : Nat) (v : Pll) : (s.setPll q v).groups = s.groups := rfl
@[simp] theorem State.setPll_mcs (q : Nat) (v : Pll) : (s.setPll q v).mcs = s.mcs := rfl
@[simp] theorem State.setPll_bad (q : Nat) (v : Pll) : (s.setPll q v).bad = s.bad := rfl
@[simp] theorem State.setPll_spbs (q : Nat) (v : Pll) : (s.setPll q v).spbs = s.spbs := rfl
@[simp] theorem State.setPll_handing (q : Nat) (v : Pll) : (s.setPll q v).handing = s.handing := rfl
@[simp] theorem State.setPll_posted (q : Nat) (v : Pll) : (s.setPll q v).posted = s.posted := rfl
@[simp] theorem State.setPll_queues (q : Nat) (v : Pll) : (s.setPll q v).queues = s.queues := rfl
@[simp] theorem State.setPll_ports (q : Nat) (v : Pll) : (s.setPll q v).ports = s.ports := rfl
@[simp] theorem State.setPll_bounds (q : Nat) (v : Pll) : (s.setPll q v).bounds = s.bounds := rfl
@[simp] theorem State.setPll_sched (q : Nat) (v : Pll) : (s.setPll q v).sched = s.sched := rfl
@[simp] theorem State.setPll_slots (q : Nat) (v : Pll) : (s.setPll q v).slots = s.slots := rfl
@[simp] theorem State.setPll_cores (q : Nat) (v : Pll) : (s.setPll q v).cores = s.cores := rfl
@[simp] theorem State.setPll_tiles (q : Nat) (v : Pll) : (s.setPll q v).tiles = s.tiles := rfl
@[simp] theorem State.setPll_exports (q : Nat) (v : Pll) : (s.setPll q v).exports = s.exports := rfl
@[simp] theorem State.setPll_epo (q : Nat) (v : Pll) : (s.setPll q v).epo = s.epo := rfl
@[simp] theorem State.setPll_hthOut (q : Nat) (v : Pll) : (s.setPll q v).hthOut = s.hthOut := rfl
@[simp] theorem State.setPll_discOut (q : Nat) (v : Pll) : (s.setPll q v).discOut = s.discOut := rfl
@[simp] theorem State.setPll_heath (q : Nat) (v : Pll) : (s.setPll q v).heath = s.heath := rfl
@[simp] theorem State.setPll_stair (q : Nat) (v : Pll) : (s.setPll q v).stair = s.stair := rfl
@[simp] theorem State.setPll_ldr (q : Nat) (v : Pll) : (s.setPll q v).ldr = s.ldr := rfl
@[simp] theorem State.setPll_sec (q : Nat) (v : Pll) : (s.setPll q v).sec = s.sec := rfl
@[simp] theorem State.setPll_link (q : Nat) (v : Pll) : (s.setPll q v).link = s.link := rfl
@[simp] theorem State.setPll_health (q : Nat) (v : Pll) : (s.setPll q v).health = s.health := rfl
@[simp] theorem State.setPll_gpio (q : Nat) (v : Pll) : (s.setPll q v).gpio = s.gpio := rfl
@[simp] theorem State.setPll_power (q : Nat) (v : Pll) : (s.setPll q v).power = s.power := rfl
@[simp] theorem State.setPll_fuses (q : Nat) (v : Pll) : (s.setPll q v).fuses = s.fuses := rfl
@[simp] theorem State.setPll_draws (q : Nat) (v : Pll) : (s.setPll q v).draws = s.draws := rfl
@[simp] theorem State.setPll_detourDiff (q : Nat) (v : Pll) : (s.setPll q v).detourDiff = s.detourDiff := rfl
@[simp] theorem State.setPll_tap (q : Nat) (v : Pll) : (s.setPll q v).tap = s.tap := rfl

@[simp] theorem State.setMc_pending (c : Nat) (v : Mc) : (s.setMc c v).pending = s.pending := rfl
@[simp] theorem State.setMc_regs (c : Nat) (v : Mc) : (s.setMc c v).regs = s.regs := rfl
@[simp] theorem State.setMc_staged (c : Nat) (v : Mc) : (s.setMc c v).staged = s.staged := rfl
@[simp] theorem State.setMc_captured (c : Nat) (v : Mc) : (s.setMc c v).captured = s.captured := rfl
@[simp] theorem State.setMc_force (c : Nat) (v : Mc) : (s.setMc c v).force = s.force := rfl
@[simp] theorem State.setMc_rsp (c : Nat) (v : Mc) : (s.setMc c v).rsp = s.rsp := rfl
@[simp] theorem State.setMc_reqs (c : Nat) (v : Mc) : (s.setMc c v).reqs = s.reqs := rfl
@[simp] theorem State.setMc_levels (c : Nat) (v : Mc) : (s.setMc c v).levels = s.levels := rfl
@[simp] theorem State.setMc_sums (c : Nat) (v : Mc) : (s.setMc c v).sums = s.sums := rfl
@[simp] theorem State.setMc_rearm (c : Nat) (v : Mc) : (s.setMc c v).rearm = s.rearm := rfl
@[simp] theorem State.setMc_heldEvents (c : Nat) (v : Mc) : (s.setMc c v).heldEvents = s.heldEvents := rfl
@[simp] theorem State.setMc_hostEvents (c : Nat) (v : Mc) : (s.setMc c v).hostEvents = s.hostEvents := rfl
@[simp] theorem State.setMc_resetting (c : Nat) (v : Mc) : (s.setMc c v).resetting = s.resetting := rfl
@[simp] theorem State.setMc_dom (c : Nat) (v : Mc) : (s.setMc c v).dom = s.dom := rfl
@[simp] theorem State.setMc_mem (c : Nat) (v : Mc) : (s.setMc c v).mem = s.mem := rfl
@[simp] theorem State.setMc_quads (c : Nat) (v : Mc) : (s.setMc c v).quads = s.quads := rfl
@[simp] theorem State.setMc_lanes (c : Nat) (v : Mc) : (s.setMc c v).lanes = s.lanes := rfl
@[simp] theorem State.setMc_groups (c : Nat) (v : Mc) : (s.setMc c v).groups = s.groups := rfl
@[simp] theorem State.setMc_bad (c : Nat) (v : Mc) : (s.setMc c v).bad = s.bad := rfl
@[simp] theorem State.setMc_spbs (c : Nat) (v : Mc) : (s.setMc c v).spbs = s.spbs := rfl
@[simp] theorem State.setMc_handing (c : Nat) (v : Mc) : (s.setMc c v).handing = s.handing := rfl
@[simp] theorem State.setMc_posted (c : Nat) (v : Mc) : (s.setMc c v).posted = s.posted := rfl
@[simp] theorem State.setMc_queues (c : Nat) (v : Mc) : (s.setMc c v).queues = s.queues := rfl
@[simp] theorem State.setMc_ports (c : Nat) (v : Mc) : (s.setMc c v).ports = s.ports := rfl
@[simp] theorem State.setMc_bounds (c : Nat) (v : Mc) : (s.setMc c v).bounds = s.bounds := rfl
@[simp] theorem State.setMc_sched (c : Nat) (v : Mc) : (s.setMc c v).sched = s.sched := rfl
@[simp] theorem State.setMc_slots (c : Nat) (v : Mc) : (s.setMc c v).slots = s.slots := rfl
@[simp] theorem State.setMc_cores (c : Nat) (v : Mc) : (s.setMc c v).cores = s.cores := rfl
@[simp] theorem State.setMc_tiles (c : Nat) (v : Mc) : (s.setMc c v).tiles = s.tiles := rfl
@[simp] theorem State.setMc_exports (c : Nat) (v : Mc) : (s.setMc c v).exports = s.exports := rfl
@[simp] theorem State.setMc_epo (c : Nat) (v : Mc) : (s.setMc c v).epo = s.epo := rfl
@[simp] theorem State.setMc_hthOut (c : Nat) (v : Mc) : (s.setMc c v).hthOut = s.hthOut := rfl
@[simp] theorem State.setMc_discOut (c : Nat) (v : Mc) : (s.setMc c v).discOut = s.discOut := rfl
@[simp] theorem State.setMc_heath (c : Nat) (v : Mc) : (s.setMc c v).heath = s.heath := rfl
@[simp] theorem State.setMc_stair (c : Nat) (v : Mc) : (s.setMc c v).stair = s.stair := rfl
@[simp] theorem State.setMc_ldr (c : Nat) (v : Mc) : (s.setMc c v).ldr = s.ldr := rfl
@[simp] theorem State.setMc_sec (c : Nat) (v : Mc) : (s.setMc c v).sec = s.sec := rfl
@[simp] theorem State.setMc_link (c : Nat) (v : Mc) : (s.setMc c v).link = s.link := rfl
@[simp] theorem State.setMc_health (c : Nat) (v : Mc) : (s.setMc c v).health = s.health := rfl
@[simp] theorem State.setMc_gpio (c : Nat) (v : Mc) : (s.setMc c v).gpio = s.gpio := rfl
@[simp] theorem State.setMc_power (c : Nat) (v : Mc) : (s.setMc c v).power = s.power := rfl
@[simp] theorem State.setMc_fuses (c : Nat) (v : Mc) : (s.setMc c v).fuses = s.fuses := rfl
@[simp] theorem State.setMc_draws (c : Nat) (v : Mc) : (s.setMc c v).draws = s.draws := rfl
@[simp] theorem State.setMc_detourDiff (c : Nat) (v : Mc) : (s.setMc c v).detourDiff = s.detourDiff := rfl
@[simp] theorem State.setMc_tap (c : Nat) (v : Mc) : (s.setMc c v).tap = s.tap := rfl

@[simp] theorem State.setLanding_pending (k i : Nat) (v : Landing) : (s.setLanding k i v).pending = s.pending := rfl
@[simp] theorem State.setLanding_regs (k i : Nat) (v : Landing) : (s.setLanding k i v).regs = s.regs := rfl
@[simp] theorem State.setLanding_staged (k i : Nat) (v : Landing) : (s.setLanding k i v).staged = s.staged := rfl
@[simp] theorem State.setLanding_captured (k i : Nat) (v : Landing) : (s.setLanding k i v).captured = s.captured := rfl
@[simp] theorem State.setLanding_force (k i : Nat) (v : Landing) : (s.setLanding k i v).force = s.force := rfl
@[simp] theorem State.setLanding_rsp (k i : Nat) (v : Landing) : (s.setLanding k i v).rsp = s.rsp := rfl
@[simp] theorem State.setLanding_reqs (k i : Nat) (v : Landing) : (s.setLanding k i v).reqs = s.reqs := rfl
@[simp] theorem State.setLanding_levels (k i : Nat) (v : Landing) : (s.setLanding k i v).levels = s.levels := rfl
@[simp] theorem State.setLanding_sums (k i : Nat) (v : Landing) : (s.setLanding k i v).sums = s.sums := rfl
@[simp] theorem State.setLanding_rearm (k i : Nat) (v : Landing) : (s.setLanding k i v).rearm = s.rearm := rfl
@[simp] theorem State.setLanding_heldEvents (k i : Nat) (v : Landing) : (s.setLanding k i v).heldEvents = s.heldEvents := rfl
@[simp] theorem State.setLanding_hostEvents (k i : Nat) (v : Landing) : (s.setLanding k i v).hostEvents = s.hostEvents := rfl
@[simp] theorem State.setLanding_resetting (k i : Nat) (v : Landing) : (s.setLanding k i v).resetting = s.resetting := rfl
@[simp] theorem State.setLanding_dom (k i : Nat) (v : Landing) : (s.setLanding k i v).dom = s.dom := rfl
@[simp] theorem State.setLanding_mem (k i : Nat) (v : Landing) : (s.setLanding k i v).mem = s.mem := rfl
@[simp] theorem State.setLanding_quads (k i : Nat) (v : Landing) : (s.setLanding k i v).quads = s.quads := rfl
@[simp] theorem State.setLanding_lanes (k i : Nat) (v : Landing) : (s.setLanding k i v).lanes = s.lanes := rfl
@[simp] theorem State.setLanding_groups (k i : Nat) (v : Landing) : (s.setLanding k i v).groups = s.groups := rfl
@[simp] theorem State.setLanding_mcs (k i : Nat) (v : Landing) : (s.setLanding k i v).mcs = s.mcs := rfl
@[simp] theorem State.setLanding_bad (k i : Nat) (v : Landing) : (s.setLanding k i v).bad = s.bad := rfl
@[simp] theorem State.setLanding_spbs (k i : Nat) (v : Landing) : (s.setLanding k i v).spbs = s.spbs := rfl
@[simp] theorem State.setLanding_handing (k i : Nat) (v : Landing) : (s.setLanding k i v).handing = s.handing := rfl
@[simp] theorem State.setLanding_posted (k i : Nat) (v : Landing) : (s.setLanding k i v).posted = s.posted := rfl
@[simp] theorem State.setLanding_queues (k i : Nat) (v : Landing) : (s.setLanding k i v).queues = s.queues := rfl
@[simp] theorem State.setLanding_ports (k i : Nat) (v : Landing) : (s.setLanding k i v).ports = s.ports := rfl
@[simp] theorem State.setLanding_bounds (k i : Nat) (v : Landing) : (s.setLanding k i v).bounds = s.bounds := rfl
@[simp] theorem State.setLanding_sched (k i : Nat) (v : Landing) : (s.setLanding k i v).sched = s.sched := rfl
@[simp] theorem State.setLanding_cores (k i : Nat) (v : Landing) : (s.setLanding k i v).cores = s.cores := rfl
@[simp] theorem State.setLanding_tiles (k i : Nat) (v : Landing) : (s.setLanding k i v).tiles = s.tiles := rfl
@[simp] theorem State.setLanding_exports (k i : Nat) (v : Landing) : (s.setLanding k i v).exports = s.exports := rfl
@[simp] theorem State.setLanding_epo (k i : Nat) (v : Landing) : (s.setLanding k i v).epo = s.epo := rfl
@[simp] theorem State.setLanding_hthOut (k i : Nat) (v : Landing) : (s.setLanding k i v).hthOut = s.hthOut := rfl
@[simp] theorem State.setLanding_discOut (k i : Nat) (v : Landing) : (s.setLanding k i v).discOut = s.discOut := rfl
@[simp] theorem State.setLanding_heath (k i : Nat) (v : Landing) : (s.setLanding k i v).heath = s.heath := rfl
@[simp] theorem State.setLanding_stair (k i : Nat) (v : Landing) : (s.setLanding k i v).stair = s.stair := rfl
@[simp] theorem State.setLanding_ldr (k i : Nat) (v : Landing) : (s.setLanding k i v).ldr = s.ldr := rfl
@[simp] theorem State.setLanding_sec (k i : Nat) (v : Landing) : (s.setLanding k i v).sec = s.sec := rfl
@[simp] theorem State.setLanding_link (k i : Nat) (v : Landing) : (s.setLanding k i v).link = s.link := rfl
@[simp] theorem State.setLanding_health (k i : Nat) (v : Landing) : (s.setLanding k i v).health = s.health := rfl
@[simp] theorem State.setLanding_gpio (k i : Nat) (v : Landing) : (s.setLanding k i v).gpio = s.gpio := rfl
@[simp] theorem State.setLanding_power (k i : Nat) (v : Landing) : (s.setLanding k i v).power = s.power := rfl
@[simp] theorem State.setLanding_fuses (k i : Nat) (v : Landing) : (s.setLanding k i v).fuses = s.fuses := rfl
@[simp] theorem State.setLanding_draws (k i : Nat) (v : Landing) : (s.setLanding k i v).draws = s.draws := rfl
@[simp] theorem State.setLanding_detourDiff (k i : Nat) (v : Landing) : (s.setLanding k i v).detourDiff = s.detourDiff := rfl
@[simp] theorem State.setLanding_tap (k i : Nat) (v : Landing) : (s.setLanding k i v).tap = s.tap := rfl

@[simp] theorem State.setItems_pending (l : List Item) : (s.setItems l).pending = s.pending := rfl
@[simp] theorem State.setItems_regs (l : List Item) : (s.setItems l).regs = s.regs := rfl
@[simp] theorem State.setItems_staged (l : List Item) : (s.setItems l).staged = s.staged := rfl
@[simp] theorem State.setItems_captured (l : List Item) : (s.setItems l).captured = s.captured := rfl
@[simp] theorem State.setItems_force (l : List Item) : (s.setItems l).force = s.force := rfl
@[simp] theorem State.setItems_rsp (l : List Item) : (s.setItems l).rsp = s.rsp := rfl
@[simp] theorem State.setItems_reqs (l : List Item) : (s.setItems l).reqs = s.reqs := rfl
@[simp] theorem State.setItems_levels (l : List Item) : (s.setItems l).levels = s.levels := rfl
@[simp] theorem State.setItems_sums (l : List Item) : (s.setItems l).sums = s.sums := rfl
@[simp] theorem State.setItems_rearm (l : List Item) : (s.setItems l).rearm = s.rearm := rfl
@[simp] theorem State.setItems_heldEvents (l : List Item) : (s.setItems l).heldEvents = s.heldEvents := rfl
@[simp] theorem State.setItems_hostEvents (l : List Item) : (s.setItems l).hostEvents = s.hostEvents := rfl
@[simp] theorem State.setItems_resetting (l : List Item) : (s.setItems l).resetting = s.resetting := rfl
@[simp] theorem State.setItems_dom (l : List Item) : (s.setItems l).dom = s.dom := rfl
@[simp] theorem State.setItems_mem (l : List Item) : (s.setItems l).mem = s.mem := rfl
@[simp] theorem State.setItems_quads (l : List Item) : (s.setItems l).quads = s.quads := rfl
@[simp] theorem State.setItems_lanes (l : List Item) : (s.setItems l).lanes = s.lanes := rfl
@[simp] theorem State.setItems_groups (l : List Item) : (s.setItems l).groups = s.groups := rfl
@[simp] theorem State.setItems_mcs (l : List Item) : (s.setItems l).mcs = s.mcs := rfl
@[simp] theorem State.setItems_bad (l : List Item) : (s.setItems l).bad = s.bad := rfl
@[simp] theorem State.setItems_spbs (l : List Item) : (s.setItems l).spbs = s.spbs := rfl
@[simp] theorem State.setItems_handing (l : List Item) : (s.setItems l).handing = s.handing := rfl
@[simp] theorem State.setItems_posted (l : List Item) : (s.setItems l).posted = s.posted := rfl
@[simp] theorem State.setItems_queues (l : List Item) : (s.setItems l).queues = s.queues := rfl
@[simp] theorem State.setItems_ports (l : List Item) : (s.setItems l).ports = s.ports := rfl
@[simp] theorem State.setItems_bounds (l : List Item) : (s.setItems l).bounds = s.bounds := rfl
@[simp] theorem State.setItems_slots (l : List Item) : (s.setItems l).slots = s.slots := rfl
@[simp] theorem State.setItems_cores (l : List Item) : (s.setItems l).cores = s.cores := rfl
@[simp] theorem State.setItems_tiles (l : List Item) : (s.setItems l).tiles = s.tiles := rfl
@[simp] theorem State.setItems_exports (l : List Item) : (s.setItems l).exports = s.exports := rfl
@[simp] theorem State.setItems_epo (l : List Item) : (s.setItems l).epo = s.epo := rfl
@[simp] theorem State.setItems_hthOut (l : List Item) : (s.setItems l).hthOut = s.hthOut := rfl
@[simp] theorem State.setItems_discOut (l : List Item) : (s.setItems l).discOut = s.discOut := rfl
@[simp] theorem State.setItems_heath (l : List Item) : (s.setItems l).heath = s.heath := rfl
@[simp] theorem State.setItems_stair (l : List Item) : (s.setItems l).stair = s.stair := rfl
@[simp] theorem State.setItems_ldr (l : List Item) : (s.setItems l).ldr = s.ldr := rfl
@[simp] theorem State.setItems_sec (l : List Item) : (s.setItems l).sec = s.sec := rfl
@[simp] theorem State.setItems_link (l : List Item) : (s.setItems l).link = s.link := rfl
@[simp] theorem State.setItems_health (l : List Item) : (s.setItems l).health = s.health := rfl
@[simp] theorem State.setItems_gpio (l : List Item) : (s.setItems l).gpio = s.gpio := rfl
@[simp] theorem State.setItems_power (l : List Item) : (s.setItems l).power = s.power := rfl
@[simp] theorem State.setItems_fuses (l : List Item) : (s.setItems l).fuses = s.fuses := rfl
@[simp] theorem State.setItems_draws (l : List Item) : (s.setItems l).draws = s.draws := rfl
@[simp] theorem State.setItems_detourDiff (l : List Item) : (s.setItems l).detourDiff = s.detourDiff := rfl
@[simp] theorem State.setItems_tap (l : List Item) : (s.setItems l).tap = s.tap := rfl

@[simp] theorem State.setDomain_pending (d : Nat) (v : Domain) : (s.setDomain d v).pending = s.pending := rfl
@[simp] theorem State.setDomain_regs (d : Nat) (v : Domain) : (s.setDomain d v).regs = s.regs := rfl
@[simp] theorem State.setDomain_staged (d : Nat) (v : Domain) : (s.setDomain d v).staged = s.staged := rfl
@[simp] theorem State.setDomain_captured (d : Nat) (v : Domain) : (s.setDomain d v).captured = s.captured := rfl
@[simp] theorem State.setDomain_force (d : Nat) (v : Domain) : (s.setDomain d v).force = s.force := rfl
@[simp] theorem State.setDomain_rsp (d : Nat) (v : Domain) : (s.setDomain d v).rsp = s.rsp := rfl
@[simp] theorem State.setDomain_reqs (d : Nat) (v : Domain) : (s.setDomain d v).reqs = s.reqs := rfl
@[simp] theorem State.setDomain_levels (d : Nat) (v : Domain) : (s.setDomain d v).levels = s.levels := rfl
@[simp] theorem State.setDomain_sums (d : Nat) (v : Domain) : (s.setDomain d v).sums = s.sums := rfl
@[simp] theorem State.setDomain_rearm (d : Nat) (v : Domain) : (s.setDomain d v).rearm = s.rearm := rfl
@[simp] theorem State.setDomain_heldEvents (d : Nat) (v : Domain) : (s.setDomain d v).heldEvents = s.heldEvents := rfl
@[simp] theorem State.setDomain_hostEvents (d : Nat) (v : Domain) : (s.setDomain d v).hostEvents = s.hostEvents := rfl
@[simp] theorem State.setDomain_resetting (d : Nat) (v : Domain) : (s.setDomain d v).resetting = s.resetting := rfl
@[simp] theorem State.setDomain_dom (d : Nat) (v : Domain) : (s.setDomain d v).dom = s.dom := rfl
@[simp] theorem State.setDomain_mem (d : Nat) (v : Domain) : (s.setDomain d v).mem = s.mem := rfl
@[simp] theorem State.setDomain_quads (d : Nat) (v : Domain) : (s.setDomain d v).quads = s.quads := rfl
@[simp] theorem State.setDomain_lanes (d : Nat) (v : Domain) : (s.setDomain d v).lanes = s.lanes := rfl
@[simp] theorem State.setDomain_groups (d : Nat) (v : Domain) : (s.setDomain d v).groups = s.groups := rfl
@[simp] theorem State.setDomain_mcs (d : Nat) (v : Domain) : (s.setDomain d v).mcs = s.mcs := rfl
@[simp] theorem State.setDomain_bad (d : Nat) (v : Domain) : (s.setDomain d v).bad = s.bad := rfl
@[simp] theorem State.setDomain_spbs (d : Nat) (v : Domain) : (s.setDomain d v).spbs = s.spbs := rfl
@[simp] theorem State.setDomain_handing (d : Nat) (v : Domain) : (s.setDomain d v).handing = s.handing := rfl
@[simp] theorem State.setDomain_posted (d : Nat) (v : Domain) : (s.setDomain d v).posted = s.posted := rfl
@[simp] theorem State.setDomain_queues (d : Nat) (v : Domain) : (s.setDomain d v).queues = s.queues := rfl
@[simp] theorem State.setDomain_ports (d : Nat) (v : Domain) : (s.setDomain d v).ports = s.ports := rfl
@[simp] theorem State.setDomain_bounds (d : Nat) (v : Domain) : (s.setDomain d v).bounds = s.bounds := rfl
@[simp] theorem State.setDomain_sched (d : Nat) (v : Domain) : (s.setDomain d v).sched = s.sched := rfl
@[simp] theorem State.setDomain_slots (d : Nat) (v : Domain) : (s.setDomain d v).slots = s.slots := rfl
@[simp] theorem State.setDomain_cores (d : Nat) (v : Domain) : (s.setDomain d v).cores = s.cores := rfl
@[simp] theorem State.setDomain_tiles (d : Nat) (v : Domain) : (s.setDomain d v).tiles = s.tiles := rfl
@[simp] theorem State.setDomain_exports (d : Nat) (v : Domain) : (s.setDomain d v).exports = s.exports := rfl
@[simp] theorem State.setDomain_hthOut (d : Nat) (v : Domain) : (s.setDomain d v).hthOut = s.hthOut := rfl
@[simp] theorem State.setDomain_discOut (d : Nat) (v : Domain) : (s.setDomain d v).discOut = s.discOut := rfl
@[simp] theorem State.setDomain_heath (d : Nat) (v : Domain) : (s.setDomain d v).heath = s.heath := rfl
@[simp] theorem State.setDomain_stair (d : Nat) (v : Domain) : (s.setDomain d v).stair = s.stair := rfl
@[simp] theorem State.setDomain_ldr (d : Nat) (v : Domain) : (s.setDomain d v).ldr = s.ldr := rfl
@[simp] theorem State.setDomain_sec (d : Nat) (v : Domain) : (s.setDomain d v).sec = s.sec := rfl
@[simp] theorem State.setDomain_link (d : Nat) (v : Domain) : (s.setDomain d v).link = s.link := rfl
@[simp] theorem State.setDomain_health (d : Nat) (v : Domain) : (s.setDomain d v).health = s.health := rfl
@[simp] theorem State.setDomain_gpio (d : Nat) (v : Domain) : (s.setDomain d v).gpio = s.gpio := rfl
@[simp] theorem State.setDomain_power (d : Nat) (v : Domain) : (s.setDomain d v).power = s.power := rfl
@[simp] theorem State.setDomain_fuses (d : Nat) (v : Domain) : (s.setDomain d v).fuses = s.fuses := rfl
@[simp] theorem State.setDomain_draws (d : Nat) (v : Domain) : (s.setDomain d v).draws = s.draws := rfl
@[simp] theorem State.setDomain_detourDiff (d : Nat) (v : Domain) : (s.setDomain d v).detourDiff = s.detourDiff := rfl
@[simp] theorem State.setDomain_tap (d : Nat) (v : Domain) : (s.setDomain d v).tap = s.tap := rfl

/-! Reading after an update. -/

@[simp] theorem State.rd_wr_same (r : Reg) (v : DWord) (i j : Nat) : (s.wr r v i j).rd r i j = v := by
  simp [State.wr, State.rd]

/-- A register written leaves every other register. -/
theorem State.rd_wr_ne {r r' : Reg} {i i' j j' : Nat} (v : DWord) (h : ¬(r = r' ∧ i = i' ∧ j = j')) :
    (s.wr r v i j).rd r' i' j' = s.rd r' i' j' := by
  unfold State.wr State.rd
  apply tget_tset_ne
  intro e
  injection e with e1 e2 e3
  exact h ⟨e1, e2, e3⟩

/-- A register of another name is left. -/
theorem State.rd_wr_reg {r r' : Reg} (v : DWord) (i j i' j' : Nat) (h : r ≠ r') : (s.wr r v i j).rd r' i' j' = s.rd r' i' j' :=
  State.rd_wr_ne s v fun e => h e.1

@[simp] theorem State.core_setCore_same (n : Nat) (v : Core) : (s.setCore n v).core n = v := by
  simp [State.setCore, State.core]

theorem State.core_setCore_ne {n m : Nat} (v : Core) (h : n ≠ m) : (s.setCore n v).core m = s.core m := by
  unfold State.setCore State.core; exact tget_tset_ne _ _ _ _ _ h

@[simp] theorem State.tile_setTile_same (n : Nat) (v : Tile) : (s.setTile n v).tile n = v := by
  simp [State.setTile, State.tile]

theorem State.tile_setTile_ne {n m : Nat} (v : Tile) (h : n ≠ m) : (s.setTile n v).tile m = s.tile m := by
  unfold State.setTile State.tile; exact tget_tset_ne _ _ _ _ _ h

@[simp] theorem State.queue_setQueue_same (n : Nat) (v : Queue) : (s.setQueue n v).queue n = v := by
  simp [State.setQueue, State.queue]

theorem State.queue_setQueue_ne {n m : Nat} (v : Queue) (h : n ≠ m) : (s.setQueue n v).queue m = s.queue m := by
  unfold State.setQueue State.queue; exact tget_tset_ne _ _ _ _ _ h

@[simp] theorem State.port_setPort_same (n : Nat) (v : CapPort) : (s.setPort n v).port n = v := by
  simp [State.setPort, State.port]

theorem State.port_setPort_ne {n m : Nat} (v : CapPort) (h : n ≠ m) : (s.setPort n v).port m = s.port m := by
  unfold State.setPort State.port; exact tget_tset_ne _ _ _ _ _ h

@[simp] theorem State.lane_setLane_same (n : Nat) (v : Lane) : (s.setLane n v).lane n = v := by
  simp [State.setLane, State.lane]

theorem State.lane_setLane_ne {n m : Nat} (v : Lane) (h : n ≠ m) : (s.setLane n v).lane m = s.lane m := by
  unfold State.setLane State.lane; exact tget_tset_ne _ _ _ _ _ h

@[simp] theorem State.group_setGroup_same (n : Nat) (v : Group) : (s.setGroup n v).group n = v := by
  simp [State.setGroup, State.group]

theorem State.group_setGroup_ne {n m : Nat} (v : Group) (h : n ≠ m) : (s.setGroup n v).group m = s.group m := by
  unfold State.setGroup State.group; exact tget_tset_ne _ _ _ _ _ h

@[simp] theorem State.mc_setMc_same (n : Nat) (v : Mc) : (s.setMc n v).mc n = v := by
  simp [State.setMc, State.mc]

theorem State.mc_setMc_ne {n m : Nat} (v : Mc) (h : n ≠ m) : (s.setMc n v).mc m = s.mc m := by
  unfold State.setMc State.mc; exact tget_tset_ne _ _ _ _ _ h

@[simp] theorem State.byte_putByte_same (a : Nat) (b : Byte) : (s.putByte a b).byte a = b := by
  simp [State.putByte, State.byte]

theorem State.byte_putByte_ne {a c : Nat} (b : Byte) (h : a ≠ c) : (s.putByte a b).byte c = s.byte c := by
  unfold State.putByte State.byte; exact tget_tset_ne _ _ _ _ _ h

/-! Registers behind an update of anything else. -/

@[simp] theorem State.rd_putByte (a : Nat) (b : Byte) (r : Reg) (i j : Nat) : (s.putByte a b).rd r i j = s.rd r i j := rfl
@[simp] theorem State.rd_setCore (k : Nat) (c : Core) (r : Reg) (i j : Nat) : (s.setCore k c).rd r i j = s.rd r i j := rfl
@[simp] theorem State.rd_setTile (t : Nat) (v : Tile) (r : Reg) (i j : Nat) : (s.setTile t v).rd r i j = s.rd r i j := rfl
@[simp] theorem State.rd_setQueue (q : Nat) (v : Queue) (r : Reg) (i j : Nat) : (s.setQueue q v).rd r i j = s.rd r i j := rfl
@[simp] theorem State.rd_setPort (p : Nat) (v : CapPort) (r : Reg) (i j : Nat) : (s.setPort p v).rd r i j = s.rd r i j := rfl
@[simp] theorem State.rd_setLane (l : Nat) (v : Lane) (r : Reg) (i j : Nat) : (s.setLane l v).rd r i j = s.rd r i j := rfl
@[simp] theorem State.rd_setGroup (g : Nat) (v : Group) (r : Reg) (i j : Nat) : (s.setGroup g v).rd r i j = s.rd r i j := rfl
@[simp] theorem State.rd_setPll (q : Nat) (v : Pll) (r : Reg) (i j : Nat) : (s.setPll q v).rd r i j = s.rd r i j := rfl
@[simp] theorem State.rd_setMc (c : Nat) (v : Mc) (r : Reg) (i j : Nat) : (s.setMc c v).rd r i j = s.rd r i j := rfl
@[simp] theorem State.rd_setLanding (k n : Nat) (v : Landing) (r : Reg) (i j : Nat) : (s.setLanding k n v).rd r i j = s.rd
  r i j := rfl
@[simp] theorem State.rd_setItems (l : List Item) (r : Reg) (i j : Nat) : (s.setItems l).rd r i j = s.rd r i j := rfl
@[simp] theorem State.rd_setDomain (d : Nat) (v : Domain) (r : Reg) (i j : Nat) : (s.setDomain d v).rd r i j = s.rd r i j := rfl

end Sys2Proof.Machine
end

