-- ==== Sys2Proof/Laws/Settle.lean ====
section
/-! SUPPORT. What the end of a command does beside the command (`settle`, `resolve`): which registers and fields it leaves. -/

namespace Sys2Proof.Machine

/-- What `settle` may change: performance counters and the device state of `PWR_STATUS`, host messages, cores that wait in
WAIT, and what the event controller last saw. -/
structure Settled (s t : State) : Prop where
  rd : ∀ r i j, r ≠ .PERF_CNT → r ≠ .PWR_STATUS → t.rd r i j = s.rd r i j
  core : ∀ k, (s.core k).run ≠ .inWait → t.core k = s.core k
  rest : t = { s with regs := t.regs, hostEvents := t.hostEvents, heldEvents := t.heldEvents, cores := t.cores,
                      sums := t.sums, levels := t.levels, rearm := t.rearm, epo := { s.epo with detected := t.epo.detected } }

namespace Settled

theorem refl (s : State) : Settled s s := ⟨fun _ _ _ _ _ => rfl, fun _ _ => rfl, rfl⟩

theorem trans {s t u : State} (h : Settled s t) (g : Settled t u) : Settled s u where
  rd r i j h1 h2 := (g.rd r i j h1 h2).trans (h.rd r i j h1 h2)
  core k hk := by
    have e := h.core k hk
    rw [g.core k (by rw [e]; exact hk), e]
  rest := by
    have e1 := h.rest
    have e2 := g.rest
    rw [e1] at e2
    exact e2

theorem foldl {α : Type} (f : State → α → State) (hf : ∀ s a, Settled s (f s a)) (l : List α) (s : State) :
    Settled s (l.foldl f s) := by
  induction l generalizing s with
  | nil => exact refl s
  | cons a l ih => exact (hf s a).trans (ih (f s a))

end Settled

theorem settled_wr_perf (s : State) (v : DWord) (i j : Nat) : Settled s (s.wr .PERF_CNT v i j) where
  rd _ i' j' h _ := State.rd_wr_reg s v i j i' j' (Ne.symm h)
  core _ _ := rfl
  rest := rfl

theorem settled_wr_pwr (s : State) (v : DWord) (i j : Nat) : Settled s (s.wr .PWR_STATUS v i j) where
  rd _ i' j' _ h := State.rd_wr_reg s v i j i' j' (Ne.symm h)
  core _ _ := rfl
  rest := rfl

theorem settled_perf (s : State) (b : Block) (e n : Nat) : Settled s (s.perf b e n) := by
  have one : ∀ (s : State) (k : Nat), Settled s
      (if s.rdf .PERF_SEL 0 8 (pageOf b) k = e ∧ e ≠ 0 then s.count .PERF_CNT n (pageOf b) k else s) := by
    intro s k
    split
    · exact settled_wr_perf s _ _ _
    · exact Settled.refl s
  exact (one s 0).trans (one _ 1)

theorem settled_countSummaries (s : State) : Settled s (countSummaries s) := by
  refine Settled.trans (Settled.foldl _ ?_ (summaries s) s) ⟨fun _ _ _ _ _ => rfl, fun _ _ => rfl, rfl⟩
  intro s a
  split
  · exact settled_perf s _ _ _
  · exact Settled.refl s

theorem settled_hostMessages (s : State) (m : BitVec 384) : Settled s (hostMessages s m) := by
  unfold hostMessages
  split
  · exact Settled.refl s
  · refine Settled.foldl _ ?_ _ s
    intro s n
    split
    · unfold hostMessage
      split
      · split
        · exact ⟨fun _ _ _ _ _ => rfl, fun _ _ => rfl, rfl⟩
        · exact ⟨fun _ _ _ _ _ => rfl, fun _ _ => rfl, rfl⟩
      · exact Settled.refl s
    · exact Settled.refl s

theorem settled_wake (s : State) (k : Nat) : Settled s (s.wake k) := by
  show Settled s (if (s.core k).run = .inWait then _ else s)
  split
  · rename_i h
    refine ⟨fun _ _ _ _ _ => rfl, fun n hn => ?_, rfl⟩
    refine State.core_setCore_ne s _ fun e => ?_
    subst e
    exact hn h
  · exact Settled.refl s

theorem settled_wakeRequests (s : State) (old now : BitVec 384) : Settled s (wakeRequests s old now) := by
  refine Settled.foldl _ ?_ s.cores s
  intro s e
  split
  · exact settled_wake s _
  · exact Settled.refl s

theorem settled_endQuiet (s : State) (m : BitVec 384) : Settled s (endQuiet s m) := by
  unfold endQuiet
  split
  · exact settled_wr_pwr s _ _ _
  · exact Settled.refl s

/-- What `settle` leaves. -/
theorem settle_spec (s : State) : Settled s (settle s) := by
  unfold settle
  refine Settled.trans (settled_countSummaries s) (Settled.trans (settled_hostMessages _ _) (Settled.trans
    (settled_wakeRequests _ _ _) (Settled.trans (settled_endQuiet _ _) ⟨fun _ _ _ _ _ => rfl, fun _ _ => rfl, rfl⟩)))

/-- A register that `settle` does not write. -/
theorem settle_rd (s : State) (r : Reg) (i j : Nat) (h1 : r ≠ .PERF_CNT) (h2 : r ≠ .PWR_STATUS) :
    (settle s).rd r i j = s.rd r i j := (settle_spec s).rd r i j h1 h2

/-- A core that does not wait in WAIT is left by `settle`. -/
theorem settle_core (s : State) (k : Nat) (h : (s.core k).run ≠ .inWait) : (settle s).core k = s.core k :=
  (settle_spec s).core k h

/-- No fault stands detected, and no re-arm pending, at the end of a command. -/
@[simp] theorem settle_detected (s : State) : (settle s).epo.detected = [] := rfl
@[simp] theorem settle_rearm (s : State) : (settle s).rearm = 0 := rfl

/-- `PWR_STATUS` outside Quiet is left by `settle`. -/
theorem settle_pwr (s : State) (h : s.pwrState ≠ 1) : (settle s).rd .PWR_STATUS = s.rd .PWR_STATUS := by
  have pf : ∀ (s : State) (b : Block) (e n : Nat), (s.perf b e n).rd .PWR_STATUS = s.rd .PWR_STATUS := by
    intro s b e n
    have one : ∀ (s : State) (k : Nat),
        (if s.rdf .PERF_SEL 0 8 (pageOf b) k = e ∧ e ≠ 0 then s.count .PERF_CNT n (pageOf b) k else s).rd .PWR_STATUS
          = s.rd .PWR_STATUS := by
      intro s k
      split
      · exact State.rd_wr_reg s _ _ _ _ _ (by decide)
      · rfl
    exact (one _ 1).trans (one s 0)
  have fold : ∀ {α : Type} (f : State → α → State), (∀ s a, (f s a).rd .PWR_STATUS = s.rd .PWR_STATUS) →
      ∀ (l : List α) (s : State), (l.foldl f s).rd .PWR_STATUS = s.rd .PWR_STATUS := by
    intro α f hf l
    induction l with
    | nil => intro s; rfl
    | cons a l ih => intro s; exact (ih _).trans (hf s a)
  have h1 : (countSummaries s).rd .PWR_STATUS = s.rd .PWR_STATUS := by
    refine fold _ ?_ (summaries s) s
    intro s a
    split
    · exact pf s _ _ _
    · rfl
  have h2 : ∀ (s : State) (m : BitVec 384), (hostMessages s m).rd .PWR_STATUS = s.rd .PWR_STATUS := by
    intro s m
    unfold hostMessages
    split
    · rfl
    · refine fold _ ?_ _ s
      intro s n
      split
      · unfold hostMessage
        split
        · split <;> rfl
        · rfl
      · rfl
  have h3 : ∀ (s : State) (a b : BitVec 384), (wakeRequests s a b).rd .PWR_STATUS = s.rd .PWR_STATUS := by
    intro s a b
    refine fold _ ?_ s.cores s
    intro s e
    split
    · show State.rd (if (s.core e.1).run = .inWait then _ else s) .PWR_STATUS = _
      split <;> rfl
    · rfl
  have h4 : ∀ (s : State) (m : BitVec 384), s.pwrState ≠ 1 → endQuiet s m = s := by
    intro s m hs
    unfold endQuiet
    rw [if_neg]
    exact fun e => hs e.1
  unfold settle follow
  simp only []
  rw [h4]
  · exact (h3 _ _ _).trans ((h2 _ _).trans h1)
  · unfold State.pwrState State.rdf
    rw [(h3 _ _ _).trans ((h2 _ _).trans h1)]
    exact h

/-- A round of `resolve` leaves a state in which no fault stands detected. -/
theorem resolveFound_quiet (s : State) (h : s.epo.detected = []) : resolveFound s = s := by
  unfold resolveFound
  rw [h]
  have e : s.epo = { s.epo with detected := [] } := by rw [← h]
  simp only [List.foldl_nil]
  rw [← e]

/-- A state in which no fault stands detected goes through `resolve` as it is. -/
theorem resolve_quiet (s : State) (h : s.epo.detected = []) : resolve s = s := by
  unfold resolve
  rw [resolveFound_quiet s h, resolveFound_quiet s h, resolveFound_quiet s h]

/-- A command that detects no fault ends as any other. -/
theorem finish_quiet (s : State) (h : s.epo.detected = []) : finish s = .next (settle s) := by
  unfold finish done; rw [resolve_quiet s h]

end Sys2Proof.Machine
end

