-- ==== Sys2Proof/Laws/Ops.lean ====
section
/-! SUPPORT. What the shared operations over State can do: performance counts, faults, events, the end of a command. -/

namespace Sys2Proof.Machine

/-! Bit fields. -/

theorem bit_ones (lo n i : Nat) (hi : i < 64) : bit (ones lo n) i = (decide (lo ≤ i) && decide (i < lo + n)) := by
  unfold bit ones
  rw [BitVec.getLsbD_ofNat, Nat.testBit_shiftLeft, Nat.testBit_two_pow_sub_one]
  simp only [hi, decide_true, Bool.true_and, ge_iff_le]
  by_cases h : lo ≤ i <;> simp [h]
  omega

/-- A bit of a word after a field is set. -/
theorem bit_setFld (v : DWord) (lo n x i : Nat) (hi : i < 64) :
    bit (setFld v lo n x) i = if lo ≤ i ∧ i < lo + n then x.testBit (i - lo) else bit v i := by
  have h1 : bit (setFld v lo n x) i = ((bit v i && !bit (ones lo n) i) || bit (BitVec.ofNat 64 ((x % 2 ^ n) <<< lo)) i) := by
    unfold setFld bit
    simp [hi]
  rw [h1, bit_ones lo n i hi]
  have h2 : bit (BitVec.ofNat 64 ((x % 2 ^ n) <<< lo)) i = (decide (lo ≤ i) && (decide (i - lo < n) && x.testBit (i - lo))) := by
    unfold bit
    rw [BitVec.getLsbD_ofNat, Nat.testBit_shiftLeft, Nat.testBit_mod_two_pow]
    simp [hi]
  rw [h2]
  by_cases h : lo ≤ i
  · by_cases g : i < lo + n
    · have e : i - lo < n := by omega
      simp [h, g, e]
    · have e : ¬ (i - lo < n) := by omega
      simp [h, g, e]
  · simp [h]

/-- A bit after one bit is set or cleared. -/
theorem bit_setBit (v : DWord) (k i : Nat) (b : Bool) (hi : i < 64) : bit (setBit v k b) i = if i = k then b else bit v i := by
  unfold setBit
  rw [bit_setFld v k 1 b.toNat i hi]
  by_cases h : i = k
  · subst h; cases b <;> simp
  · have e : ¬ (k ≤ i ∧ i < k + 1) := by omega
    rw [if_neg h, if_neg e]

theorem testBit_fld {w : Nat} (v : BitVec w) (lo n i : Nat) : (fld v lo n).testBit i = (decide (i < n) && bit v (lo + i)) := by
  unfold fld bit
  rw [Nat.testBit_mod_two_pow, Nat.testBit_shiftRight]
  rfl

/-- A field set reads as it was set, cut to its width. -/
theorem fld_setFld (v : DWord) (lo n x : Nat) (h : lo + n ≤ 64) : fld (setFld v lo n x) lo n = x % 2 ^ n := by
  apply Nat.eq_of_testBit_eq
  intro i
  rw [testBit_fld, Nat.testBit_mod_two_pow]
  by_cases hi : i < n
  · rw [bit_setFld v lo n x (lo + i) (by omega)]
    have e : lo ≤ lo + i ∧ lo + i < lo + n := by omega
    simp [hi]
  · simp [hi]

/-- A field set leaves a field beside it. -/
theorem fld_setFld_ne (v : DWord) (lo n x lo' n' : Nat) (h : lo' + n' ≤ 64) (d : lo' + n' ≤ lo ∨ lo + n ≤ lo') :
    fld (setFld v lo n x) lo' n' = fld v lo' n' := by
  apply Nat.eq_of_testBit_eq
  intro i
  rw [testBit_fld, testBit_fld]
  by_cases hi : i < n'
  · rw [bit_setFld v lo n x (lo' + i) (by omega)]
    have e : ¬ (lo ≤ lo' + i ∧ lo' + i < lo + n) := by omega
    simp [hi, e]
  · simp [hi]

variable (s : State)

@[simp] theorem State.rdf_wrf_same (r : Reg) (lo n x i j : Nat) (h : lo + n ≤ 64) :
    (s.wrf r lo n x i j).rdf r lo n i j = x % 2 ^ n := by
  unfold State.wrf State.rdf
  rw [State.rd_wr_same, fld_setFld _ _ _ _ h]

/-! The rest of the state. -/

theorem regs_trans {s t u : State} (h : t = { s with regs := t.regs }) (g : u = { t with regs := u.regs }) :
    u = { s with regs := u.regs } := by
  rw [h] at g
  exact g

theorem cores_trans {s t u : State} (h : t = { s with regs := t.regs, cores := t.cores })
    (g : u = { t with regs := u.regs, cores := u.cores }) : u = { s with regs := u.regs, cores := u.cores } := by
  rw [h] at g
  exact g

theorem regs_cores {s t : State} (h : t = { s with regs := t.regs }) : t = { s with regs := t.regs, cores := t.cores } := by
  have e : t.cores = s.cores := by rw [h]
  rw [e]
  exact h

theorem cores_regs {s t : State} (h : t = { s with cores := t.cores }) : t = { s with regs := t.regs, cores := t.cores } := by
  have e : t.regs = s.regs := by rw [h]
  rw [e]
  exact h

theorem State.wr_rest (r : Reg) (v : DWord) (i j : Nat) : s.wr r v i j = { s with regs := (s.wr r v i j).regs } := rfl

theorem State.perf_rest (b : Block) (e n : Nat) : s.perf b e n = { s with regs := (s.perf b e n).regs } := by
  have one : ∀ (s : State) (k : Nat), (if s.rdf .PERF_SEL 0 8 (pageOf b) k = e ∧ e ≠ 0 then
    s.count .PERF_CNT n (pageOf b) k else s)
      = { s with regs := (if s.rdf .PERF_SEL 0 8 (pageOf b) k = e ∧ e ≠ 0 then
        s.count .PERF_CNT n (pageOf b) k else s).regs } := by
    intro s k
    split <;> rfl
  exact regs_trans (one s 0) (one _ 1)

theorem State.wake_rest (k : Nat) : s.wake k = { s with cores := (s.wake k).cores } := by
  unfold State.wake
  simp only []
  split <;> rfl

theorem State.doorbell_rest (b : Block) (i : Nat) : s.doorbell b i = { s with cores := (s.doorbell b i).cores } := by
  unfold State.doorbell
  split
  · split
    · exact State.wake_rest s _
    · rfl
  · rfl

/-- An event changes registers, and cores that wait. -/
theorem State.evt_rest (b : Block) (i : Nat) : s.evt b i = { s with regs := (s.evt b i).regs, cores := (s.evt b i).cores } := by
  unfold State.evt
  simp only []
  split
  · rfl
  · exact cores_trans (regs_cores (regs_trans (State.wr_rest s _ _ _ _) (State.perf_rest _ b 2 1)))
      (cores_regs (State.doorbell_rest _ b i))

theorem State.logFirst_rest (b : Block) (n : Nat) : s.logFirst b n = { s with regs := (s.logFirst b n).regs } := by
  unfold State.logFirst State.countf State.wrf
  simp only []
  refine regs_trans ?_ (State.wr_rest _ _ _ _ _)
  split
  · exact State.wr_rest _ _ _ _ _
  · rfl

/-- A fault changes registers alone. -/
theorem State.fault_rest (b : Block) (c d x : Nat) : s.fault b c d x = { s with regs := (s.fault b c d x).regs } := by
  unfold State.fault
  simp only []
  unfold State.countf State.wrf
  generalize c % 65536 * 65536 + d % 65536 = m
  generalize x % 2 ^ 32 = w
  refine regs_trans (regs_trans ?_ (State.wr_rest _ _ _ _ _)) (State.perf_rest _ b 3 1)
  split
  · exact regs_trans (regs_trans (State.wr_rest _ _ _ _ _) (State.wr_rest _ _ _ _ _)) (State.logFirst_rest _ b _)
  · rfl

@[simp] theorem State.perf_pending (b : Block) (e n : Nat) : (s.perf b e n).pending = s.pending := by
  have h := congrArg State.pending (State.perf_rest s b e n)
  exact h
@[simp] theorem State.perf_staged (b : Block) (e n : Nat) : (s.perf b e n).staged = s.staged := by
  have h := congrArg State.staged (State.perf_rest s b e n)
  exact h
@[simp] theorem State.perf_captured (b : Block) (e n : Nat) : (s.perf b e n).captured = s.captured := by
  have h := congrArg State.captured (State.perf_rest s b e n)
  exact h
@[simp] theorem State.perf_force (b : Block) (e n : Nat) : (s.perf b e n).force = s.force := by
  have h := congrArg State.force (State.perf_rest s b e n)
  exact h
@[simp] theorem State.perf_rsp (b : Block) (e n : Nat) : (s.perf b e n).rsp = s.rsp := by
  have h := congrArg State.rsp (State.perf_rest s b e n)
  exact h
@[simp] theorem State.perf_reqs (b : Block) (e n : Nat) : (s.perf b e n).reqs = s.reqs := by
  have h := congrArg State.reqs (State.perf_rest s b e n)
  exact h
@[simp] theorem State.perf_levels (b : Block) (e n : Nat) : (s.perf b e n).levels = s.levels := by
  have h := congrArg State.levels (State.perf_rest s b e n)
  exact h
@[simp] theorem State.perf_sums (b : Block) (e n : Nat) : (s.perf b e n).sums = s.sums := by
  have h := congrArg State.sums (State.perf_rest s b e n)
  exact h
@[simp] theorem State.perf_rearm (b : Block) (e n : Nat) : (s.perf b e n).rearm = s.rearm := by
  have h := congrArg State.rearm (State.perf_rest s b e n)
  exact h
@[simp] theorem State.perf_heldEvents (b : Block) (e n : Nat) : (s.perf b e n).heldEvents = s.heldEvents := by
  have h := congrArg State.heldEvents (State.perf_rest s b e n)
  exact h
@[simp] theorem State.perf_hostEvents (b : Block) (e n : Nat) : (s.perf b e n).hostEvents = s.hostEvents := by
  have h := congrArg State.hostEvents (State.perf_rest s b e n)
  exact h
@[simp] theorem State.perf_resetting (b : Block) (e n : Nat) : (s.perf b e n).resetting = s.resetting := by
  have h := congrArg State.resetting (State.perf_rest s b e n)
  exact h
@[simp] theorem State.perf_dom (b : Block) (e n : Nat) : (s.perf b e n).dom = s.dom := by
  have h := congrArg State.dom (State.perf_rest s b e n)
  exact h
@[simp] theorem State.perf_mem (b : Block) (e n : Nat) : (s.perf b e n).mem = s.mem := by
  have h := congrArg State.mem (State.perf_rest s b e n)
  exact h
@[simp] theorem State.perf_quads (b : Block) (e n : Nat) : (s.perf b e n).quads = s.quads := by
  have h := congrArg State.quads (State.perf_rest s b e n)
  exact h
@[simp] theorem State.perf_lanes (b : Block) (e n : Nat) : (s.perf b e n).lanes = s.lanes := by
  have h := congrArg State.lanes (State.perf_rest s b e n)
  exact h
@[simp] theorem State.perf_groups (b : Block) (e n : Nat) : (s.perf b e n).groups = s.groups := by
  have h := congrArg State.groups (State.perf_rest s b e n)
  exact h
@[simp] theorem State.perf_mcs (b : Block) (e n : Nat) : (s.perf b e n).mcs = s.mcs := by
  have h := congrArg State.mcs (State.perf_rest s b e n)
  exact h
@[simp] theorem State.perf_bad (b : Block) (e n : Nat) : (s.perf b e n).bad = s.bad := by
  have h := congrArg State.bad (State.perf_rest s b e n)
  exact h
@[simp] theorem State.perf_spbs (b : Block) (e n : Nat) : (s.perf b e n).spbs = s.spbs := by
  have h := congrArg State.spbs (State.perf_rest s b e n)
  exact h
@[simp] theorem State.perf_handing (b : Block) (e n : Nat) : (s.perf b e n).handing = s.handing := by
  have h := congrArg State.handing (State.perf_rest s b e n)
  exact h
@[simp] theorem State.perf_posted (b : Block) (e n : Nat) : (s.perf b e n).posted = s.posted := by
  have h := congrArg State.posted (State.perf_rest s b e n)
  exact h
@[simp] theorem State.perf_queues (b : Block) (e n : Nat) : (s.perf b e n).queues = s.queues := by
  have h := congrArg State.queues (State.perf_rest s b e n)
  exact h
@[simp] theorem State.perf_ports (b : Block) (e n : Nat) : (s.perf b e n).ports = s.ports := by
  have h := congrArg State.ports (State.perf_rest s b e n)
  exact h
@[simp] theorem State.perf_bounds (b : Block) (e n : Nat) : (s.perf b e n).bounds = s.bounds := by
  have h := congrArg State.bounds (State.perf_rest s b e n)
  exact h
@[simp] theorem State.perf_sched (b : Block) (e n : Nat) : (s.perf b e n).sched = s.sched := by
  have h := congrArg State.sched (State.perf_rest s b e n)
  exact h
@[simp] theorem State.perf_slots (b : Block) (e n : Nat) : (s.perf b e n).slots = s.slots := by
  have h := congrArg State.slots (State.perf_rest s b e n)
  exact h
@[simp] theorem State.perf_tiles (b : Block) (e n : Nat) : (s.perf b e n).tiles = s.tiles := by
  have h := congrArg State.tiles (State.perf_rest s b e n)
  exact h
@[simp] theorem State.perf_exports (b : Block) (e n : Nat) : (s.perf b e n).exports = s.exports := by
  have h := congrArg State.exports (State.perf_rest s b e n)
  exact h
@[simp] theorem State.perf_epo (b : Block) (e n : Nat) : (s.perf b e n).epo = s.epo := by
  have h := congrArg State.epo (State.perf_rest s b e n)
  exact h
@[simp] theorem State.perf_hthOut (b : Block) (e n : Nat) : (s.perf b e n).hthOut = s.hthOut := by
  have h := congrArg State.hthOut (State.perf_rest s b e n)
  exact h
@[simp] theorem State.perf_discOut (b : Block) (e n : Nat) : (s.perf b e n).discOut = s.discOut := by
  have h := congrArg State.discOut (State.perf_rest s b e n)
  exact h
@[simp] theorem State.perf_heath (b : Block) (e n : Nat) : (s.perf b e n).heath = s.heath := by
  have h := congrArg State.heath (State.perf_rest s b e n)
  exact h
@[simp] theorem State.perf_stair (b : Block) (e n : Nat) : (s.perf b e n).stair = s.stair := by
  have h := congrArg State.stair (State.perf_rest s b e n)
  exact h
@[simp] theorem State.perf_ldr (b : Block) (e n : Nat) : (s.perf b e n).ldr = s.ldr := by
  have h := congrArg State.ldr (State.perf_rest s b e n)
  exact h
@[simp] theorem State.perf_sec (b : Block) (e n : Nat) : (s.perf b e n).sec = s.sec := by
  have h := congrArg State.sec (State.perf_rest s b e n)
  exact h
@[simp] theorem State.perf_link (b : Block) (e n : Nat) : (s.perf b e n).link = s.link := by
  have h := congrArg State.link (State.perf_rest s b e n)
  exact h
@[simp] theorem State.perf_health (b : Block) (e n : Nat) : (s.perf b e n).health = s.health := by
  have h := congrArg State.health (State.perf_rest s b e n)
  exact h
@[simp] theorem State.perf_gpio (b : Block) (e n : Nat) : (s.perf b e n).gpio = s.gpio := by
  have h := congrArg State.gpio (State.perf_rest s b e n)
  exact h
@[simp] theorem State.perf_power (b : Block) (e n : Nat) : (s.perf b e n).power = s.power := by
  have h := congrArg State.power (State.perf_rest s b e n)
  exact h
@[simp] theorem State.perf_fuses (b : Block) (e n : Nat) : (s.perf b e n).fuses = s.fuses := by
  have h := congrArg State.fuses (State.perf_rest s b e n)
  exact h
@[simp] theorem State.perf_draws (b : Block) (e n : Nat) : (s.perf b e n).draws = s.draws := by
  have h := congrArg State.draws (State.perf_rest s b e n)
  exact h
@[simp] theorem State.perf_cores (b : Block) (e n : Nat) : (s.perf b e n).cores = s.cores := by
  have h := congrArg State.cores (State.perf_rest s b e n)
  exact h

@[simp] theorem State.evt_pending (b : Block) (i : Nat) : (s.evt b i).pending = s.pending := by
  have h := congrArg State.pending (State.evt_rest s b i)
  exact h
@[simp] theorem State.evt_staged (b : Block) (i : Nat) : (s.evt b i).staged = s.staged := by
  have h := congrArg State.staged (State.evt_rest s b i)
  exact h
@[simp] theorem State.evt_captured (b : Block) (i : Nat) : (s.evt b i).captured = s.captured := by
  have h := congrArg State.captured (State.evt_rest s b i)
  exact h
@[simp] theorem State.evt_force (b : Block) (i : Nat) : (s.evt b i).force = s.force := by
  have h := congrArg State.force (State.evt_rest s b i)
  exact h
@[simp] theorem State.evt_rsp (b : Block) (i : Nat) : (s.evt b i).rsp = s.rsp := by
  have h := congrArg State.rsp (State.evt_rest s b i)
  exact h
@[simp] theorem State.evt_reqs (b : Block) (i : Nat) : (s.evt b i).reqs = s.reqs := by
  have h := congrArg State.reqs (State.evt_rest s b i)
  exact h
@[simp] theorem State.evt_levels (b : Block) (i : Nat) : (s.evt b i).levels = s.levels := by
  have h := congrArg State.levels (State.evt_rest s b i)
  exact h
@[simp] theorem State.evt_sums (b : Block) (i : Nat) : (s.evt b i).sums = s.sums := by
  have h := congrArg State.sums (State.evt_rest s b i)
  exact h
@[simp] theorem State.evt_rearm (b : Block) (i : Nat) : (s.evt b i).rearm = s.rearm := by
  have h := congrArg State.rearm (State.evt_rest s b i)
  exact h
@[simp] theorem State.evt_heldEvents (b : Block) (i : Nat) : (s.evt b i).heldEvents = s.heldEvents := by
  have h := congrArg State.heldEvents (State.evt_rest s b i)
  exact h
@[simp] theorem State.evt_hostEvents (b : Block) (i : Nat) : (s.evt b i).hostEvents = s.hostEvents := by
  have h := congrArg State.hostEvents (State.evt_rest s b i)
  exact h
@[simp] theorem State.evt_resetting (b : Block) (i : Nat) : (s.evt b i).resetting = s.resetting := by
  have h := congrArg State.resetting (State.evt_rest s b i)
  exact h
@[simp] theorem State.evt_dom (b : Block) (i : Nat) : (s.evt b i).dom = s.dom := by
  have h := congrArg State.dom (State.evt_rest s b i)
  exact h
@[simp] theorem State.evt_mem (b : Block) (i : Nat) : (s.evt b i).mem = s.mem := by
  have h := congrArg State.mem (State.evt_rest s b i)
  exact h
@[simp] theorem State.evt_quads (b : Block) (i : Nat) : (s.evt b i).quads = s.quads := by
  have h := congrArg State.quads (State.evt_rest s b i)
  exact h
@[simp] theorem State.evt_lanes (b : Block) (i : Nat) : (s.evt b i).lanes = s.lanes := by
  have h := congrArg State.lanes (State.evt_rest s b i)
  exact h
@[simp] theorem State.evt_groups (b : Block) (i : Nat) : (s.evt b i).groups = s.groups := by
  have h := congrArg State.groups (State.evt_rest s b i)
  exact h
@[simp] theorem State.evt_mcs (b : Block) (i : Nat) : (s.evt b i).mcs = s.mcs := by
  have h := congrArg State.mcs (State.evt_rest s b i)
  exact h
@[simp] theorem State.evt_bad (b : Block) (i : Nat) : (s.evt b i).bad = s.bad := by
  have h := congrArg State.bad (State.evt_rest s b i)
  exact h
@[simp] theorem State.evt_spbs (b : Block) (i : Nat) : (s.evt b i).spbs = s.spbs := by
  have h := congrArg State.spbs (State.evt_rest s b i)
  exact h
@[simp] theorem State.evt_handing (b : Block) (i : Nat) : (s.evt b i).handing = s.handing := by
  have h := congrArg State.handing (State.evt_rest s b i)
  exact h
@[simp] theorem State.evt_posted (b : Block) (i : Nat) : (s.evt b i).posted = s.posted := by
  have h := congrArg State.posted (State.evt_rest s b i)
  exact h
@[simp] theorem State.evt_queues (b : Block) (i : Nat) : (s.evt b i).queues = s.queues := by
  have h := congrArg State.queues (State.evt_rest s b i)
  exact h
@[simp] theorem State.evt_ports (b : Block) (i : Nat) : (s.evt b i).ports = s.ports := by
  have h := congrArg State.ports (State.evt_rest s b i)
  exact h
@[simp] theorem State.evt_bounds (b : Block) (i : Nat) : (s.evt b i).bounds = s.bounds := by
  have h := congrArg State.bounds (State.evt_rest s b i)
  exact h
@[simp] theorem State.evt_sched (b : Block) (i : Nat) : (s.evt b i).sched = s.sched := by
  have h := congrArg State.sched (State.evt_rest s b i)
  exact h
@[simp] theorem State.evt_slots (b : Block) (i : Nat) : (s.evt b i).slots = s.slots := by
  have h := congrArg State.slots (State.evt_rest s b i)
  exact h
@[simp] theorem State.evt_tiles (b : Block) (i : Nat) : (s.evt b i).tiles = s.tiles := by
  have h := congrArg State.tiles (State.evt_rest s b i)
  exact h
@[simp] theorem State.evt_exports (b : Block) (i : Nat) : (s.evt b i).exports = s.exports := by
  have h := congrArg State.exports (State.evt_rest s b i)
  exact h
@[simp] theorem State.evt_epo (b : Block) (i : Nat) : (s.evt b i).epo = s.epo := by
  have h := congrArg State.epo (State.evt_rest s b i)
  exact h
@[simp] theorem State.evt_hthOut (b : Block) (i : Nat) : (s.evt b i).hthOut = s.hthOut := by
  have h := congrArg State.hthOut (State.evt_rest s b i)
  exact h
@[simp] theorem State.evt_discOut (b : Block) (i : Nat) : (s.evt b i).discOut = s.discOut := by
  have h := congrArg State.discOut (State.evt_rest s b i)
  exact h
@[simp] theorem State.evt_heath (b : Block) (i : Nat) : (s.evt b i).heath = s.heath := by
  have h := congrArg State.heath (State.evt_rest s b i)
  exact h
@[simp] theorem State.evt_stair (b : Block) (i : Nat) : (s.evt b i).stair = s.stair := by
  have h := congrArg State.stair (State.evt_rest s b i)
  exact h
@[simp] theorem State.evt_ldr (b : Block) (i : Nat) : (s.evt b i).ldr = s.ldr := by
  have h := congrArg State.ldr (State.evt_rest s b i)
  exact h
@[simp] theorem State.evt_sec (b : Block) (i : Nat) : (s.evt b i).sec = s.sec := by
  have h := congrArg State.sec (State.evt_rest s b i)
  exact h
@[simp] theorem State.evt_link (b : Block) (i : Nat) : (s.evt b i).link = s.link := by
  have h := congrArg State.link (State.evt_rest s b i)
  exact h
@[simp] theorem State.evt_health (b : Block) (i : Nat) : (s.evt b i).health = s.health := by
  have h := congrArg State.health (State.evt_rest s b i)
  exact h
@[simp] theorem State.evt_gpio (b : Block) (i : Nat) : (s.evt b i).gpio = s.gpio := by
  have h := congrArg State.gpio (State.evt_rest s b i)
  exact h
@[simp] theorem State.evt_power (b : Block) (i : Nat) : (s.evt b i).power = s.power := by
  have h := congrArg State.power (State.evt_rest s b i)
  exact h
@[simp] theorem State.evt_fuses (b : Block) (i : Nat) : (s.evt b i).fuses = s.fuses := by
  have h := congrArg State.fuses (State.evt_rest s b i)
  exact h
@[simp] theorem State.evt_draws (b : Block) (i : Nat) : (s.evt b i).draws = s.draws := by
  have h := congrArg State.draws (State.evt_rest s b i)
  exact h

@[simp] theorem State.fault_pending (b : Block) (c d x : Nat) : (s.fault b c d x).pending = s.pending := by
  have h := congrArg State.pending (State.fault_rest s b c d x)
  exact h
@[simp] theorem State.fault_staged (b : Block) (c d x : Nat) : (s.fault b c d x).staged = s.staged := by
  have h := congrArg State.staged (State.fault_rest s b c d x)
  exact h
@[simp] theorem State.fault_captured (b : Block) (c d x : Nat) : (s.fault b c d x).captured = s.captured := by
  have h := congrArg State.captured (State.fault_rest s b c d x)
  exact h
@[simp] theorem State.fault_force (b : Block) (c d x : Nat) : (s.fault b c d x).force = s.force := by
  have h := congrArg State.force (State.fault_rest s b c d x)
  exact h
@[simp] theorem State.fault_rsp (b : Block) (c d x : Nat) : (s.fault b c d x).rsp = s.rsp := by
  have h := congrArg State.rsp (State.fault_rest s b c d x)
  exact h
@[simp] theorem State.fault_reqs (b : Block) (c d x : Nat) : (s.fault b c d x).reqs = s.reqs := by
  have h := congrArg State.reqs (State.fault_rest s b c d x)
  exact h
@[simp] theorem State.fault_levels (b : Block) (c d x : Nat) : (s.fault b c d x).levels = s.levels := by
  have h := congrArg State.levels (State.fault_rest s b c d x)
  exact h
@[simp] theorem State.fault_sums (b : Block) (c d x : Nat) : (s.fault b c d x).sums = s.sums := by
  have h := congrArg State.sums (State.fault_rest s b c d x)
  exact h
@[simp] theorem State.fault_rearm (b : Block) (c d x : Nat) : (s.fault b c d x).rearm = s.rearm := by
  have h := congrArg State.rearm (State.fault_rest s b c d x)
  exact h
@[simp] theorem State.fault_heldEvents (b : Block) (c d x : Nat) : (s.fault b c d x).heldEvents = s.heldEvents := by
  have h := congrArg State.heldEvents (State.fault_rest s b c d x)
  exact h
@[simp] theorem State.fault_hostEvents (b : Block) (c d x : Nat) : (s.fault b c d x).hostEvents = s.hostEvents := by
  have h := congrArg State.hostEvents (State.fault_rest s b c d x)
  exact h
@[simp] theorem State.fault_resetting (b : Block) (c d x : Nat) : (s.fault b c d x).resetting = s.resetting := by
  have h := congrArg State.resetting (State.fault_rest s b c d x)
  exact h
@[simp] theorem State.fault_dom (b : Block) (c d x : Nat) : (s.fault b c d x).dom = s.dom := by
  have h := congrArg State.dom (State.fault_rest s b c d x)
  exact h
@[simp] theorem State.fault_mem (b : Block) (c d x : Nat) : (s.fault b c d x).mem = s.mem := by
  have h := congrArg State.mem (State.fault_rest s b c d x)
  exact h
@[simp] theorem State.fault_quads (b : Block) (c d x : Nat) : (s.fault b c d x).quads = s.quads := by
  have h := congrArg State.quads (State.fault_rest s b c d x)
  exact h
@[simp] theorem State.fault_lanes (b : Block) (c d x : Nat) : (s.fault b c d x).lanes = s.lanes := by
  have h := congrArg State.lanes (State.fault_rest s b c d x)
  exact h
@[simp] theorem State.fault_groups (b : Block) (c d x : Nat) : (s.fault b c d x).groups = s.groups := by
  have h := congrArg State.groups (State.fault_rest s b c d x)
  exact h
@[simp] theorem State.fault_mcs (b : Block) (c d x : Nat) : (s.fault b c d x).mcs = s.mcs := by
  have h := congrArg State.mcs (State.fault_rest s b c d x)
  exact h
@[simp] theorem State.fault_bad (b : Block) (c d x : Nat) : (s.fault b c d x).bad = s.bad := by
  have h := congrArg State.bad (State.fault_rest s b c d x)
  exact h
@[simp] theorem State.fault_spbs (b : Block) (c d x : Nat) : (s.fault b c d x).spbs = s.spbs := by
  have h := congrArg State.spbs (State.fault_rest s b c d x)
  exact h
@[simp] theorem State.fault_handing (b : Block) (c d x : Nat) : (s.fault b c d x).handing = s.handing := by
  have h := congrArg State.handing (State.fault_rest s b c d x)
  exact h
@[simp] theorem State.fault_posted (b : Block) (c d x : Nat) : (s.fault b c d x).posted = s.posted := by
  have h := congrArg State.posted (State.fault_rest s b c d x)
  exact h
@[simp] theorem State.fault_queues (b : Block) (c d x : Nat) : (s.fault b c d x).queues = s.queues := by
  have h := congrArg State.queues (State.fault_rest s b c d x)
  exact h
@[simp] theorem State.fault_ports (b : Block) (c d x : Nat) : (s.fault b c d x).ports = s.ports := by
  have h := congrArg State.ports (State.fault_rest s b c d x)
  exact h
@[simp] theorem State.fault_bounds (b : Block) (c d x : Nat) : (s.fault b c d x).bounds = s.bounds := by
  have h := congrArg State.bounds (State.fault_rest s b c d x)
  exact h
@[simp] theorem State.fault_sched (b : Block) (c d x : Nat) : (s.fault b c d x).sched = s.sched := by
  have h := congrArg State.sched (State.fault_rest s b c d x)
  exact h
@[simp] theorem State.fault_slots (b : Block) (c d x : Nat) : (s.fault b c d x).slots = s.slots := by
  have h := congrArg State.slots (State.fault_rest s b c d x)
  exact h
@[simp] theorem State.fault_tiles (b : Block) (c d x : Nat) : (s.fault b c d x).tiles = s.tiles := by
  have h := congrArg State.tiles (State.fault_rest s b c d x)
  exact h
@[simp] theorem State.fault_exports (b : Block) (c d x : Nat) : (s.fault b c d x).exports = s.exports := by
  have h := congrArg State.exports (State.fault_rest s b c d x)
  exact h
@[simp] theorem State.fault_epo (b : Block) (c d x : Nat) : (s.fault b c d x).epo = s.epo := by
  have h := congrArg State.epo (State.fault_rest s b c d x)
  exact h
@[simp] theorem State.fault_hthOut (b : Block) (c d x : Nat) : (s.fault b c d x).hthOut = s.hthOut := by
  have h := congrArg State.hthOut (State.fault_rest s b c d x)
  exact h
@[simp] theorem State.fault_discOut (b : Block) (c d x : Nat) : (s.fault b c d x).discOut = s.discOut := by
  have h := congrArg State.discOut (State.fault_rest s b c d x)
  exact h
@[simp] theorem State.fault_heath (b : Block) (c d x : Nat) : (s.fault b c d x).heath = s.heath := by
  have h := congrArg State.heath (State.fault_rest s b c d x)
  exact h
@[simp] theorem State.fault_stair (b : Block) (c d x : Nat) : (s.fault b c d x).stair = s.stair := by
  have h := congrArg State.stair (State.fault_rest s b c d x)
  exact h
@[simp] theorem State.fault_ldr (b : Block) (c d x : Nat) : (s.fault b c d x).ldr = s.ldr := by
  have h := congrArg State.ldr (State.fault_rest s b c d x)
  exact h
@[simp] theorem State.fault_sec (b : Block) (c d x : Nat) : (s.fault b c d x).sec = s.sec := by
  have h := congrArg State.sec (State.fault_rest s b c d x)
  exact h
@[simp] theorem State.fault_link (b : Block) (c d x : Nat) : (s.fault b c d x).link = s.link := by
  have h := congrArg State.link (State.fault_rest s b c d x)
  exact h
@[simp] theorem State.fault_health (b : Block) (c d x : Nat) : (s.fault b c d x).health = s.health := by
  have h := congrArg State.health (State.fault_rest s b c d x)
  exact h
@[simp] theorem State.fault_gpio (b : Block) (c d x : Nat) : (s.fault b c d x).gpio = s.gpio := by
  have h := congrArg State.gpio (State.fault_rest s b c d x)
  exact h
@[simp] theorem State.fault_power (b : Block) (c d x : Nat) : (s.fault b c d x).power = s.power := by
  have h := congrArg State.power (State.fault_rest s b c d x)
  exact h
@[simp] theorem State.fault_fuses (b : Block) (c d x : Nat) : (s.fault b c d x).fuses = s.fuses := by
  have h := congrArg State.fuses (State.fault_rest s b c d x)
  exact h
@[simp] theorem State.fault_draws (b : Block) (c d x : Nat) : (s.fault b c d x).draws = s.draws := by
  have h := congrArg State.draws (State.fault_rest s b c d x)
  exact h
@[simp] theorem State.fault_cores (b : Block) (c d x : Nat) : (s.fault b c d x).cores = s.cores := by
  have h := congrArg State.cores (State.fault_rest s b c d x)
  exact h

@[simp] theorem settle_pending : (settle s).pending = s.pending := by
  have h := congrArg State.pending (settle_spec s).rest
  exact h
@[simp] theorem settle_staged : (settle s).staged = s.staged := by
  have h := congrArg State.staged (settle_spec s).rest
  exact h
@[simp] theorem settle_captured : (settle s).captured = s.captured := by
  have h := congrArg State.captured (settle_spec s).rest
  exact h
@[simp] theorem settle_force : (settle s).force = s.force := by
  have h := congrArg State.force (settle_spec s).rest
  exact h
@[simp] theorem settle_rsp : (settle s).rsp = s.rsp := by
  have h := congrArg State.rsp (settle_spec s).rest
  exact h
@[simp] theorem settle_reqs : (settle s).reqs = s.reqs := by
  have h := congrArg State.reqs (settle_spec s).rest
  exact h
@[simp] theorem settle_resetting : (settle s).resetting = s.resetting := by
  have h := congrArg State.resetting (settle_spec s).rest
  exact h
@[simp] theorem settle_dom : (settle s).dom = s.dom := by
  have h := congrArg State.dom (settle_spec s).rest
  exact h
@[simp] theorem settle_mem : (settle s).mem = s.mem := by
  have h := congrArg State.mem (settle_spec s).rest
  exact h
@[simp] theorem settle_quads : (settle s).quads = s.quads := by
  have h := congrArg State.quads (settle_spec s).rest
  exact h
@[simp] theorem settle_lanes : (settle s).lanes = s.lanes := by
  have h := congrArg State.lanes (settle_spec s).rest
  exact h
@[simp] theorem settle_groups : (settle s).groups = s.groups := by
  have h := congrArg State.groups (settle_spec s).rest
  exact h
@[simp] theorem settle_mcs : (settle s).mcs = s.mcs := by
  have h := congrArg State.mcs (settle_spec s).rest
  exact h
@[simp] theorem settle_bad : (settle s).bad = s.bad := by
  have h := congrArg State.bad (settle_spec s).rest
  exact h
@[simp] theorem settle_spbs : (settle s).spbs = s.spbs := by
  have h := congrArg State.spbs (settle_spec s).rest
  exact h
@[simp] theorem settle_handing : (settle s).handing = s.handing := by
  have h := congrArg State.handing (settle_spec s).rest
  exact h
@[simp] theorem settle_posted : (settle s).posted = s.posted := by
  have h := congrArg State.posted (settle_spec s).rest
  exact h
@[simp] theorem settle_queues : (settle s).queues = s.queues := by
  have h := congrArg State.queues (settle_spec s).rest
  exact h
@[simp] theorem settle_ports : (settle s).ports = s.ports := by
  have h := congrArg State.ports (settle_spec s).rest
  exact h
@[simp] theorem settle_bounds : (settle s).bounds = s.bounds := by
  have h := congrArg State.bounds (settle_spec s).rest
  exact h
@[simp] theorem settle_sched : (settle s).sched = s.sched := by
  have h := congrArg State.sched (settle_spec s).rest
  exact h
@[simp] theorem settle_slots : (settle s).slots = s.slots := by
  have h := congrArg State.slots (settle_spec s).rest
  exact h
@[simp] theorem settle_tiles : (settle s).tiles = s.tiles := by
  have h := congrArg State.tiles (settle_spec s).rest
  exact h
@[simp] theorem settle_exports : (settle s).exports = s.exports := by
  have h := congrArg State.exports (settle_spec s).rest
  exact h
@[simp] theorem settle_hthOut : (settle s).hthOut = s.hthOut := by
  have h := congrArg State.hthOut (settle_spec s).rest
  exact h
@[simp] theorem settle_discOut : (settle s).discOut = s.discOut := by
  have h := congrArg State.discOut (settle_spec s).rest
  exact h
@[simp] theorem settle_heath : (settle s).heath = s.heath := by
  have h := congrArg State.heath (settle_spec s).rest
  exact h
@[simp] theorem settle_stair : (settle s).stair = s.stair := by
  have h := congrArg State.stair (settle_spec s).rest
  exact h
@[simp] theorem settle_ldr : (settle s).ldr = s.ldr := by
  have h := congrArg State.ldr (settle_spec s).rest
  exact h
@[simp] theorem settle_sec : (settle s).sec = s.sec := by
  have h := congrArg State.sec (settle_spec s).rest
  exact h
@[simp] theorem settle_link : (settle s).link = s.link := by
  have h := congrArg State.link (settle_spec s).rest
  exact h
@[simp] theorem settle_health : (settle s).health = s.health := by
  have h := congrArg State.health (settle_spec s).rest
  exact h
@[simp] theorem settle_gpio : (settle s).gpio = s.gpio := by
  have h := congrArg State.gpio (settle_spec s).rest
  exact h
@[simp] theorem settle_power : (settle s).power = s.power := by
  have h := congrArg State.power (settle_spec s).rest
  exact h
@[simp] theorem settle_fuses : (settle s).fuses = s.fuses := by
  have h := congrArg State.fuses (settle_spec s).rest
  exact h
@[simp] theorem settle_draws : (settle s).draws = s.draws := by
  have h := congrArg State.draws (settle_spec s).rest
  exact h

/-! Registers. -/

theorem State.perf_rd (b : Block) (e n : Nat) (r : Reg) (i j : Nat) (h : r ≠ .PERF_CNT) : (s.perf b e n).rd r i j = s.rd r
  i j := by
  have one : ∀ (s : State) (k : Nat), (if s.rdf .PERF_SEL 0 8 (pageOf b) k = e ∧ e ≠ 0 then
    s.count .PERF_CNT n (pageOf b) k else s).rd r i j
      = s.rd r i j := by
    intro s k
    split
    · exact State.rd_wr_reg s _ _ _ _ _ h.symm
    · rfl
  exact (one _ 1).trans (one s 0)

theorem State.doorbell_rd (b : Block) (n : Nat) (r : Reg) (i j : Nat) : (s.doorbell b n).rd r i j = s.rd r i j := by
  rw [State.doorbell_rest]; rfl

/-- An event leaves every register but its block's `EVT_STATUS` and performance counters. -/
theorem State.evt_rd (b : Block) (n : Nat) (r : Reg) (i j : Nat) (h : ¬ (r = .EVT_STATUS ∧ i = pageOf b ∧
  j = 0)) (hp : r ≠ .PERF_CNT) :
    (s.evt b n).rd r i j = s.rd r i j := by
  unfold State.evt
  simp only []
  split
  · rfl
  · rw [State.doorbell_rd, State.perf_rd _ _ _ _ _ _ _ hp]
    exact State.rd_wr_ne s _ fun e => h ⟨e.1.symm, e.2.1.symm, e.2.2.symm⟩

theorem State.evt_rd_reg (b : Block) (n : Nat) (r : Reg) (i j : Nat) (h : r ≠ .EVT_STATUS) (hp : r ≠ .PERF_CNT) :
    (s.evt b n).rd r i j = s.rd r i j := State.evt_rd s b n r i j (fun e => h e.1) hp

/-- An event's own bit is set, and its block's other bits stay (R62). -/
theorem State.evt_bit (b : Block) (n i : Nat) (hi : i < 64) :
    bit ((s.evt b n).rd .EVT_STATUS (pageOf b)) i = (decide (i = n) || bit (s.rd .EVT_STATUS (pageOf b)) i) := by
  unfold State.evt
  simp only []
  split
  · rename_i h
    by_cases e : i = n
    · subst e; simp [h]
    · simp [e]
  · rw [State.doorbell_rd, State.perf_rd _ _ _ _ _ _ _ (by decide), State.rd_wr_same, bit_setBit _ _ _ _ hi]
    by_cases e : i = n <;> simp [e]

theorem State.evt_set (b : Block) (n : Nat) (h : n < 64) : bit ((s.evt b n).rd .EVT_STATUS (pageOf b)) n = true := by
  rw [State.evt_bit s b n n h]; simp

theorem State.wake_core (n k : Nat) (h : (s.core k).run ≠ .inWait) : (s.wake n).core k = s.core k := by
  unfold State.wake
  simp only []
  split
  · rename_i hw
    refine State.core_setCore_ne s _ fun e => ?_
    subst e
    exact h hw
  · rfl

theorem State.doorbell_core (b : Block) (i k : Nat) (h : (s.core k).run ≠ .inWait) : (s.doorbell b i).core k = s.core k := by
  unfold State.doorbell
  split
  · split
    · exact State.wake_core s _ k h
    · rfl
  · rfl

/-- A core that does not wait is left by an event. -/
theorem State.evt_core (b : Block) (i k : Nat) (h : (s.core k).run ≠ .inWait) : (s.evt b i).core k = s.core k := by
  unfold State.evt
  simp only []
  split
  · rfl
  · have e : ((s.wr .EVT_STATUS (setBit (s.rd .EVT_STATUS (pageOf b)) i true) (pageOf b)).perf b 2 1).core k = s.core k := by
      unfold State.core; rw [State.perf_cores]; rfl
    rw [State.doorbell_core _ _ _ _ (by rw [e]; exact h), e]

@[simp] theorem State.fault_core (b : Block) (c d x k : Nat) : (s.fault b c d x).core k = s.core k := by
  unfold State.core; rw [State.fault_cores]

theorem State.logFirst_rd (b : Block) (n : Nat) (r : Reg) (i j : Nat) (h1 : r ≠ .PWR_FLOG) (h2 : r ≠ .PWR_FLOG_CNT) :
    (s.logFirst b n).rd r i j = s.rd r i j := by
  unfold State.logFirst
  simp only []
  have e : ∀ u : State, (u.countf .PWR_FLOG_CNT 0 8).rd r i j = u.rd r i j := fun u => State.rd_wr_reg u _ _ _ _ _ h2.symm
  rw [e]
  split
  · exact State.rd_wr_reg s _ _ _ _ _ h1.symm
  · rfl

/-- A fault leaves every register but its block's fault record, the first-fault log and performance counters. -/
theorem State.fault_rd (b : Block) (c d x : Nat) (r : Reg) (i j : Nat)
    (h : r ≠ .FAULT_REC0 ∧ r ≠ .FAULT_REC1 ∧ r ≠ .FAULT_COUNT ∧ r ≠ .PWR_FLOG ∧ r ≠ .PWR_FLOG_CNT ∧ r ≠ .PERF_CNT) :
    (s.fault b c d x).rd r i j = s.rd r i j := by
  obtain ⟨h0, h1, h2, h3, h4, h5⟩ := h
  unfold State.fault
  simp only []
  rw [State.perf_rd _ _ _ _ _ _ _ h5]
  have e : ∀ u : State, (u.countf .FAULT_COUNT 0 16 1 (pageOf b)).rd r i j = u.rd r i j :=
    fun u => State.rd_wr_reg u _ _ _ _ _ h2.symm
  rw [e]
  split
  · rw [State.logFirst_rd _ _ _ _ _ _ h3 h4, State.rd_wr_reg _ _ _ _ _ _ h1.symm, State.rd_wr_reg _ _ _ _ _ _ h0.symm]
  · rfl

/-- A fault counts (R46). -/
theorem State.fault_count (b : Block) (c d x : Nat) :
    (s.fault b c d x).rdf .FAULT_COUNT 0 16 (pageOf b) = min (s.rdf .FAULT_COUNT 0 16 (pageOf b) + 1) 0xFFFF := by
  unfold State.fault
  simp only []
  unfold State.rdf
  rw [State.perf_rd _ _ _ _ _ _ _ (by decide)]
  unfold State.countf State.wrf State.rdf
  rw [State.rd_wr_same, fld_setFld _ _ _ _ (by decide), Nat.mod_eq_of_lt (by omega)]
  split
  · rw [State.logFirst_rd _ _ _ _ _ _ (by decide) (by decide), State.rd_wr_reg _ _ _ _ _ _ (by decide),
      State.rd_wr_reg _ _ _ _ _ _ (by decide)] <;> rfl
  · rfl

/-- The first fault since the last clear is recorded (R46). -/
theorem State.fault_first (b : Block) (c d x : Nat) (h : s.rd .FAULT_COUNT (pageOf b) = 0) :
    (s.fault b c d x).rd .FAULT_REC0 (pageOf b) = BitVec.ofNat 64 (c % 65536 * 65536 + d % 65536) ∧
    (s.fault b c d x).rd .FAULT_REC1 (pageOf b) = BitVec.ofNat 64 (x % 2 ^ 32) := by
  unfold State.fault
  simp only [if_pos h]
  have e : ∀ (u : State) (v : DWord), ((u.wr .FAULT_COUNT v (pageOf b)).perf b 3 1).rd .FAULT_REC0 (pageOf b) = u.rd
    .FAULT_REC0 (pageOf b) ∧
      ((u.wr .FAULT_COUNT v (pageOf b)).perf b 3 1).rd .FAULT_REC1 (pageOf b) = u.rd .FAULT_REC1 (pageOf b) := by
    intro u v
    rw [State.perf_rd _ _ _ _ _ _ _ (by decide), State.perf_rd _ _ _ _ _ _ _ (by decide), State.rd_wr_reg _ _ _ _ _ _ (by decide),
      State.rd_wr_reg _ _ _ _ _ _ (by decide)]
    exact ⟨rfl, rfl⟩
  unfold State.countf State.wrf
  rw [(e _ _).1, (e _ _).2, State.logFirst_rd _ _ _ _ _ _ (by decide) (by decide),
    State.logFirst_rd _ _ _ _ _ _ (by decide) (by decide)]
  constructor
  · rw [State.rd_wr_reg _ _ _ _ _ _ (by decide), State.rd_wr_same]
  · rw [State.rd_wr_same]

end Sys2Proof.Machine
end

