-- ==== Sys2Proof/Laws/Access.lean ====
section
/-! SUPPORT. What one access of a register leaves beside the register (`storeWord`, `setReg`). -/

namespace Sys2Proof.Machine

/-- `t` is `u` but for the ambient registers, the answer, cores that wait in WAIT, tags that lost answers keep and what the event
controller keeps. -/
structure Asides (u t : State) : Prop where
  rd : ∀ r i j, Safety.ambient r = false → t.rd r i j = u.rd r i j
  core : ∀ k, (u.core k).run ≠ .inWait → t.core k = u.core k
  reqs : Safety.awaited t.reqs = Safety.awaited u.reqs
  rest : t = { u with regs := t.regs, rsp := t.rsp, reqs := t.reqs, hostEvents := t.hostEvents, heldEvents := t.heldEvents,
                      cores := t.cores, sums := t.sums, levels := t.levels, rearm := t.rearm,
                      epo := { u.epo with detected := t.epo.detected } }

namespace Asides

theorem refl (s : State) : Asides s s := ⟨fun _ _ _ _ => rfl, fun _ _ => rfl, rfl, rfl⟩

theorem trans {s t u : State} (h : Asides s t) (g : Asides t u) : Asides s u where
  rd r i j a := (g.rd r i j a).trans (h.rd r i j a)
  core k hk := by
    have e := h.core k hk
    rw [g.core k (by rw [e]; exact hk), e]
  reqs := g.reqs.trans h.reqs
  rest := by
    have e1 := h.rest
    have e2 := g.rest
    rw [e1] at e2
    exact e2

end Asides

theorem Settled.asides {s t : State} (h : Settled s t) : Asides s t where
  rd r i j a := h.rd r i j (by rintro rfl; cases a) (by rintro rfl; cases a)
  core := h.core
  reqs := by rw [h.rest]
  rest := by
    have e := h.rest
    rw [e]

theorem asides_wr (s : State) (r : Reg) (v : DWord) (i j : Nat) (h : Safety.ambient r = true) : Asides s (s.wr r v i j) where
  rd r' i' j' a := State.rd_wr_reg s v i j i' j' (by rintro rfl; rw [h] at a; cases a)
  core _ _ := rfl
  reqs := rfl
  rest := rfl

theorem asides_rsp (s : State) (x : Rsp) : Asides s { s with rsp := x } := ⟨fun _ _ _ _ => rfl, fun _ _ => rfl, rfl, rfl⟩

/-- A request whose answer is lost keeps a tag, and may set the cause of its time-out (R498). -/
theorem asides_unanswered (s : State) (q : Requester) : Asides s (unanswered s q true).1 := by
  have one : ∀ x : Req, x.late = true → x.lost = true → Asides s { s with reqs := s.reqs ++ [x] } := by
    intro x h1 h2
    refine ⟨fun _ _ _ _ => rfl, fun _ _ => rfl, ?_, rfl⟩
    simp [Safety.awaited, List.filter_append, h1, h2]
  unfold unanswered
  simp only []
  split
  · split
    · exact one _ rfl rfl
    · exact (one _ rfl rfl).trans (asides_wr _ _ _ _ _ rfl)
  · split
    · exact Asides.refl s
    · exact asides_wr _ _ _ _ _ rfl

theorem unanswered_epo (s : State) (q : Requester) (l : Bool) : (unanswered s q l).1.epo = s.epo := by
  unfold unanswered
  simp only []
  split <;> split <;> rfl

@[simp] theorem dropHop_quiet (hops : List Hop) (p : Packet) (a d : Endpoint) : dropHop hops p a d {} = none := rfl
@[simp] theorem checkUnits_quiet (s : State) (hops : List Hop) (n : Nat) : checkUnits s hops n {} = s := by simp [checkUnits]
@[simp] theorem poisoned_quiet (hops : List Hop) (n : Nat) : poisoned hops n {} = false := by simp [poisoned]

/-- A response without an upset comes back, or is lost at a router that counts it (R500). -/
theorem comesBack_quiet (s : State) (q : Requester) (r : Nat) (port : Option Nat) (p : Packet) (st : Status) :
    comesBack s q r port p st {} = (s, some st) ∨ ∃ k, comesBack s q r port p st {} = (s.count .CRT_DROP_RSP 1 k, none) := by
  unfold comesBack
  simp only [dropHop_quiet, checkUnits_quiet, poisoned_quiet]
  split
  · exact .inr ⟨_, rfl⟩
  · exact .inl rfl

theorem unanswered_status (s : State) (q : Requester) (l : Bool) : (unanswered s q l).2 ≠ .domainOff := by
  unfold unanswered
  simp only []
  split <;> split <;> simp

/-- An answer of OK on a quiet way changes nothing but asides, and becomes no DOMAIN_OFF. -/
theorem asides_reply (s : State) (q : Requester) (r : Nat) (port : Option Nat) (p : Packet) :
    Asides s (reply s q r port p .ok).1 ∧ (reply s q r port p .ok).1.epo = s.epo ∧ (reply s q r port p .ok).2 ≠ .domainOff := by
  unfold reply
  split
  · exact ⟨Asides.refl s, rfl, by simp⟩
  · obtain e | ⟨k, e⟩ := comesBack_quiet s q r port p .ok
    · simp only [e, Bool.false_eq_true, false_and, if_false]
      exact ⟨Asides.refl s, trivial, by simp⟩
    · simp only [e]
      exact ⟨(asides_wr _ _ _ _ _ rfl).trans (asides_unanswered _ _), (unanswered_epo _ _ _).trans rfl,
        unanswered_status _ _ _⟩

theorem handing_self {s : State} {l : List Nat} (h : s.handing = l) : { s with handing := l } = s := by subst h; rfl

theorem perf_epo (s : State) (b : Block) (e n : Nat) : (s.perf b e n).epo = s.epo := by
  have one : ∀ (s : State) (k : Nat), (if s.rdf .PERF_SEL 0 8 (pageOf b) k = e ∧ e ≠ 0 then s.count .PERF_CNT n (pageOf b) k
      else s).epo = s.epo := by
    intro s k
    split <;> rfl
  exact (one _ 1).trans (one s 0)

theorem asides_perf (s : State) (b : Block) (e n : Nat) : Asides s (s.perf b e n) := (settled_perf s b e n).asides

theorem leNat_leBytes (n x : Nat) : leNat (leBytes n x) = x % 256 ^ n := by
  induction n generalizing x with
  | zero => simp [leBytes, leNat, Nat.mod_one]
  | succ n ih =>
    have e : (256 : Nat) ^ (n + 1) = 256 * 256 ^ n := by rw [Nat.pow_succ, Nat.mul_comm]
    have f : (BitVec.ofNat 8 x).toNat = x % 256 := BitVec.toNat_ofNat ..
    rw [leBytes, leNat, ih, e, f, Nat.mod_mul]

theorem length_leBytes (n x : Nat) : (leBytes n x).length = n := by
  induction n generalizing x with
  | zero => rfl
  | succ n ih => simp [leBytes, ih]

/-- The word that four little-endian bytes spell is the word they came from. -/
theorem wordsOf_leBytes (v : Word) : wordsOf (leBytes 4 v.toNat) 1 = [v] := by
  have h := v.isLt
  have e : word (leBytes 4 v.toNat) 0 = v.toNat := by
    unfold word
    rw [Nat.mul_zero, List.drop_zero, List.take_of_length_le (Nat.le_of_eq (length_leBytes 4 _)), leNat_leBytes]
    exact Nat.mod_eq_of_lt h
  simp [wordsOf, List.range, List.range.loop, e]

theorem packetForm_four (a : Nat) (h : a % 4 = 0) : packetForm a 4 = true := by simp [packetForm, h]
theorem regForm_four (a : Nat) (h : a % 4 = 0) : regForm a 4 = true := by simp [regForm, h]

theorem wordsWrite_one (s : State) (q : Requester) (o p : Nat) (b : Block) (k : RegKey) (v : Word)
    (hs : slotAt o = some ⟨b, p, some k, false⟩) (ha : admitted s q k.reg = true) :
    wordsWrite q [v] s o = ((writeWord s q ⟨b, p, some k, false⟩ v).perf b 4 1, .ok) := by
  have e : wordWrite s q o v = ((writeWord s q ⟨b, p, some k, false⟩ v).perf b 4 1, .ok) := by
    unfold wordWrite
    rw [hs]
    simp only [ha, if_true]
  simp [wordsWrite, e]

theorem asides_endsQuiet (s : State) (q : Requester) (t : State) : Asides t (endsQuiet s q t) := by
  unfold endsQuiet quietEnd
  split
  · split
    · exact (settled_wr_pwr t _ _ _).asides
    · exact (Settled.refl t).asides
  · exact (Settled.refl t).asides

theorem endsQuiet_epo (s : State) (q : Requester) (t : State) : (endsQuiet s q t).epo = t.epo := by
  unfold endsQuiet quietEnd
  split
  · split <;> rfl
  · rfl

/-- What a register write over the Corridor leaves where it reaches its target: the write of the word, and asides. -/
theorem regWrite_asides (s : State) (q : Requester) (a p : Nat) (b : Block) (k : RegKey) (v : Word) (d : Endpoint)
    (hs : slotAt (a - regBase) = some ⟨b, p, some k, false⟩) (h4 : a % 4 = 0) (hc : Safety.comesTo s q a 4 d)
    (ha : admitted s q k.reg = true) :
    Asides (writeWord s q ⟨b, p, some k, false⟩ v) (regWrite s q a (leBytes 4 v.toNat)).1 ∧
      (regWrite s q a (leBytes 4 v.toNat)).1.epo = (writeWord s q ⟨b, p, some k, false⟩ v).epo := by
  have e := wordsWrite_one s q _ p b k v hs ha
  have g := asides_reply ((writeWord s q ⟨b, p, some k, false⟩ v).perf b 4 1) q d.router (some d.port)
    (responseTo PacketCmd.wr.reads a 4 .ok)
  unfold regWrite access
  simp only [length_leBytes, hc .wr, Bool.false_eq_true, if_false, regForm_four _ h4, if_true, Nat.reduceDiv,
    wordsOf_leBytes, e, g.2.2]
  exact ⟨(asides_perf _ b 4 1).trans g.1, g.2.1.trans (perf_epo _ _ _ _)⟩

/-- What `storeWord` leaves where the access is served: the write of the word, the banks under handover as before (R447), and
asides. -/
theorem storeWord_asides (s : State) (q : Requester) (a p : Nat) (b : Block) (k : RegKey) (v : Word) (d : Endpoint)
    (hp : portOpen s q = true) (hs : slotAt (a - regBase) = some ⟨b, p, some k, false⟩) (hr : inRegs a = true)
    (h4 : a % 4 = 0) (hn : spans s q a 4 = false) (hc : Safety.comesTo s q a 4 d) (ha : admitted s q k.reg = true) :
    Asides { writeWord s q ⟨b, p, some k, false⟩ v with handing := s.handing } (storeWord s q a v) ∧
      (storeWord s q a v).epo = (writeWord s q ⟨b, p, some k, false⟩ v).epo := by
  have g := regWrite_asides s q a p b k v d hs h4 hc ha
  have m := g.1.trans (asides_endsQuiet s q _)
  have x : storeWord s q a v = { endsQuiet s q (regWrite s q a (leBytes 4 v.toNat)).1 with
      rsp := { status := (regWrite s q a (leBytes 4 v.toNat)).2 }, handing := s.handing } := by
    unfold storeWord busWrite
    simp only [hp, length_leBytes, packetForm_four _ h4, hn, Bool.true_eq_false, Bool.false_eq_true, or_self, if_false, hr,
      if_true]
  rw [x]
  refine ⟨⟨m.rd, m.core, m.reqs, ?_⟩, (endsQuiet_epo _ _ _).trans g.2⟩
  have e := m.rest
  rw [e]

/-- What `setReg` leaves where the access is served. -/
theorem setReg_asides (s : State) (q : Requester) (b : Block) (r : Reg) (v : Word) (i j : Nat)
    (h : Safety.serves s q b r i j) :
    ∃ p, Asides { writeWord s q ⟨b, p, some ⟨r, i, j⟩, false⟩ v with handing := s.handing } (setReg s q r v i j) ∧
      (setReg s q r v i j).epo = (writeWord s q ⟨b, p, some ⟨r, i, j⟩, false⟩ v).epo := by
  obtain ⟨hp, ⟨p, hs⟩, hr, h4, hn, ⟨d, hc⟩, ha, _⟩ := h
  exact ⟨p, storeWord_asides s q _ p b _ v d hp hs hr h4 hn hc ha⟩

theorem Asides.pending {u t : State} (h : Asides u t) : t.pending = u.pending := by
  have g := congrArg State.pending h.rest
  exact g
theorem Asides.staged {u t : State} (h : Asides u t) : t.staged = u.staged := by
  have g := congrArg State.staged h.rest
  exact g
theorem Asides.captured {u t : State} (h : Asides u t) : t.captured = u.captured := by
  have g := congrArg State.captured h.rest
  exact g
theorem Asides.force {u t : State} (h : Asides u t) : t.force = u.force := by
  have g := congrArg State.force h.rest
  exact g
theorem Asides.resetting {u t : State} (h : Asides u t) : t.resetting = u.resetting := by
  have g := congrArg State.resetting h.rest
  exact g
theorem Asides.dom {u t : State} (h : Asides u t) : t.dom = u.dom := by
  have g := congrArg State.dom h.rest
  exact g
theorem Asides.mem {u t : State} (h : Asides u t) : t.mem = u.mem := by
  have g := congrArg State.mem h.rest
  exact g
theorem Asides.quads {u t : State} (h : Asides u t) : t.quads = u.quads := by
  have g := congrArg State.quads h.rest
  exact g
theorem Asides.lanes {u t : State} (h : Asides u t) : t.lanes = u.lanes := by
  have g := congrArg State.lanes h.rest
  exact g
theorem Asides.groups {u t : State} (h : Asides u t) : t.groups = u.groups := by
  have g := congrArg State.groups h.rest
  exact g
theorem Asides.mcs {u t : State} (h : Asides u t) : t.mcs = u.mcs := by
  have g := congrArg State.mcs h.rest
  exact g
theorem Asides.bad {u t : State} (h : Asides u t) : t.bad = u.bad := by
  have g := congrArg State.bad h.rest
  exact g
theorem Asides.spbs {u t : State} (h : Asides u t) : t.spbs = u.spbs := by
  have g := congrArg State.spbs h.rest
  exact g
theorem Asides.handing {u t : State} (h : Asides u t) : t.handing = u.handing := by
  have g := congrArg State.handing h.rest
  exact g
theorem Asides.posted {u t : State} (h : Asides u t) : t.posted = u.posted := by
  have g := congrArg State.posted h.rest
  exact g
theorem Asides.queues {u t : State} (h : Asides u t) : t.queues = u.queues := by
  have g := congrArg State.queues h.rest
  exact g
theorem Asides.ports {u t : State} (h : Asides u t) : t.ports = u.ports := by
  have g := congrArg State.ports h.rest
  exact g
theorem Asides.bounds {u t : State} (h : Asides u t) : t.bounds = u.bounds := by
  have g := congrArg State.bounds h.rest
  exact g
theorem Asides.sched {u t : State} (h : Asides u t) : t.sched = u.sched := by
  have g := congrArg State.sched h.rest
  exact g
theorem Asides.slots {u t : State} (h : Asides u t) : t.slots = u.slots := by
  have g := congrArg State.slots h.rest
  exact g
theorem Asides.tiles {u t : State} (h : Asides u t) : t.tiles = u.tiles := by
  have g := congrArg State.tiles h.rest
  exact g
theorem Asides.exports {u t : State} (h : Asides u t) : t.exports = u.exports := by
  have g := congrArg State.exports h.rest
  exact g
theorem Asides.hthOut {u t : State} (h : Asides u t) : t.hthOut = u.hthOut := by
  have g := congrArg State.hthOut h.rest
  exact g
theorem Asides.discOut {u t : State} (h : Asides u t) : t.discOut = u.discOut := by
  have g := congrArg State.discOut h.rest
  exact g
theorem Asides.heath {u t : State} (h : Asides u t) : t.heath = u.heath := by
  have g := congrArg State.heath h.rest
  exact g
theorem Asides.stair {u t : State} (h : Asides u t) : t.stair = u.stair := by
  have g := congrArg State.stair h.rest
  exact g
theorem Asides.ldr {u t : State} (h : Asides u t) : t.ldr = u.ldr := by
  have g := congrArg State.ldr h.rest
  exact g
theorem Asides.sec {u t : State} (h : Asides u t) : t.sec = u.sec := by
  have g := congrArg State.sec h.rest
  exact g
theorem Asides.link {u t : State} (h : Asides u t) : t.link = u.link := by
  have g := congrArg State.link h.rest
  exact g
theorem Asides.health {u t : State} (h : Asides u t) : t.health = u.health := by
  have g := congrArg State.health h.rest
  exact g
theorem Asides.gpio {u t : State} (h : Asides u t) : t.gpio = u.gpio := by
  have g := congrArg State.gpio h.rest
  exact g
theorem Asides.power {u t : State} (h : Asides u t) : t.power = u.power := by
  have g := congrArg State.power h.rest
  exact g
theorem Asides.fuses {u t : State} (h : Asides u t) : t.fuses = u.fuses := by
  have g := congrArg State.fuses h.rest
  exact g
theorem Asides.draws {u t : State} (h : Asides u t) : t.draws = u.draws := by
  have g := congrArg State.draws h.rest
  exact g
theorem Asides.detourDiff {u t : State} (h : Asides u t) : t.detourDiff = u.detourDiff := by
  have g := congrArg State.detourDiff h.rest
  exact g
theorem Asides.tap {u t : State} (h : Asides u t) : t.tap = u.tap := by
  have g := congrArg State.tap h.rest
  exact g

theorem Asides.byte {u t : State} (h : Asides u t) (a : Nat) : t.byte a = u.byte a := by unfold State.byte; rw [h.mem]

@[simp] theorem dropCapture_pending (s : State) (k : RegKey) : (dropCapture s k).pending = s.pending := rfl
@[simp] theorem dropCapture_regs (s : State) (k : RegKey) : (dropCapture s k).regs = s.regs := rfl
@[simp] theorem dropCapture_staged (s : State) (k : RegKey) : (dropCapture s k).staged = s.staged := rfl
@[simp] theorem dropCapture_force (s : State) (k : RegKey) : (dropCapture s k).force = s.force := rfl
@[simp] theorem dropCapture_rsp (s : State) (k : RegKey) : (dropCapture s k).rsp = s.rsp := rfl
@[simp] theorem dropCapture_reqs (s : State) (k : RegKey) : (dropCapture s k).reqs = s.reqs := rfl
@[simp] theorem dropCapture_levels (s : State) (k : RegKey) : (dropCapture s k).levels = s.levels := rfl
@[simp] theorem dropCapture_sums (s : State) (k : RegKey) : (dropCapture s k).sums = s.sums := rfl
@[simp] theorem dropCapture_rearm (s : State) (k : RegKey) : (dropCapture s k).rearm = s.rearm := rfl
@[simp] theorem dropCapture_heldEvents (s : State) (k : RegKey) : (dropCapture s k).heldEvents = s.heldEvents := rfl
@[simp] theorem dropCapture_hostEvents (s : State) (k : RegKey) : (dropCapture s k).hostEvents = s.hostEvents := rfl
@[simp] theorem dropCapture_resetting (s : State) (k : RegKey) : (dropCapture s k).resetting = s.resetting := rfl
@[simp] theorem dropCapture_dom (s : State) (k : RegKey) : (dropCapture s k).dom = s.dom := rfl
@[simp] theorem dropCapture_mem (s : State) (k : RegKey) : (dropCapture s k).mem = s.mem := rfl
@[simp] theorem dropCapture_quads (s : State) (k : RegKey) : (dropCapture s k).quads = s.quads := rfl
@[simp] theorem dropCapture_lanes (s : State) (k : RegKey) : (dropCapture s k).lanes = s.lanes := rfl
@[simp] theorem dropCapture_groups (s : State) (k : RegKey) : (dropCapture s k).groups = s.groups := rfl
@[simp] theorem dropCapture_mcs (s : State) (k : RegKey) : (dropCapture s k).mcs = s.mcs := rfl
@[simp] theorem dropCapture_bad (s : State) (k : RegKey) : (dropCapture s k).bad = s.bad := rfl
@[simp] theorem dropCapture_spbs (s : State) (k : RegKey) : (dropCapture s k).spbs = s.spbs := rfl
@[simp] theorem dropCapture_handing (s : State) (k : RegKey) : (dropCapture s k).handing = s.handing := rfl
@[simp] theorem dropCapture_posted (s : State) (k : RegKey) : (dropCapture s k).posted = s.posted := rfl
@[simp] theorem dropCapture_queues (s : State) (k : RegKey) : (dropCapture s k).queues = s.queues := rfl
@[simp] theorem dropCapture_ports (s : State) (k : RegKey) : (dropCapture s k).ports = s.ports := rfl
@[simp] theorem dropCapture_bounds (s : State) (k : RegKey) : (dropCapture s k).bounds = s.bounds := rfl
@[simp] theorem dropCapture_sched (s : State) (k : RegKey) : (dropCapture s k).sched = s.sched := rfl
@[simp] theorem dropCapture_slots (s : State) (k : RegKey) : (dropCapture s k).slots = s.slots := rfl
@[simp] theorem dropCapture_cores (s : State) (k : RegKey) : (dropCapture s k).cores = s.cores := rfl
@[simp] theorem dropCapture_tiles (s : State) (k : RegKey) : (dropCapture s k).tiles = s.tiles := rfl
@[simp] theorem dropCapture_exports (s : State) (k : RegKey) : (dropCapture s k).exports = s.exports := rfl
@[simp] theorem dropCapture_epo (s : State) (k : RegKey) : (dropCapture s k).epo = s.epo := rfl
@[simp] theorem dropCapture_hthOut (s : State) (k : RegKey) : (dropCapture s k).hthOut = s.hthOut := rfl
@[simp] theorem dropCapture_discOut (s : State) (k : RegKey) : (dropCapture s k).discOut = s.discOut := rfl
@[simp] theorem dropCapture_heath (s : State) (k : RegKey) : (dropCapture s k).heath = s.heath := rfl
@[simp] theorem dropCapture_stair (s : State) (k : RegKey) : (dropCapture s k).stair = s.stair := rfl
@[simp] theorem dropCapture_ldr (s : State) (k : RegKey) : (dropCapture s k).ldr = s.ldr := rfl
@[simp] theorem dropCapture_sec (s : State) (k : RegKey) : (dropCapture s k).sec = s.sec := rfl
@[simp] theorem dropCapture_link (s : State) (k : RegKey) : (dropCapture s k).link = s.link := rfl
@[simp] theorem dropCapture_health (s : State) (k : RegKey) : (dropCapture s k).health = s.health := rfl
@[simp] theorem dropCapture_gpio (s : State) (k : RegKey) : (dropCapture s k).gpio = s.gpio := rfl
@[simp] theorem dropCapture_power (s : State) (k : RegKey) : (dropCapture s k).power = s.power := rfl
@[simp] theorem dropCapture_fuses (s : State) (k : RegKey) : (dropCapture s k).fuses = s.fuses := rfl
@[simp] theorem dropCapture_draws (s : State) (k : RegKey) : (dropCapture s k).draws = s.draws := rfl
@[simp] theorem dropCapture_detourDiff (s : State) (k : RegKey) : (dropCapture s k).detourDiff = s.detourDiff := rfl
@[simp] theorem dropCapture_tap (s : State) (k : RegKey) : (dropCapture s k).tap = s.tap := rfl
@[simp] theorem dropCapture_rd (s : State) (k : RegKey) (r : Reg) (i j : Nat) : (dropCapture s k).rd r i j = s.rd r i j := rfl

/-- A write of a whole register, where the access is served, completes with the effect of `writeReg`, and asides. -/
theorem setReg_finish (s : State) (q : Requester) (b : Block) (r : Reg) (v : Word) (i j : Nat) (u : State)
    (h : Safety.serves s q b r i j) (hw : (regDesc r).wide = false)
    (hr : ∀ p, { writeReg (dropCapture s ⟨r, i, j⟩) q b ⟨r, i, j⟩ p (ext v) v with handing := s.handing } = u)
    (hd : u.epo.detected = []) : ∃ t, finish (setReg s q r v i j) = .next t ∧ Asides u t ∧ t.epo.detected = [] := by
  obtain ⟨p, ha, he⟩ := setReg_asides s q b r v i j h
  have ht := h.2.2.2.2.2.2.2
  have e : { writeWord s q ⟨b, p, some ⟨r, i, j⟩, false⟩ v with handing := s.handing } = u := by
    unfold writeWord
    simp only [ht, Bool.false_and, Bool.false_eq_true, if_false, hw, if_true, hr]
  rw [e] at ha
  have hd' : (setReg s q r v i j).epo.detected = [] := by rw [he, ← hd, ← e]
  exact ⟨_, finish_quiet _ hd', ha.trans (settle_spec _).asides, rfl⟩

/-- A command register written, where the access is served and the value has no reserved field (R56). -/
theorem setReg_command (s : State) (q : Requester) (b : Block) (r : Reg) (v : Word) (i j : Nat) (u : State)
    (h : Safety.serves s q b r i j) (hw : (regDesc r).wide = false) (ha : (regDesc r).acc = .wo)
    (hb : badFields (dropCapture s ⟨r, i, j⟩) b ⟨r, i, j⟩ 0
      (ext v &&& regMask b ⟨r, i, j⟩) = [])
    (hr : { command (dropCapture s ⟨r, i, j⟩) q b ⟨r, i, j⟩ (ext v &&& regMask b ⟨r, i, j⟩) with handing := s.handing } = u)
    (hd : u.epo.detected = []) : ∃ t, finish (setReg s q r v i j) = .next t ∧ Asides u t ∧ t.epo.detected = [] := by
  refine setReg_finish s q b r v i j u h hw (fun p => ?_) hd
  unfold writeReg
  simp only [ha, hb, true_or, if_true]
  exact hr

/-- A plain register written, where the access is served: the value is not reserved, the block's state admits it, and no
bonding group leaves ALIGNED by it. -/
theorem setReg_plain (s : State) (q : Requester) (b : Block) (r : Reg) (v : Word) (i j : Nat) (old new : DWord) (u : State)
    (h : Safety.serves s q b r i j) (hw : (regDesc r).wide = false) (ha : (regDesc r).acc = .rw)
    (ho : regView (dropCapture s ⟨r, i, j⟩) b ⟨r, i, j⟩ = old)
    (hn : merge (regMask b ⟨r, i, j⟩) old (ext v) = new)
    (hb : badFields (dropCapture s ⟨r, i, j⟩) b ⟨r, i, j⟩ old new = [])
    (hf : writeRefused (dropCapture s ⟨r, i, j⟩) q b ⟨r, i, j⟩ old new (ext v)
      = false)
    (hg : groupsLeft (dropCapture s ⟨r, i, j⟩) (putReg (dropCapture s ⟨r, i, j⟩) b ⟨r, i, j⟩ old new (ext v)) =
      putReg (dropCapture s ⟨r, i, j⟩) b ⟨r, i, j⟩ old new (ext v))
    (hr : { putReg (dropCapture s ⟨r, i, j⟩) b ⟨r, i, j⟩ old new (ext v) with handing := s.handing } = u)
    (hd : u.epo.detected = []) : ∃ t, finish (setReg s q r v i j) = .next t ∧ Asides u t ∧ t.epo.detected = [] := by
  refine setReg_finish s q b r v i j u h hw (fun p => ?_) hd
  unfold writeReg
  simp only [ha, ho, hn, hb, keepFields, hf, Bool.false_eq_true, if_false, if_true, hg, hr]

/-- A write that the block's state refuses (R45): the fault, and nothing else. -/
theorem setReg_refused (s : State) (q : Requester) (b : Block) (r : Reg) (v : Word) (i j : Nat) (old new : DWord)
    (h : Safety.serves s q b r i j) (hw : (regDesc r).wide = false) (ha : (regDesc r).acc = .rw)
    (ho : regView (dropCapture s ⟨r, i, j⟩) b ⟨r, i, j⟩ = old)
    (hn : merge (regMask b ⟨r, i, j⟩) old (ext v) = new)
    (hb : badFields (dropCapture s ⟨r, i, j⟩) b ⟨r, i, j⟩ old new = [])
    (hf : writeRefused (dropCapture s ⟨r, i, j⟩) q b ⟨r, i, j⟩ old new (ext v)
      = true)
    (hd : s.epo.detected = []) : ∃ t p, finish (setReg s q r v i j) = .next t ∧
      Asides (State.refuse (dropCapture s ⟨r, i, j⟩) b p v) t ∧ t.epo.detected = [] := by
  obtain ⟨p, ha', he⟩ := setReg_asides s q b r v i j h
  have ht := h.2.2.2.2.2.2.2
  have e : writeWord s q ⟨b, p, some ⟨r, i, j⟩, false⟩ v = State.refuse (dropCapture s ⟨r, i, j⟩) b p v := by
    unfold writeWord
    simp only [ht, Bool.false_and, Bool.false_eq_true, if_false, hw, if_true]
    unfold writeReg
    simp only [ha, ho, hn, hb, keepFields, hf, if_true]
  rw [e] at ha' he
  have hh : (State.refuse (dropCapture s ⟨r, i, j⟩) b p v).handing = s.handing := by
    unfold State.refuse
    rw [State.fault_handing]
    rfl
  rw [handing_self hh] at ha'
  have hd' : (setReg s q r v i j).epo.detected = [] := by
    rw [he]
    unfold State.refuse
    rw [State.fault_epo]
    exact hd
  exact ⟨_, p, finish_quiet _ hd', ha'.trans (settle_spec _).asides, rfl⟩

/-! Merging. -/

theorem bit_merge (m a b : DWord) (i : Nat) (hi : i < 64) : bit (merge m a b) i = if bit m i then bit b i else bit a i := by
  unfold merge bit
  simp only [BitVec.getLsbD_or, BitVec.getLsbD_and, BitVec.getLsbD_not, hi, decide_true, Bool.true_and]
  cases m.getLsbD i <;> simp

/-- A field whose bits all exist takes the value written. -/
theorem fld_merge (m a b : DWord) (lo n : Nat) (h : lo + n ≤ 64) (hm : ∀ i, i < n → bit m (lo + i) = true) :
    fld (merge m a b) lo n = fld b lo n := by
  apply Nat.eq_of_testBit_eq
  intro i
  rw [testBit_fld, testBit_fld]
  by_cases hi : i < n
  · rw [bit_merge _ _ _ _ (by omega), hm i hi, if_pos rfl]
  · simp [hi]

theorem toNat_ext (v : Word) : (ext v).toNat = v.toNat := by
  unfold ext
  rw [BitVec.toNat_setWidth]
  exact Nat.mod_eq_of_lt (Nat.lt_of_lt_of_le v.isLt (by decide))

theorem fld_ext (v : Word) (lo n : Nat) : fld (ext v) lo n = fld v lo n := by
  unfold fld
  rw [toNat_ext]

end Sys2Proof.Machine
end

