-- ==== Sys2Proof/Laws/Dispatch.lean ====
section
/-! SUPPORT. One equation per arm of `exec`: the meaning that the command calls. -/

namespace Sys2Proof.Machine

theorem exec_registerWrite (q : Requester) (a : Addr) (v : Word) (s : State) :
    exec (.registerWrite q a v) s = execRegisterWrite q a v s := rfl
theorem exec_rcRead (q : Requester) (a : Addr) (inc : Nat) (s : State) :
    exec (.rcRead q a inc) s = execRcRead q a inc s := rfl
theorem exec_stagedLowWordWrite (q : Requester) (a : Addr) (v : Word) (s : State) :
    exec (.stagedLowWordWrite q a v) s = execStagedLowWordWrite q a v s := rfl
theorem exec_lowWordReadCapture (q : Requester) (a : Addr) (s : State) :
    exec (.lowWordReadCapture q a) s = execLowWordReadCapture q a s := rfl
theorem exec_evtStatusClear (q : Requester) (b : Block) (v : Word) (s : State) :
    exec (.evtStatusClear q b v) s = execEvtStatusClear q b v s := rfl
theorem exec_evtForce (q : Requester) (b : Block) (v : Word) (s : State) :
    exec (.evtForce q b v) s = execEvtForce q b v s := rfl
theorem exec_faultCountClear (q : Requester) (b : Block) (v : Word) (coin : Option FaultRec) (s : State) :
    exec (.faultCountClear q b v coin) s = execFaultCountClear q b v coin s := rfl
theorem exec_perfSelWrite (q : Requester) (b : Block) (n : Fin 2) (v : Word) (s : State) :
    exec (.perfSelWrite q b n v) s = execPerfSelWrite q b n v s := rfl
theorem exec_softResetK (q : Requester) (b : Block) (s : State) : exec (.softResetK q b) s = execSoftResetK q b s := rfl
theorem exec_softResetComplete (b : Block) (s : State) : exec (.softResetComplete b) s = execSoftResetComplete b s := rfl
theorem exec_domainPowerDown (q : Requester) (d : Fin 24) (s : State) :
    exec (.domainPowerDown q d) s = execDomainPowerDown q d s := rfl
theorem exec_drainComplete (d : Fin 24) (s : State) : exec (.drainComplete d) s = execDrainComplete d s := rfl
theorem exec_drainTimeout (d : Fin 24) (s : State) : exec (.drainTimeout d) s = execDrainTimeout d s := rfl
theorem exec_domainPowerUp (q : Requester) (d : Fin 24) (s : State) :
    exec (.domainPowerUp q d) s = execDomainPowerUp q d s := rfl
theorem exec_domainPowerUpComplete (d : Fin 24) (s : State) :
    exec (.domainPowerUpComplete d) s = execDomainPowerUpComplete d s := rfl
theorem exec_quadPllWrite (q : Requester) (n : Fin 6) (rate : Bool) (v : Word) (s : State) :
    exec (.quadPllWrite q n rate v) s = execQuadPllWrite q n rate v s := rfl
theorem exec_pllLock (n : Fin 6) (s : State) : exec (.pllLock n) s = execPllLock n s := rfl
theorem exec_pllNoLock (n : Fin 6) (s : State) : exec (.pllNoLock n) s = execPllNoLock n s := rfl
theorem exec_pllLockLoss (n : Fin 6) (s : State) : exec (.pllLockLoss n) s = execPllLockLoss n s := rfl
theorem exec_laneWord (l : Fin 24) (w : LaneWord) (s : State) : exec (.laneWord l w) s = execLaneWord l w s := rfl
theorem exec_adaptDone (l : Fin 24) (eye : BitVec 8) (eq : List (BitVec 8)) (s : State) :
    exec (.adaptDone l eye eq) s = execAdaptDone l eye eq s := rfl
theorem exec_adaptTimeout (l : Fin 24) (s : State) : exec (.adaptTimeout l) s = execAdaptTimeout l s := rfl
theorem exec_laneEqDataWrite (q : Requester) (l : Fin 24) (v : Word) (s : State) :
    exec (.laneEqDataWrite q l v) s = execLaneEqDataWrite q l v s := rfl
theorem exec_eyeScanStart (q : Requester) (l : Fin 24) (v : BitVec 31) (s : State) :
    exec (.eyeScanStart q l v) s = execEyeScanStart q l v s := rfl
theorem exec_eyeScanDone (l : Fin 24) (errs : Nat) (s : State) :
    exec (.eyeScanDone l errs) s = execEyeScanDone l errs s := rfl
theorem exec_txWordSlot (l : Fin 24) (heath : Option TxWord) (s : State) :
    exec (.txWordSlot l heath) s = execTxWordSlot l heath s := rfl
theorem exec_bondAligned (m : BondSeen) (s : State) : exec (.bondAligned m) s = execBondAligned m s := rfl
theorem exec_bondSkew (g : Fin 4) (spread : Nat) (s : State) :
    exec (.bondSkew g spread) s = execBondSkew g spread s := rfl
theorem exec_bondAlignLoss (g : Fin 4) (s : State) : exec (.bondAlignLoss g) s = execBondAlignLoss g s := rfl
theorem exec_loopbackSelect (q : Requester) (l : Fin 24) (v : Word) (s : State) :
    exec (.loopbackSelect q l v) s = execLoopbackSelect q l v s := rfl
theorem exec_laneCntClr (q : Requester) (l : Fin 24) (s : State) : exec (.laneCntClr q l) s = execLaneCntClr q l s := rfl
theorem exec_treeSwitch (q : Requester) (n : Fin 8) (v : Word) (s : State) :
    exec (.treeSwitch q n v) s = execTreeSwitch q n v s := rfl
theorem exec_treeRestart (n : Fin 8) (s : State) : exec (.treeRestart n) s = execTreeRestart n s := rfl
theorem exec_treeStopped (n : Fin 8) (s : State) : exec (.treeStopped n) s = execTreeStopped n s := rfl
theorem exec_captureDecision (l : Fin 24) (ds : List Decision) (s : State) :
    exec (.captureDecision l ds) s = execCaptureDecision l ds s := rfl
theorem exec_heathCaptureUnit (p : Fin 8) (u : HeathUnit) (s : State) :
    exec (.heathCaptureUnit p u) s = execHeathCaptureUnit p u s := rfl
theorem exec_heathExitToken (n : Fin 64) (k : HeathToken) (s : State) :
    exec (.heathExitToken n k) s = execHeathExitToken n k s := rfl
theorem exec_hthLoad (q : Requester) (s : State) : exec (.hthLoad q) s = execHthLoad q s := rfl
theorem exec_loadFrame (s : State) : exec (.loadFrame) s = execLoadFrame s := rfl
theorem exec_loadCheckDone (s : State) : exec (.loadCheckDone) s = execLoadCheckDone s := rfl
theorem exec_hthRelease (q : Requester) (s : State) : exec (.hthRelease q) s = execHthRelease q s := rfl
theorem exec_hthAbort (q : Requester) (s : State) : exec (.hthAbort q) s = execHthAbort q s := rfl
theorem exec_releaseStage (s : State) : exec (.releaseStage) s = execReleaseStage s := rfl
theorem exec_scrubFrameCheck (upset : Option (BitVec 1024)) (s : State) :
    exec (.scrubFrameCheck upset) s = execScrubFrameCheck upset s := rfl
theorem exec_hthRunClr (q : Requester) (s : State) : exec (.hthRunClr q) s = execHthRunClr q s := rfl
theorem exec_heathEntryDelivery (n : Fin 64) (s : State) :
    exec (.heathEntryDelivery n) s = execHeathEntryDelivery n s := rfl
theorem exec_arm (q : Requester) (s : State) : exec (.arm q) s = execArm q s := rfl
theorem exec_disarm (q : Requester) (s : State) : exec (.disarm q) s = execDisarm q s := rfl
theorem exec_stairEdge (l : StairLines) (s : State) : exec (.stairEdge l) s = execStairEdge l s := rfl
theorem exec_trigInputChange (balls : BitVec 16) (s : State) :
    exec (.trigInputChange balls) s = execTrigInputChange balls s := rfl
theorem exec_tclkLost (s : State) : exec (.tclkLost) s = execTclkLost s := rfl
theorem exec_tclkResume (s : State) : exec (.tclkResume) s = execTclkResume s := rfl
theorem exec_eventStampEdge (e : Fin 8) (l : HeldLevel) (t : DWord) (s : State) :
    exec (.eventStampEdge e l t) s = execEventStampEdge e l t s := rfl
theorem exec_strStampPop (q : Requester) (v : Word) (s : State) : exec (.strStampPop q v) s = execStrStampPop q v s := rfl
theorem exec_queueEnable (q : Requester) (n : Fin 1024) (v : Word) (s : State) :
    exec (.queueEnable q n v) s = execQueueEnable q n v s := rfl
theorem exec_queueDisable (q : Requester) (n : Fin 1024) (v : Word) (s : State) :
    exec (.queueDisable q n v) s = execQueueDisable q n v s := rfl
theorem exec_read (q : Requester) (p : Fin 8) (n : Fin 1024) (arg : BitVec 38) (s : State) :
    exec (.read q p n arg) s = execRead q p n arg s := rfl
theorem exec_advance (q : Requester) (p : Fin 8) (n : Fin 1024) (arg : BitVec 38) (s : State) :
    exec (.advance q p n arg) s = execAdvance q p n arg s := rfl
theorem exec_mark (q : Requester) (p : Fin 8) (n : Fin 1024) (arg : BitVec 38) (s : State) :
    exec (.mark q p n arg) s = execMark q p n arg s := rfl
theorem exec_rewind (q : Requester) (p : Fin 8) (n : Fin 1024) (arg : BitVec 38) (s : State) :
    exec (.rewind q p n arg) s = execRewind q p n arg s := rfl
theorem exec_release (q : Requester) (p : Fin 8) (n : Fin 1024) (arg : BitVec 38) (s : State) :
    exec (.release q p n arg) s = execRelease q p n arg s := rfl
theorem exec_writeAdv (q : Requester) (p : Fin 8) (n : Fin 1024) (arg : BitVec 38) (s : State) :
    exec (.writeAdv q p n arg) s = execWriteAdv q p n arg s := rfl
theorem exec_flush (q : Requester) (p : Fin 8) (n : Fin 1024) (arg : BitVec 38) (s : State) :
    exec (.flush q p n arg) s = execFlush q p n arg s := rfl
theorem exec_reset (q : Requester) (p : Fin 8) (n : Fin 1024) (arg : BitVec 38) (s : State) :
    exec (.reset q p n arg) s = execReset q p n arg s := rfl
theorem exec_recordAppend (p : Fin 40) (poison : Bool) (s : State) :
    exec (.recordAppend p poison) s = execRecordAppend p poison s := rfl
theorem exec_recordVisible (q : Fin 1024) (s : State) : exec (.recordVisible q) s = execRecordVisible q s := rfl
theorem exec_heldProducerResume (q : Fin 1024) (s : State) :
    exec (.heldProducerResume q) s = execHeldProducerResume q s := rfl
theorem exec_channelWaitResume (q : Fin 1024) (s : State) :
    exec (.channelWaitResume q) s = execChannelWaitResume q s := rfl
theorem exec_positionCheckPass (bad : List PosBad) (s : State) :
    exec (.positionCheckPass bad) s = execPositionCheckPass bad s := rfl
theorem exec_channelEnable (q : Requester) (c : Fin 8) (s : State) :
    exec (.channelEnable q c) s = execChannelEnable q c s := rfl
theorem exec_channelInitDone (c : Fin 8) (s : State) : exec (.channelInitDone c) s = execChannelInitDone c s := rfl
theorem exec_trainingDone (c : Fin 8) (r : Trained) (s : State) :
    exec (.trainingDone c r) s = execTrainingDone c r s := rfl
theorem exec_channelDisable (q : Requester) (c : Fin 8) (s : State) :
    exec (.channelDisable q c) s = execChannelDisable q c s := rfl
theorem exec_mcRetrain (q : Requester) (c : Fin 8) (s : State) : exec (.mcRetrain q c) s = execMcRetrain q c s := rfl
theorem exec_srEnter (q : Requester) (c : Fin 8) (s : State) : exec (.srEnter q c) s = execSrEnter q c s := rfl
theorem exec_srExit (q : Requester) (c : Fin 8) (s : State) : exec (.srExit q c) s = execSrExit q c s := rfl
theorem exec_caparRetry (c : Fin 8) (fails : Bool) (s : State) :
    exec (.caparRetry c fails) s = execCaparRetry c fails s := rfl
theorem exec_trackingPass (c : Fin 8) (delays : List (Fin 72 × BitVec 9)) (hot : Bool) (s : State) :
    exec (.trackingPass c delays hot) s = execTrackingPass c delays hot s := rfl
theorem exec_arbitrationWindow (a : Arrivals) (s : State) :
    exec (.arbitrationWindow a) s = execArbitrationWindow a s := rfl
theorem exec_scrubBurst (c : Fin 8) (e : Ecc) (s : State) : exec (.scrubBurst c e) s = execScrubBurst c e s := rfl
theorem exec_mcLoopStart (q : Requester) (c : Fin 8) (s : State) :
    exec (.mcLoopStart q c) s = execMcLoopStart q c s := rfl
theorem exec_mcLoopDone (c : Fin 8) (firstDq : Option (Fin 72)) (fails : Nat) (s : State) :
    exec (.mcLoopDone c firstDq fails) s = execMcLoopDone c firstDq fails s := rfl
theorem exec_tokenArrival (t : Fin 48) (src : Fin 141) (parity : Parity) (way : Option (Fin 4)) (s : State) :
    exec (.tokenArrival t src parity way) s = execTokenArrival t src parity way s := rfl
theorem exec_fuFire (t : Fin 48) (f : Fin 64) (p : Fin 3) (e : Ecc) (s : State) :
    exec (.fuFire t f p e) s = execFuFire t f p e s := rfl
theorem exec_dividerResult (t : Fin 48) (d : Fin 4) (bad : Bool) (s : State) :
    exec (.dividerResult t d bad) s = execDividerResult t d bad s := rfl
theorem exec_memoryOpResponse (t : Fin 48) (n : Fin 64) (e : Ecc) (s : State) :
    exec (.memoryOpResponse t n e) s = execMemoryOpResponse t n e s := rfl
theorem exec_entryAdmit (n : Fin 64) (s : State) : exec (.entryAdmit n) s = execEntryAdmit n s := rfl
theorem exec_exitAccept (t : Fin 48) (x : ExitToken) (s : State) : exec (.exitAccept t x) s = execExitAccept t x s := rfl
theorem exec_exitPortDisable (q : Requester) (n : Fin 64) (s : State) :
    exec (.exitPortDisable q n) s = execExitPortDisable q n s := rfl
theorem exec_tileMarkerPass (m : MarkerPass) (s : State) : exec (.tileMarkerPass m) s = execTileMarkerPass m s := rfl
theorem exec_remapArm (q : Requester) (t : Fin 48) (s : State) : exec (.remapArm q t) s = execRemapArm q t s := rfl
theorem exec_remapCancel (q : Requester) (t : Fin 48) (s : State) :
    exec (.remapCancel q t) s = execRemapCancel q t s := rfl
theorem exec_tilePause (q : Requester) (t : Fin 48) (v : Word) (s : State) :
    exec (.tilePause q t v) s = execTilePause q t v s := rfl
theorem exec_spillEnable (q : Requester) (t : Fin 48) (s : State) :
    exec (.spillEnable q t) s = execSpillEnable q t s := rfl
theorem exec_spillFillDone (t : Fin 48) (s : State) : exec (.spillFillDone t) s = execSpillFillDone t s := rfl
theorem exec_spillOperationDone (t : Fin 48) (f : Fin 64) (p : Fin 3) (e0 e1 e2 e3 : Ecc) (s : State) :
    exec (.spillOperationDone t f p e0 e1 e2 e3) s = execSpillOperationDone t f p e0 e1 e2 e3 s := rfl
theorem exec_heldStoreRetry (t : Fin 48) (f : Fin 64) (p : Fin 3) (e0 e1 e2 e3 : Ecc) (s : State) :
    exec (.heldStoreRetry t f p e0 e1 e2 e3) s = execHeldStoreRetry t f p e0 e1 e2 e3 s := rfl
theorem exec_spillScan (t : Fin 48) (e : Ecc) (s : State) : exec (.spillScan t e) s = execSpillScan t e s := rfl
theorem exec_stallDetected (t : Fin 48) (s : State) : exec (.stallDetected t) s = execStallDetected t s := rfl
theorem exec_tileLdrLoad (q : Requester) (s : State) : exec (.tileLdrLoad q) s = execTileLdrLoad q s := rfl
theorem exec_tileLdrAbort (q : Requester) (s : State) : exec (.tileLdrAbort q) s = execTileLdrAbort q s := rfl
theorem exec_checkingDone (s : State) : exec (.checkingDone) s = execCheckingDone s := rfl
theorem exec_bindingDone (s : State) : exec (.bindingDone) s = execBindingDone s := rfl
theorem exec_verifyingDone (s : State) : exec (.verifyingDone) s = execVerifyingDone s := rfl
theorem exec_writingDone (s : State) : exec (.writingDone) s = execWritingDone s := rfl
theorem exec_nop (k : Fin 32) (x : CoreEnv) (s : State) : exec (.nop k x) s = execNop k x s := rfl
theorem exec_drop (k : Fin 32) (x : CoreEnv) (s : State) : exec (.drop k x) s = execDrop k x s := rfl
theorem exec_dup (k : Fin 32) (x : CoreEnv) (s : State) : exec (.dup k x) s = execDup k x s := rfl
theorem exec_swap (k : Fin 32) (x : CoreEnv) (s : State) : exec (.swap k x) s = execSwap k x s := rfl
theorem exec_over (k : Fin 32) (x : CoreEnv) (s : State) : exec (.over k x) s = execOver k x s := rfl
theorem exec_rot (k : Fin 32) (x : CoreEnv) (s : State) : exec (.rot k x) s = execRot k x s := rfl
theorem exec_nip (k : Fin 32) (x : CoreEnv) (s : State) : exec (.nip k x) s = execNip k x s := rfl
theorem exec_tuck (k : Fin 32) (x : CoreEnv) (s : State) : exec (.tuck k x) s = execTuck k x s := rfl
theorem exec_pick (k : Fin 32) (x : CoreEnv) (s : State) : exec (.pick k x) s = execPick k x s := rfl
theorem exec_twoDrop (k : Fin 32) (x : CoreEnv) (s : State) : exec (.twoDrop k x) s = execTwoDrop k x s := rfl
theorem exec_twoDup (k : Fin 32) (x : CoreEnv) (s : State) : exec (.twoDup k x) s = execTwoDup k x s := rfl
theorem exec_twoSwap (k : Fin 32) (x : CoreEnv) (s : State) : exec (.twoSwap k x) s = execTwoSwap k x s := rfl
theorem exec_depth (k : Fin 32) (x : CoreEnv) (s : State) : exec (.depth k x) s = execDepth k x s := rfl
theorem exec_tor (k : Fin 32) (x : CoreEnv) (s : State) : exec (.tor k x) s = execTor k x s := rfl
theorem exec_fromr (k : Fin 32) (x : CoreEnv) (s : State) : exec (.fromr k x) s = execFromr k x s := rfl
theorem exec_rfetch (k : Fin 32) (x : CoreEnv) (s : State) : exec (.rfetch k x) s = execRfetch k x s := rfl
theorem exec_lit (k : Fin 32) (x : CoreEnv) (s : State) : exec (.lit k x) s = execLit k x s := rfl
theorem exec_litu (k : Fin 32) (x : CoreEnv) (s : State) : exec (.litu k x) s = execLitu k x s := rfl
theorem exec_addi (k : Fin 32) (x : CoreEnv) (s : State) : exec (.addi k x) s = execAddi k x s := rfl
theorem exec_andi (k : Fin 32) (x : CoreEnv) (s : State) : exec (.andi k x) s = execAndi k x s := rfl
theorem exec_ori (k : Fin 32) (x : CoreEnv) (s : State) : exec (.ori k x) s = execOri k x s := rfl
theorem exec_xori (k : Fin 32) (x : CoreEnv) (s : State) : exec (.xori k x) s = execXori k x s := rfl
theorem exec_shli (k : Fin 32) (x : CoreEnv) (s : State) : exec (.shli k x) s = execShli k x s := rfl
theorem exec_shri (k : Fin 32) (x : CoreEnv) (s : State) : exec (.shri k x) s = execShri k x s := rfl
theorem exec_sari (k : Fin 32) (x : CoreEnv) (s : State) : exec (.sari k x) s = execSari k x s := rfl
theorem exec_roli (k : Fin 32) (x : CoreEnv) (s : State) : exec (.roli k x) s = execRoli k x s := rfl
theorem exec_ldl (k : Fin 32) (x : CoreEnv) (s : State) : exec (.ldl k x) s = execLdl k x s := rfl
theorem exec_stl (k : Fin 32) (x : CoreEnv) (s : State) : exec (.stl k x) s = execStl k x s := rfl
theorem exec_rds (k : Fin 32) (x : CoreEnv) (s : State) : exec (.rds k x) s = execRds k x s := rfl
theorem exec_wrs (k : Fin 32) (x : CoreEnv) (s : State) : exec (.wrs k x) s = execWrs k x s := rfl
theorem exec_llit (k : Fin 32) (x : CoreEnv) (s : State) : exec (.llit k x) s = execLlit k x s := rfl
theorem exec_ladd (k : Fin 32) (x : CoreEnv) (s : State) : exec (.ladd k x) s = execLadd k x s := rfl
theorem exec_sextb (k : Fin 32) (x : CoreEnv) (s : State) : exec (.sextb k x) s = execSextb k x s := rfl
theorem exec_sexth (k : Fin 32) (x : CoreEnv) (s : State) : exec (.sexth k x) s = execSexth k x s := rfl
theorem exec_adr (k : Fin 32) (x : CoreEnv) (s : State) : exec (.adr k x) s = execAdr k x s := rfl
theorem exec_sath (k : Fin 32) (x : CoreEnv) (s : State) : exec (.sath k x) s = execSath k x s := rfl
theorem exec_add (k : Fin 32) (x : CoreEnv) (s : State) : exec (.add k x) s = execAdd k x s := rfl
theorem exec_adds (k : Fin 32) (x : CoreEnv) (s : State) : exec (.adds k x) s = execAdds k x s := rfl
theorem exec_addus (k : Fin 32) (x : CoreEnv) (s : State) : exec (.addus k x) s = execAddus k x s := rfl
theorem exec_sub (k : Fin 32) (x : CoreEnv) (s : State) : exec (.sub k x) s = execSub k x s := rfl
theorem exec_subs (k : Fin 32) (x : CoreEnv) (s : State) : exec (.subs k x) s = execSubs k x s := rfl
theorem exec_subus (k : Fin 32) (x : CoreEnv) (s : State) : exec (.subus k x) s = execSubus k x s := rfl
theorem exec_neg (k : Fin 32) (x : CoreEnv) (s : State) : exec (.neg k x) s = execNeg k x s := rfl
theorem exec_abs (k : Fin 32) (x : CoreEnv) (s : State) : exec (.abs k x) s = execAbs k x s := rfl
theorem exec_min (k : Fin 32) (x : CoreEnv) (s : State) : exec (.min k x) s = execMin k x s := rfl
theorem exec_max (k : Fin 32) (x : CoreEnv) (s : State) : exec (.max k x) s = execMax k x s := rfl
theorem exec_minu (k : Fin 32) (x : CoreEnv) (s : State) : exec (.minu k x) s = execMinu k x s := rfl
theorem exec_maxu (k : Fin 32) (x : CoreEnv) (s : State) : exec (.maxu k x) s = execMaxu k x s := rfl
theorem exec_addc (k : Fin 32) (x : CoreEnv) (s : State) : exec (.addc k x) s = execAddc k x s := rfl
theorem exec_subb (k : Fin 32) (x : CoreEnv) (s : State) : exec (.subb k x) s = execSubb k x s := rfl
theorem exec_clamp (k : Fin 32) (x : CoreEnv) (s : State) : exec (.clamp k x) s = execClamp k x s := rfl
theorem exec_mul (k : Fin 32) (x : CoreEnv) (s : State) : exec (.mul k x) s = execMul k x s := rfl
theorem exec_mulh (k : Fin 32) (x : CoreEnv) (s : State) : exec (.mulh k x) s = execMulh k x s := rfl
theorem exec_mulhu (k : Fin 32) (x : CoreEnv) (s : State) : exec (.mulhu k x) s = execMulhu k x s := rfl
theorem exec_mac (k : Fin 32) (x : CoreEnv) (s : State) : exec (.mac k x) s = execMac k x s := rfl
theorem exec_muli (k : Fin 32) (x : CoreEnv) (s : State) : exec (.muli k x) s = execMuli k x s := rfl
theorem exec_div (k : Fin 32) (x : CoreEnv) (s : State) : exec (.div k x) s = execDiv k x s := rfl
theorem exec_divu (k : Fin 32) (x : CoreEnv) (s : State) : exec (.divu k x) s = execDivu k x s := rfl
theorem exec_rem (k : Fin 32) (x : CoreEnv) (s : State) : exec (.rem k x) s = execRem k x s := rfl
theorem exec_remu (k : Fin 32) (x : CoreEnv) (s : State) : exec (.remu k x) s = execRemu k x s := rfl
theorem exec_divrem (k : Fin 32) (x : CoreEnv) (s : State) : exec (.divrem k x) s = execDivrem k x s := rfl
theorem exec_divremu (k : Fin 32) (x : CoreEnv) (s : State) : exec (.divremu k x) s = execDivremu k x s := rfl
theorem exec_and (k : Fin 32) (x : CoreEnv) (s : State) : exec (.and k x) s = execAnd k x s := rfl
theorem exec_or (k : Fin 32) (x : CoreEnv) (s : State) : exec (.or k x) s = execOr k x s := rfl
theorem exec_xor (k : Fin 32) (x : CoreEnv) (s : State) : exec (.xor k x) s = execXor k x s := rfl
theorem exec_andn (k : Fin 32) (x : CoreEnv) (s : State) : exec (.andn k x) s = execAndn k x s := rfl
theorem exec_not (k : Fin 32) (x : CoreEnv) (s : State) : exec (.not k x) s = execNot k x s := rfl
theorem exec_shl (k : Fin 32) (x : CoreEnv) (s : State) : exec (.shl k x) s = execShl k x s := rfl
theorem exec_shr (k : Fin 32) (x : CoreEnv) (s : State) : exec (.shr k x) s = execShr k x s := rfl
theorem exec_sar (k : Fin 32) (x : CoreEnv) (s : State) : exec (.sar k x) s = execSar k x s := rfl
theorem exec_rol (k : Fin 32) (x : CoreEnv) (s : State) : exec (.rol k x) s = execRol k x s := rfl
theorem exec_ror (k : Fin 32) (x : CoreEnv) (s : State) : exec (.ror k x) s = execRor k x s := rfl
theorem exec_clz (k : Fin 32) (x : CoreEnv) (s : State) : exec (.clz k x) s = execClz k x s := rfl
theorem exec_ctz (k : Fin 32) (x : CoreEnv) (s : State) : exec (.ctz k x) s = execCtz k x s := rfl
theorem exec_popc (k : Fin 32) (x : CoreEnv) (s : State) : exec (.popc k x) s = execPopc k x s := rfl
theorem exec_bswap (k : Fin 32) (x : CoreEnv) (s : State) : exec (.bswap k x) s = execBswap k x s := rfl
theorem exec_cmp (k : Fin 32) (x : CoreEnv) (s : State) : exec (.cmp k x) s = execCmp k x s := rfl
theorem exec_select (k : Fin 32) (x : CoreEnv) (s : State) : exec (.select k x) s = execSelect k x s := rfl
theorem exec_extu (k : Fin 32) (x : CoreEnv) (s : State) : exec (.extu k x) s = execExtu k x s := rfl
theorem exec_exts (k : Fin 32) (x : CoreEnv) (s : State) : exec (.exts k x) s = execExts k x s := rfl
theorem exec_ins (k : Fin 32) (x : CoreEnv) (s : State) : exec (.ins k x) s = execIns k x s := rfl
theorem exec_crc1 (k : Fin 32) (x : CoreEnv) (s : State) : exec (.crc1 k x) s = execCrc1 k x s := rfl
theorem exec_crc2 (k : Fin 32) (x : CoreEnv) (s : State) : exec (.crc2 k x) s = execCrc2 k x s := rfl
theorem exec_crc4 (k : Fin 32) (x : CoreEnv) (s : State) : exec (.crc4 k x) s = execCrc4 k x s := rfl
theorem exec_hash (k : Fin 32) (x : CoreEnv) (s : State) : exec (.hash k x) s = execHash k x s := rfl
theorem exec_fold (k : Fin 32) (x : CoreEnv) (s : State) : exec (.fold k x) s = execFold k x s := rfl
theorem exec_ldw (k : Fin 32) (x : CoreEnv) (s : State) : exec (.ldw k x) s = execLdw k x s := rfl
theorem exec_ldh (k : Fin 32) (x : CoreEnv) (s : State) : exec (.ldh k x) s = execLdh k x s := rfl
theorem exec_ldhu (k : Fin 32) (x : CoreEnv) (s : State) : exec (.ldhu k x) s = execLdhu k x s := rfl
theorem exec_ldb (k : Fin 32) (x : CoreEnv) (s : State) : exec (.ldb k x) s = execLdb k x s := rfl
theorem exec_ldbu (k : Fin 32) (x : CoreEnv) (s : State) : exec (.ldbu k x) s = execLdbu k x s := rfl
theorem exec_stw (k : Fin 32) (x : CoreEnv) (s : State) : exec (.stw k x) s = execStw k x s := rfl
theorem exec_sth (k : Fin 32) (x : CoreEnv) (s : State) : exec (.sth k x) s = execSth k x s := rfl
theorem exec_stb (k : Fin 32) (x : CoreEnv) (s : State) : exec (.stb k x) s = execStb k x s := rfl
theorem exec_ldr (k : Fin 32) (x : CoreEnv) (s : State) : exec (.ldr k x) s = execLdr k x s := rfl
theorem exec_str (k : Fin 32) (x : CoreEnv) (s : State) : exec (.str k x) s = execStr k x s := rfl
theorem exec_amoadd (k : Fin 32) (x : CoreEnv) (s : State) : exec (.amoadd k x) s = execAmoadd k x s := rfl
theorem exec_swapm (k : Fin 32) (x : CoreEnv) (s : State) : exec (.swapm k x) s = execSwapm k x s := rfl
theorem exec_cas (k : Fin 32) (x : CoreEnv) (s : State) : exec (.cas k x) s = execCas k x s := rfl
theorem exec_fence (k : Fin 32) (x : CoreEnv) (s : State) : exec (.fence k x) s = execFence k x s := rfl
theorem exec_cmac (k : Fin 32) (x : CoreEnv) (s : State) : exec (.cmac k x) s = execCmac k x s := rfl
theorem exec_cmul (k : Fin 32) (x : CoreEnv) (s : State) : exec (.cmul k x) s = execCmul k x s := rfl
theorem exec_rmac (k : Fin 32) (x : CoreEnv) (s : State) : exec (.rmac k x) s = execRmac k x s := rfl
theorem exec_acclr (k : Fin 32) (x : CoreEnv) (s : State) : exec (.acclr k x) s = execAcclr k x s := rfl
theorem exec_acrd (k : Fin 32) (x : CoreEnv) (s : State) : exec (.acrd k x) s = execAcrd k x s := rfl
theorem exec_acrdc (k : Fin 32) (x : CoreEnv) (s : State) : exec (.acrdc k x) s = execAcrdc k x s := rfl
theorem exec_acget (k : Fin 32) (x : CoreEnv) (s : State) : exec (.acget k x) s = execAcget k x s := rfl
theorem exec_acset (k : Fin 32) (x : CoreEnv) (s : State) : exec (.acset k x) s = execAcset k x s := rfl
theorem exec_bexp (k : Fin 32) (x : CoreEnv) (s : State) : exec (.bexp k x) s = execBexp k x s := rfl
theorem exec_bexclr (k : Fin 32) (x : CoreEnv) (s : State) : exec (.bexclr k x) s = execBexclr k x s := rfl
theorem exec_ldxy (k : Fin 32) (x : CoreEnv) (s : State) : exec (.ldxy k x) s = execLdxy k x s := rfl
theorem exec_stxy (k : Fin 32) (x : CoreEnv) (s : State) : exec (.stxy k x) s = execStxy k x s := rfl
theorem exec_cadd (k : Fin 32) (x : CoreEnv) (s : State) : exec (.cadd k x) s = execCadd k x s := rfl
theorem exec_csub (k : Fin 32) (x : CoreEnv) (s : State) : exec (.csub k x) s = execCsub k x s := rfl
theorem exec_cshr (k : Fin 32) (x : CoreEnv) (s : State) : exec (.cshr k x) s = execCshr k x s := rfl
theorem exec_br (k : Fin 32) (x : CoreEnv) (s : State) : exec (.br k x) s = execBr k x s := rfl
theorem exec_bz (k : Fin 32) (x : CoreEnv) (s : State) : exec (.bz k x) s = execBz k x s := rfl
theorem exec_bnz (k : Fin 32) (x : CoreEnv) (s : State) : exec (.bnz k x) s = execBnz k x s := rfl
theorem exec_branchCompare (k : Fin 32) (x : CoreEnv) (s : State) :
    exec (.branchCompare k x) s = execBranchCompare k x s := rfl
theorem exec_call (k : Fin 32) (x : CoreEnv) (s : State) : exec (.call k x) s = execCall k x s := rfl
theorem exec_bri (k : Fin 32) (x : CoreEnv) (s : State) : exec (.bri k x) s = execBri k x s := rfl
theorem exec_calli (k : Fin 32) (x : CoreEnv) (s : State) : exec (.calli k x) s = execCalli k x s := rfl
theorem exec_ret (k : Fin 32) (x : CoreEnv) (s : State) : exec (.ret k x) s = execRet k x s := rfl
theorem exec_rett (k : Fin 32) (x : CoreEnv) (s : State) : exec (.rett k x) s = execRett k x s := rfl
theorem exec_loop (k : Fin 32) (x : CoreEnv) (s : State) : exec (.loop k x) s = execLoop k x s := rfl
theorem exec_rep (k : Fin 32) (x : CoreEnv) (s : State) : exec (.rep k x) s = execRep k x s := rfl
theorem exec_trap (k : Fin 32) (x : CoreEnv) (s : State) : exec (.trap k x) s = execTrap k x s := rfl
theorem exec_brk (k : Fin 32) (x : CoreEnv) (s : State) : exec (.brk k x) s = execBrk k x s := rfl
theorem exec_wait (k : Fin 32) (x : CoreEnv) (s : State) : exec (.wait k x) s = execWait k x s := rfl
theorem exec_land (k : Fin 32) (x : CoreEnv) (s : State) : exec (.land k x) s = execLand k x s := rfl
theorem exec_done (k : Fin 32) (x : CoreEnv) (s : State) : exec (.done k x) s = execDone k x s := rfl
theorem exec_dbell (k : Fin 32) (x : CoreEnv) (s : State) : exec (.dbell k x) s = execDbell k x s := rfl
theorem exec_synci (k : Fin 32) (x : CoreEnv) (s : State) : exec (.synci k x) s = execSynci k x s := rfl
theorem exec_out (k : Fin 32) (x : CoreEnv) (s : State) : exec (.out k x) s = execOut k x s := rfl
theorem exec_outd (k : Fin 32) (x : CoreEnv) (s : State) : exec (.outd k x) s = execOutd k x s := rfl
theorem exec_stamp (k : Fin 32) (x : CoreEnv) (s : State) : exec (.stamp k x) s = execStamp k x s := rfl
theorem exec_interruptEntry (k : Fin 32) (x : CoreEnv) (s : State) :
    exec (.interruptEntry k x) s = execInterruptEntry k x s := rfl
theorem exec_coreRun (q : Requester) (k : Fin 32) (s : State) : exec (.coreRun q k) s = execCoreRun q k s := rfl
theorem exec_coreStop (q : Requester) (k : Fin 32) (s : State) : exec (.coreStop q k) s = execCoreStop q k s := rfl
theorem exec_coreReset (q : Requester) (k : Fin 32) (run : Bool) (s : State) :
    exec (.coreReset q k run) s = execCoreReset q k run s := rfl
theorem exec_coreResetDone (k : Fin 32) (s : State) : exec (.coreResetDone k) s = execCoreResetDone k s := rfl
theorem exec_doorbellSet (q : Requester) (k : Fin 32) (s : State) :
    exec (.doorbellSet q k) s = execDoorbellSet q k s := rfl
theorem exec_bankMirrorWrite (q : Requester) (k : Fin 32) (b which : Fin 4) (v : Word) (s : State) :
    exec (.bankMirrorWrite q k b which v) s = execBankMirrorWrite q k b which v s := rfl
theorem exec_dispatch (s : State) : exec (.dispatch) s = execDispatch s := rfl
theorem exec_slotFill (k : Fin 32) (n : Fin 2) (e : Ecc) (s : State) :
    exec (.slotFill k n e) s = execSlotFill k n e s := rfl
theorem exec_affExpire (f : Fin 4096) (s : State) : exec (.affExpire f) s = execAffExpire f s := rfl
theorem exec_starved (f : Fin 4096) (s : State) : exec (.starved f) s = execStarved f s := rfl
theorem exec_flowEnable (q : Requester) (f : Fin 4096) (s : State) :
    exec (.flowEnable q f) s = execFlowEnable q f s := rfl
theorem exec_bankHandover (q : Requester) (b : Fin 64) (v : Word) (s : State) :
    exec (.bankHandover q b v) s = execBankHandover q b v s := rfl
theorem exec_bankDmaStart (q : Requester) (b : Fin 64) (out : Bool) (s : State) :
    exec (.bankDmaStart q b out) s = execBankDmaStart q b out s := rfl
theorem exec_bankDmaAbort (q : Requester) (b : Fin 64) (s : State) :
    exec (.bankDmaAbort q b) s = execBankDmaAbort q b s := rfl
theorem exec_bankDmaEnd (b : Fin 64) (e : Ecc) (s : State) : exec (.bankDmaEnd b e) s = execBankDmaEnd b e s := rfl
theorem exec_bankPowerRequest (q : Requester) (b : Fin 64) (v : Word) (s : State) :
    exec (.bankPowerRequest q b v) s = execBankPowerRequest q b v s := rfl
theorem exec_bankPowerDone (b : Fin 64) (s : State) : exec (.bankPowerDone b) s = execBankPowerDone b s := rfl
theorem exec_rowTest (b : Fin 64) (fails : Bool) (spares : BitVec 4) (s : State) :
    exec (.rowTest b fails spares) s = execRowTest b fails spares s := rfl
theorem exec_epochBoundary (upsets : List DetourUpset) (s : State) :
    exec (.epochBoundary upsets) s = execEpochBoundary upsets s := rfl
theorem exec_epochOutEnd (s : State) : exec (.epochOutEnd) s = execEpochOutEnd s := rfl
theorem exec_epochSyncEdge (since : Nat) (s : State) : exec (.epochSyncEdge since) s = execEpochSyncEdge since s := rfl
theorem exec_syncWindowClose (upsets : List DetourUpset) (s : State) :
    exec (.syncWindowClose upsets) s = execSyncWindowClose upsets s := rfl
theorem exec_realignTimeout (upsets : List DetourUpset) (s : State) :
    exec (.realignTimeout upsets) s = execRealignTimeout upsets s := rfl
theorem exec_epochCommit (d : Fin 4) (s : State) : exec (.epochCommit d) s = execEpochCommit d s := rfl
theorem exec_recoveryComplete (d : Fin 4) (lost : List (Fin 48)) (s : State) :
    exec (.recoveryComplete d lost) s = execRecoveryComplete d lost s := rfl
theorem exec_corridorRd (q : Requester) (tag : BitVec 12) (a : Addr) (n : Nat) (e : Ecc) (x : Transit) (s : State) :
    exec (.corridorRd q tag a n e x) s = execCorridorRd q tag a n e x s := rfl
theorem exec_corridorWr (q : Requester) (tag : BitVec 12) (a : Addr) (bs : List Byte) (x : Transit) (s : State) :
    exec (.corridorWr q tag a bs x) s = execCorridorWr q tag a bs x s := rfl
theorem exec_corridorWrp (a : Addr) (bs : List Byte) (x : Transit) (s : State) :
    exec (.corridorWrp a bs x) s = execCorridorWrp a bs x s := rfl
theorem exec_corridorAmoadd (q : Requester) (tag : BitVec 12) (a : Addr) (v : Word) (e : Ecc) (x : Transit) (s : State) :
    exec (.corridorAmoadd q tag a v e x) s = execCorridorAmoadd q tag a v e x s := rfl
theorem exec_corridorSwap (q : Requester) (tag : BitVec 12) (a : Addr) (v : Word) (e : Ecc) (x : Transit) (s : State) :
    exec (.corridorSwap q tag a v e x) s = execCorridorSwap q tag a v e x s := rfl
theorem exec_corridorCas (q : Requester) (tag : BitVec 12) (a : Addr) (want v : Word) (e : Ecc) (x : Transit) (s : State) :
    exec (.corridorCas q tag a want v e x) s = execCorridorCas q tag a want v e x s := rfl
theorem exec_corridorDbell (q k : Fin 32) (x : Transit) (s : State) :
    exec (.corridorDbell q k x) s = execCorridorDbell q k x s := rfl
theorem exec_rspData (q : Requester) (tag : BitVec 12) (x : Transit) (s : State) :
    exec (.rspData q tag x) s = execRspData q tag x s := rfl
theorem exec_rspNodata (q : Requester) (tag : BitVec 12) (x : Transit) (s : State) :
    exec (.rspNodata q tag x) s = execRspNodata q tag x s := rfl
theorem exec_responseTimeout (q : Requester) (tag : BitVec 12) (s : State) :
    exec (.responseTimeout q tag) s = execResponseTimeout q tag s := rfl
theorem exec_apply (q : Requester) (r : Fin 64) (s : State) : exec (.apply q r) s = execApply q r s := rfl
theorem exec_reconfigDone (r : Fin 64) (s : State) : exec (.reconfigDone r) s = execReconfigDone r s := rfl
theorem exec_quiesceTimeout (r : Fin 64) (s : State) : exec (.quiesceTimeout r) s = execQuiesceTimeout r s := rfl
theorem exec_trainEnable (q : Requester) (v : Word) (s : State) : exec (.trainEnable q v) s = execTrainEnable q v s := rfl
theorem exec_signalDetected (s : State) : exec (.signalDetected) s = execSignalDetected s := rfl
theorem exec_linkAligned (rx later : List (List (BitVec 66))) (skew : Nat) (s : State) :
    exec (.linkAligned rx later skew) s = execLinkAligned rx later skew s := rfl
theorem exec_linkUp (s : State) : exec (.linkUp) s = execLinkUp s := rfl
theorem exec_lockLost (s : State) : exec (.lockLost) s = execLockLost s := rfl
theorem exec_rlkRetrain (q : Requester) (s : State) : exec (.rlkRetrain q) s = execRlkRetrain q s := rfl
theorem exec_retrainTimeout (s : State) : exec (.retrainTimeout) s = execRetrainTimeout s := rfl
theorem exec_loopbackSignalLoss (s : State) : exec (.loopbackSignalLoss) s = execLoopbackSignalLoss s := rfl
theorem exec_dataFlit (payload : BitVec 512) (ctl : BitVec 64) (s : State) :
    exec (.dataFlit payload ctl) s = execDataFlit payload ctl s := rfl
theorem exec_nullFlit (payload : BitVec 512) (ctl : BitVec 64) (s : State) :
    exec (.nullFlit payload ctl) s = execNullFlit payload ctl s := rfl
theorem exec_nak (payload : BitVec 512) (ctl : BitVec 64) (s : State) :
    exec (.nak payload ctl) s = execNak payload ctl s := rfl
theorem exec_replayTimeout (s : State) : exec (.replayTimeout) s = execReplayTimeout s := rfl
theorem exec_linkReset (payload : BitVec 512) (ctl : BitVec 64) (s : State) :
    exec (.linkReset payload ctl) s = execLinkReset payload ctl s := rfl
theorem exec_regRd (x : Tran) (s : State) : exec (.regRd x) s = execRegRd x s := rfl
theorem exec_regWr (x : Tran) (s : State) : exec (.regWr x) s = execRegWr x s := rfl
theorem exec_blkRd (x : Tran) (s : State) : exec (.blkRd x) s = execBlkRd x s := rfl
theorem exec_blkWr (x : Tran) (s : State) : exec (.blkWr x) s = execBlkWr x s := rfl
theorem exec_blkWrP (x : Tran) (s : State) : exec (.blkWrP x) s = execBlkWrP x s := rfl
theorem exec_bulkGrant (x : Tran) (s : State) : exec (.bulkGrant x) s = execBulkGrant x s := rfl
theorem exec_sync (x : Tran) (depart : DWord) (s : State) : exec (.sync x depart) s = execSync x depart s := rfl
theorem exec_bulkData (n : Fin 16) (s : State) : exec (.bulkData n) s = execBulkData n s := rfl
theorem exec_bulkStall (n : Fin 16) (s : State) : exec (.bulkStall n) s = execBulkStall n s := rfl
theorem exec_rlkLoopStart (q : Requester) (s : State) : exec (.rlkLoopStart q) s = execRlkLoopStart q s := rfl
theorem exec_bootLink (q : Requester) (s : State) : exec (.bootLink q) s = execBootLink q s := rfl
theorem exec_bootCopyA (q : Requester) (s : State) : exec (.bootCopyA q) s = execBootCopyA q s := rfl
theorem exec_bootCopyB (q : Requester) (s : State) : exec (.bootCopyB q) s = execBootCopyB q s := rfl
theorem exec_keyCommand (q : Requester) (s : State) : exec (.keyCommand q) s = execKeyCommand q s := rfl
theorem exec_debugOpen (q : Requester) (s : State) : exec (.debugOpen q) s = execDebugOpen q s := rfl
theorem exec_debugClose (q : Requester) (s : State) : exec (.debugClose q) s = execDebugClose q s := rfl
theorem exec_debugChallenge (q : Requester) (s : State) : exec (.debugChallenge q) s = execDebugChallenge q s := rfl
theorem exec_quote (q : Requester) (s : State) : exec (.quote q) s = execQuote q s := rfl
theorem exec_cfgRollback (q : Requester) (n : BitVec 7) (s : State) :
    exec (.cfgRollback q n) s = execCfgRollback q n s := rfl
theorem exec_flashBoot (a b : Option FlashCopy) (r : FuseStep) (s : State) :
    exec (.flashBoot a b r) s = execFlashBoot a b r s := rfl
theorem exec_tempSample (ts : List (BitVec 12)) (s : State) : exec (.tempSample ts) s = execTempSample ts s := rfl
theorem exec_vmonSample (vs : List (BitVec 12)) (s : State) : exec (.vmonSample vs) s = execVmonSample vs s := rfl
theorem exec_ledgerPass (ps : List (Option (BitVec 16))) (s : State) :
    exec (.ledgerPass ps) s = execLedgerPass ps s := rfl
theorem exec_avsStep (start : Nat) (fail : Option (BitVec 8)) (s : State) :
    exec (.avsStep start fail) s = execAvsStep start fail s := rfl
theorem exec_avsConfirm (reading : Nat) (fail : Option (BitVec 8)) (s : State) :
    exec (.avsConfirm reading fail) s = execAvsConfirm reading fail s := rfl
theorem exec_rotationStart (s : State) : exec (.rotationStart) s = execRotationStart s := rfl
theorem exec_rotationDrained (s : State) : exec (.rotationDrained) s = execRotationDrained s := rfl
theorem exec_rotateAbandoned (s : State) : exec (.rotateAbandoned) s = execRotateAbandoned s := rfl
theorem exec_bistSlice (fails : Bool) (s : State) : exec (.bistSlice fails) s = execBistSlice fails s := rfl
theorem exec_gapVector (t : Fin 48) (f : Fin 64) (good : Bool) (s : State) :
    exec (.gapVector t f good) s = execGapVector t f good s := rfl
theorem exec_quiet (q : Requester) (s : State) : exec (.quiet q) s = execQuiet q s := rfl
theorem exec_active (q : Requester) (s : State) : exec (.active q) s = execActive q s := rfl
theorem exec_standby (q : Requester) (s : State) : exec (.standby q) s = execStandby q s := rfl
theorem exec_standbyEntered (s : State) : exec (.standbyEntered) s = execStandbyEntered s := rfl
theorem exec_wake (w : WakeSource) (s : State) : exec (.wake w) s = execWake w s := rfl
theorem exec_wakeComplete (s : State) : exec (.wakeComplete) s = execWakeComplete s := rfl
theorem exec_holdStart (s : State) : exec (.holdStart) s = execHoldStart s := rfl
theorem exec_holdEnd (mv us : Nat) (s : State) : exec (.holdEnd mv us) s = execHoldEnd mv us s := rfl
theorem exec_resetP (s : State) : exec (.resetP) s = execResetP s := rfl
theorem exec_resetB (sram : Bool) (kept : Kept) (mv us : Nat) (s : State) :
    exec (.resetB sram kept mv us) s = execResetB sram kept mv us s := rfl
theorem exec_resetE (s : State) : exec (.resetE) s = execResetE s := rfl
theorem exec_watchdogExpiry (s : State) : exec (.watchdogExpiry) s = execWatchdogExpiry s := rfl
theorem exec_wdtKick (q : Requester) (v : Word) (s : State) : exec (.wdtKick q v) s = execWdtKick q v s := rfl
theorem exec_resetRelease (sel : BitVec 2) (vsel : BitVec 4) (s : State) :
    exec (.resetRelease sel vsel) s = execResetRelease sel vsel s := rfl
theorem exec_flogClear (q : Requester) (v : Word) (s : State) : exec (.flogClear q v) s = execFlogClear q v s := rfl
theorem exec_functionSwitch (q : Requester) (n : Fin 96) (v : Word) (s : State) :
    exec (.functionSwitch q n v) s = execFunctionSwitch q n v s := rfl
theorem exec_gpioOutSet (q : Requester) (w : Fin 3) (v : Word) (s : State) :
    exec (.gpioOutSet q w v) s = execGpioOutSet q w v s := rfl
theorem exec_gpioOutClr (q : Requester) (w : Fin 3) (v : Word) (s : State) :
    exec (.gpioOutClr q w v) s = execGpioOutClr q w v s := rfl
theorem exec_gpioPinEvent (n : Fin 96) (l : HeldLevel) (s : State) :
    exec (.gpioPinEvent n l) s = execGpioPinEvent n l s := rfl
theorem exec_ppsEdge (t : DWord) (s : State) : exec (.ppsEdge t) s = execPpsEdge t s := rfl
theorem exec_smbusReadWord (addr : BitVec 7) (write : Bool) (cmd : BitVec 8) (s : State) :
    exec (.smbusReadWord addr write cmd) s = execSmbusReadWord addr write cmd s := rfl
theorem exec_laneLockChange (l : Fin 24) (cdr lock eidle : Bool) (ppm : BitVec 16) (s : State) :
    exec (.laneLockChange l cdr lock eidle ppm) s = execLaneLockChange l cdr lock eidle ppm s := rfl
theorem exec_trigClkEdge (s : State) : exec (.trigClkEdge) s = execTrigClkEdge s := rfl
theorem exec_rlkLoopDone (fails : Nat) (s : State) : exec (.rlkLoopDone fails) s = execRlkLoopDone fails s := rfl
theorem exec_secCommandDone (chal : BitVec 256) (r : FuseStep) (s : State) :
    exec (.secCommandDone chal r) s = execSecCommandDone chal r s := rfl
theorem exec_reservedOpcode (k : Fin 32) (x : CoreEnv) (s : State) :
    exec (.reservedOpcode k x) s = execReservedOpcode k x s := rfl

end Sys2Proof.Machine
end

