-- ==== Sys2Proof/Laws/Frame.lean ====
section
/-! SUPPORT. How the frame of `Safety.changesOnly` goes through each named operation over the state. -/

namespace Sys2Proof.Safety

open Machine

variable {rs : Reg → Nat → Nat → Bool} {ps : List Part} {s u t : State}

theorem changesOnly_refl : changesOnly rs ps s s :=
  ⟨fun _ _ _ _ _ => rfl, fun p _ => by cases p <;> first | exact rfl | exact fun _ => rfl | exact fun _ _ => rfl⟩

/-- Asides change nothing that a frame speaks of. -/
theorem changesOnly_asides (h : changesOnly rs ps s u) (g : Asides u t) (hu : u.epo.detected = []) (ht : t.epo.detected = []) :
    changesOnly rs ps s t := by
  have e := g.rest
  have me : t.mem = u.mem := by rw [e]
  refine ⟨fun r i j hr ha => (g.rd r i j ha).trans (h.1 r i j hr ha), fun p hp => ?_⟩
  have hk := h.2 p hp
  cases p
  case mem =>
    intro a
    have x : t.byte a = u.byte a := by unfold State.byte; rw [me]
    exact x.trans (hk a)
  case reqs => exact g.reqs.trans hk
  case cores =>
    intro k hr
    have hc := hk k hr
    exact (g.core k (by rw [hc]; exact hr)).trans hc
  case epo =>
    have x : t.epo = u.epo := by
      have y : t.epo = { u.epo with detected := t.epo.detected } := by rw [e]
      rw [y, ht, ← hu]
    exact x.trans hk
  all_goals (unfold partKept at hk ⊢; rw [e]; exact hk)

theorem changesOnly_wr (h : changesOnly rs ps s u) {r : Reg} {v : DWord} {i j : Nat}
    (hr : rs r i j = true ∨ ambient r = true) : changesOnly rs ps s (u.wr r v i j) := by
  refine ⟨fun r' i' j' h1 h2 => ?_, fun p hp => ?_⟩
  · rw [State.rd_wr_ne u v _]
    · exact h.1 r' i' j' h1 h2
    · rintro ⟨rfl, rfl, rfl⟩
      rcases hr with hr | hr
      · rw [hr] at h1; cases h1
      · rw [hr] at h2; cases h2
  · have hk := h.2 p hp
    cases p <;> exact hk

theorem changesOnly_ambient (h : changesOnly rs ps s u) {r : Reg} {v : DWord} {i j : Nat} (hr : ambient r = true) :
    changesOnly rs ps s (u.wr r v i j) := changesOnly_wr h (.inr hr)

theorem changesOnly_perf (h : changesOnly rs ps s u) (b : Block) (e n : Nat) : changesOnly rs ps s (u.perf b e n) := by
  have one : ∀ (u : State) (k : Nat), changesOnly rs ps s u →
      changesOnly rs ps s (if u.rdf .PERF_SEL 0 8 (pageOf b) k = e ∧ e ≠ 0 then u.count .PERF_CNT n (pageOf b) k else u) := by
    intro u k h
    split
    · exact changesOnly_wr h (.inr rfl)
    · exact h
  exact one _ 1 (one _ 0 h)

theorem changesOnly_wake (h : changesOnly rs ps s u) (k : Nat) : changesOnly rs ps s (u.wake k) := by
  show changesOnly rs ps s (if (u.core k).run = .inWait then _ else u)
  split
  · rename_i hw
    refine ⟨h.1, fun p hp => ?_⟩
    have hk := h.2 p hp
    cases p
    case cores =>
      intro n hn
      have hc := hk n hn
      rw [State.core_setCore_ne u _ fun e => ?_]
      · exact hc
      · subst e
        rw [hc] at hw
        exact hn hw
    all_goals exact hk
  · exact h

theorem changesOnly_doorbell (h : changesOnly rs ps s u) (b : Block) (i : Nat) : changesOnly rs ps s (u.doorbell b i) := by
  unfold State.doorbell
  split
  · split
    · exact changesOnly_wake h _
    · exact h
  · exact h

/-- A cause sets its bit of `EVT_STATUS` (R62). -/
theorem changesOnly_evt (h : changesOnly rs ps s u) {b : Block} {i : Nat} (hr : rs .EVT_STATUS (pageOf b) 0 = true) :
    changesOnly rs ps s (u.evt b i) := by
  show changesOnly rs ps s (if bit (u.rd .EVT_STATUS (pageOf b)) i then u else _)
  split
  · exact h
  · exact changesOnly_doorbell (changesOnly_perf (changesOnly_wr h (.inl hr)) _ _ _) _ _

theorem changesOnly_logFirst (h : changesOnly rs ps s u) {b : Block} {n : Nat} (hf : ∀ r i j, faultOf b r i = true →
  rs r i j = true) :
    changesOnly rs ps s (u.logFirst b n) := by
  show changesOnly rs ps s (State.countf (if u.rdf .PWR_FLOG_CNT 0 8 < 16 then _ else u) .PWR_FLOG_CNT 0 8 1 0 0)
  refine changesOnly_wr ?_ (.inl (hf _ _ _ rfl))
  split
  · exact changesOnly_wr h (.inl (hf _ _ _ rfl))
  · exact h

/-- A fault of a block is recorded (R46). -/
theorem changesOnly_fault (h : changesOnly rs ps s u) {b : Block} {c d x : Nat} (hf : ∀ r i j, faultOf b r i = true →
  rs r i j = true) :
    changesOnly rs ps s (u.fault b c d x) := by
  have f0 : faultOf b .FAULT_REC0 (pageOf b) = true := by simp [faultOf]
  have f1 : faultOf b .FAULT_REC1 (pageOf b) = true := by simp [faultOf]
  have f2 : faultOf b .FAULT_COUNT (pageOf b) = true := by simp [faultOf]
  show changesOnly rs ps s (State.perf (State.countf (if u.rd .FAULT_COUNT (pageOf b) = 0 then
    _ else u) .FAULT_COUNT 0 16 1 (pageOf b) 0) b 3 1)
  refine changesOnly_perf (changesOnly_wr ?_ (.inl (hf _ _ _ f2))) _ _ _
  split
  · exact changesOnly_logFirst (changesOnly_wr (changesOnly_wr h (.inl (hf _ _ _ f0))) (.inl (hf _ _ _ f1))) hf
  · exact h

theorem changesOnly_foldl {α : Type} (f : State → α → State) (hf : ∀ u a, changesOnly rs ps s u → changesOnly rs ps s (f u a))
    (l : List α) (h : changesOnly rs ps s u) : changesOnly rs ps s (l.foldl f u) := by
  induction l generalizing u with
  | nil => exact h
  | cons a l ih => exact ih (hf u a h)

theorem changesOnly_ite {c : Prop} [Decidable c] (h : changesOnly rs ps s u) (g : changesOnly rs ps s t) :
    changesOnly rs ps s (if c then u else t) := by
  split
  · exact h
  · exact g

/-! A part set. -/

theorem changesOnly_setLane (h : changesOnly rs ps s u) {l : Nat} {v : Lane} (hl : Part.lanes ∈ ps) :
    changesOnly rs ps s (u.setLane l v) := ⟨h.1, fun p hp => by cases p <;> first | exact h.2 _ hp | exact absurd hl hp⟩
theorem changesOnly_setGroup (h : changesOnly rs ps s u) {l : Nat} {v : Group} (hl : Part.groups ∈ ps) :
    changesOnly rs ps s (u.setGroup l v) := ⟨h.1, fun p hp => by cases p <;> first | exact h.2 _ hp | exact absurd hl hp⟩
theorem changesOnly_setPll (h : changesOnly rs ps s u) {l : Nat} {v : Pll} (hl : Part.quads ∈ ps) :
    changesOnly rs ps s (u.setPll l v) := ⟨h.1, fun p hp => by cases p <;> first | exact h.2 _ hp | exact absurd hl hp⟩
theorem changesOnly_setMc (h : changesOnly rs ps s u) {l : Nat} {v : Mc} (hl : Part.mcs ∈ ps) :
    changesOnly rs ps s (u.setMc l v) := ⟨h.1, fun p hp => by cases p <;> first | exact h.2 _ hp | exact absurd hl hp⟩
theorem changesOnly_setQueue (h : changesOnly rs ps s u) {l : Nat} {v : Queue} (hl : Part.queues ∈ ps) :
    changesOnly rs ps s (u.setQueue l v) := ⟨h.1, fun p hp => by cases p <;> first | exact h.2 _ hp | exact absurd hl hp⟩
theorem changesOnly_setPort (h : changesOnly rs ps s u) {l : Nat} {v : CapPort} (hl : Part.ports ∈ ps) :
    changesOnly rs ps s (u.setPort l v) := ⟨h.1, fun p hp => by cases p <;> first | exact h.2 _ hp | exact absurd hl hp⟩
theorem changesOnly_setLanding (h : changesOnly rs ps s u) {k n : Nat} {v : Landing} (hl : Part.slots ∈ ps) :
    changesOnly rs ps s (u.setLanding k n v) := ⟨h.1, fun p hp => by cases p <;> first | exact h.2 _ hp | exact absurd hl hp⟩
theorem changesOnly_setTile (h : changesOnly rs ps s u) {l : Nat} {v : Tile} (hl : Part.tiles ∈ ps) :
    changesOnly rs ps s (u.setTile l v) := ⟨h.1, fun p hp => by cases p <;> first | exact h.2 _ hp | exact absurd hl hp⟩
theorem changesOnly_setCore (h : changesOnly rs ps s u) {l : Nat} {v : Core} (hl : Part.cores ∈ ps) :
    changesOnly rs ps s (u.setCore l v) := ⟨h.1, fun p hp => by cases p <;> first | exact h.2 _ hp | exact absurd hl hp⟩

theorem changesOnly_dropCapture (h : changesOnly rs ps s u) {k : RegKey} (hl : Part.captured ∈ ps) :
    changesOnly rs ps s (dropCapture u k) := ⟨h.1, fun p hp => by cases p <;> first | exact h.2 _ hp | exact absurd hl hp⟩

/-- A command that ends in `done`. -/
theorem changesOnly_settle (h : changesOnly rs ps s u) (hc : u.epo.detected = []) : changesOnly rs ps s (settle u) :=
  changesOnly_asides h (settle_spec u).asides hc rfl

end Sys2Proof.Safety
end

