-- ==== Sys2Proof/Laws/Lanes.lean ====
section
/-! SUPPORT. What lanes, quads and bonding groups leave when they restart or follow a setting. -/

namespace Sys2Proof.Machine

/-- What a fold leaves that each of its steps leaves. -/
theorem foldl_keep {α β : Type} (P : State → β) (f : State → α → State) (hf : ∀ s a, P (f s a) = P s) (l : List α) (s : State) :
    P (l.foldl f s) = P s := by
  induction l generalizing s with
  | nil => rfl
  | cons a l ih => exact (ih _).trans (hf s a)

/-- A part of the state that no event and no fault changes. -/
structure Steady {β : Type} (P : State → β) : Prop where
  evt : ∀ s b i, P (State.evt s b i) = P s
  fault : ∀ s b c d x, P (State.fault s b c d x) = P s

/-- Registers beside event bits, fault records and performance counters. -/
def Reg.steady (r : Reg) : Bool :=
  match r with
  | .EVT_STATUS | .FAULT_REC0 | .FAULT_REC1 | .FAULT_COUNT | .PWR_FLOG | .PWR_FLOG_CNT | .PERF_CNT => false
  | _ => true

theorem Reg.ne_of_steady {r x : Reg} (h : r.steady = true) (hx : x.steady = false) : r ≠ x := by
  rintro rfl
  rw [h] at hx
  cases hx

theorem steady_rd (r : Reg) (i j : Nat) (h : r.steady = true) : Steady (fun s => s.rd r i j) where
  evt s b n := State.evt_rd_reg s b n r i j (Reg.ne_of_steady h rfl) (Reg.ne_of_steady h rfl)
  fault s b c d x := State.fault_rd s b c d x r i j ⟨Reg.ne_of_steady h rfl, Reg.ne_of_steady h rfl, Reg.ne_of_steady h rfl,
    Reg.ne_of_steady h rfl, Reg.ne_of_steady h rfl, Reg.ne_of_steady h rfl⟩
theorem steady_epo : Steady State.epo := ⟨State.evt_epo, State.fault_epo⟩
theorem steady_quads : Steady State.quads := ⟨State.evt_quads, State.fault_quads⟩
theorem steady_lanes : Steady State.lanes := ⟨State.evt_lanes, State.fault_lanes⟩

theorem evtAll_keep {β : Type} {P : State → β} (hP : Steady P) (s : State) (l : List (Fin 24)) (i : Nat) :
    P (evtAll s l i) = P s := foldl_keep P _ (fun s _ => hP.evt s _ _) l s
theorem faultAll_keep {β : Type} {P : State → β} (hP : Steady P) (s : State) (l : List (Fin 24)) (c d : Nat) :
    P (faultAll s l c d) = P s := foldl_keep P _ (fun s _ => hP.fault s _ _ _ _) l s

/-- A group's change of state leaves what neither events nor the groups hold. -/
theorem groupTo_keep {β : Type} {P : State → β} (hP : Steady P) (hg : ∀ s g v, P (State.setGroup s g v) = P s)
    (s : State) (g : Nat) (b : BondState) : P (groupTo s g b) = P s := by
  unfold groupTo
  simp only []
  split
  · exact hg _ _ _
  · rw [evtAll_keep hP]; exact hg _ _ _

theorem regroup_keep {β : Type} {P : State → β} (hP : Steady P) (hg : ∀ s g v, P (State.setGroup s g v) = P s)
    (s : State) (g : Nat) : P (regroup s g) = P s := by
  unfold regroup
  simp only []
  repeat' split
  all_goals first
    | rfl
    | exact groupTo_keep hP hg _ _ _
    | exact (faultAll_keep hP _ _ _ _).trans (groupTo_keep hP hg _ _ _)

theorem regroupAll_keep {β : Type} {P : State → β} (hP : Steady P) (hg : ∀ s g v, P (State.setGroup s g v) = P s)
    (s : State) : P (regroupAll s) = P s := foldl_keep P _ (fun s g => regroup_keep hP hg s g) _ _

/-! The quad PLL. -/

theorem pllTo_keep {β : Type} {P : State → β} (hP : Steady P) (hq : ∀ s g v, P (State.setPll s g v) = P s) (s : State)
    (n : Fin 6) (p : Pll) : P (pllTo s n p) = P s := by
  unfold pllTo
  simp only []
  split
  · exact hq _ _ _
  · rw [hP.evt]; exact hq _ _ _

theorem pllTo_pll (s : State) (n : Fin 6) (p : Pll) (m : Nat) : (pllTo s n p).pll m = if m = n.val then p else s.pll m := by
  have e : (pllTo s n p).pll m = (s.setPll n p).pll m := by
    unfold pllTo
    simp only []
    split
    · rfl
    · unfold State.pll; rw [State.evt_quads]
  rw [e]
  unfold State.pll State.setPll
  by_cases h : m = n.val
  · subst h; simp
  · rw [if_neg h]; exact tget_tset_ne _ _ _ _ _ (Ne.symm h)

theorem settle_pll (s : State) (m : Nat) : (settle s).pll m = s.pll m := by unfold State.pll; rw [settle_quads]

/-! Records that a group discards. -/

/-- `discardOpen` changes capture ports, queues, `GQ_LOST` and `GQ_STATUS`. -/
theorem discardOpen_keep {β : Type} (P : State → β) (hp : ∀ s n v, P (State.setPort s n v) = P s)
    (hq : ∀ s n v, P (State.setQueue s n v) = P s) (h1 : ∀ s v i, P (State.wr s .GQ_LOST v i 0) = P s)
    (h2 : ∀ s v i, P (State.wr s .GQ_STATUS v i 0) = P s) (s : State) (p : Nat) : P (discardOpen s p) = P s := by
  unfold discardOpen gqLose
  split
  · rfl
  · simp only []
    split
    · rw [hq]
      simp only [Nat.one_ne_zero, if_false]
      unfold State.orIn State.count
      rw [h2, h1, hp]
    · exact hp _ _ _

theorem groupsLeft_keep {β : Type} (P : State → β) (hf : ∀ s p, P (discardOpen s p) = P s) (a s : State) :
    P (groupsLeft a s) = P s := by
  unfold groupsLeft
  refine foldl_keep P _ (fun s g => ?_) _ _
  split
  · exact hf _ _
  · rfl

theorem groupsLeft_rd (a s : State) (r : Reg) (i j : Nat) (h : r ≠ .GQ_LOST) (h' : r ≠ .GQ_STATUS) :
    (groupsLeft a s).rd r i j = s.rd r i j :=
  groupsLeft_keep (fun s => s.rd r i j) (discardOpen_keep (fun s => s.rd r i j) (fun _ _ _ => rfl) (fun _ _ _ => rfl)
    (fun s v n => State.rd_wr_reg s v n 0 i j h.symm) (fun s v n => State.rd_wr_reg s v n 0 i j h'.symm)) a s
theorem groupsLeft_epo (a s : State) : (groupsLeft a s).epo = s.epo :=
  groupsLeft_keep State.epo (discardOpen_keep State.epo (fun _ _ _ => rfl) (fun _ _ _ => rfl) (fun _ _ _ => rfl) (fun _ _ _
    => rfl)) a s
theorem groupsLeft_quads (a s : State) : (groupsLeft a s).quads = s.quads :=
  groupsLeft_keep State.quads (discardOpen_keep State.quads (fun _ _ _ => rfl) (fun _ _ _ => rfl) (fun _ _ _ => rfl) (fun _
    _ _ => rfl)) a s
theorem groupsLeft_lanes (a s : State) : (groupsLeft a s).lanes = s.lanes :=
  groupsLeft_keep State.lanes (discardOpen_keep State.lanes (fun _ _ _ => rfl) (fun _ _ _ => rfl) (fun _ _ _ => rfl) (fun _
    _ _ => rfl)) a s

/-- A write that changes no group's state discards no record. -/
theorem groupsLeft_same (a s : State) (h : s.groups = a.groups) : groupsLeft a s = s := by
  unfold groupsLeft
  have e : ∀ g, s.group g = a.group g := fun g => by unfold State.group; rw [h]
  have k : ∀ l : List Nat, l.foldl (fun s g =>
      if (a.group g).state = .aligned ∧ (s.group g).state ≠ .aligned then discardOpen s (24 + g) else s) s = s := by
    intro l
    induction l with
    | nil => rfl
    | cons g l ih =>
      rw [List.foldl_cons, if_neg, ih]
      rw [e g]
      exact fun x => x.2 x.1
  exact k _

end Sys2Proof.Machine
end

