-- ==== Sys2Proof/Laws/Memory.lean ====
section
/-! SUPPORT. Laws of memory: what reads give after writes, and that every operation that writes it keeps its canonical form. -/

namespace Sys2Proof.Machine

variable (s : State)

/-! Reading what was written. -/

/-- Bytes outside the written ones are as before. -/
theorem State.byte_putBytes_out (l : List Byte) (a z : Nat) (h : z < a ∨ a + l.length ≤ z) :
    (s.putBytes a l).byte z = s.byte z := by
  induction l generalizing s a with
  | nil => rfl
  | cons b r ih =>
    simp only [List.length_cons] at h
    rw [State.putBytes, ih _ _ (by omega)]
    exact tget_tset_ne id 0 b 0 s.mem (by omega)

/-- The bytes written are the bytes read. -/
theorem State.bytes_putBytes (l : List Byte) (a : Nat) : (s.putBytes a l).bytes a l.length = l := by
  induction l generalizing s a with
  | nil => rfl
  | cons b r ih =>
    rw [List.length_cons, State.bytes, State.putBytes, ih, State.byte_putBytes_out _ _ _ _ (by omega), State.byte_putByte_same]

/-- A byte read inside the written ones is the one written there. -/
theorem State.byte_putBytes_in (l : List Byte) (a i : Nat) (h : i < l.length) : (s.putBytes a l).byte (a + i) = l[i] := by
  induction l generalizing s a i with
  | nil => simp at h
  | cons b r ih =>
    cases i with
    | zero =>
      rw [State.putBytes, State.byte_putBytes_out _ _ _ _ (by omega)]; simp
    | succ i =>
      rw [State.putBytes, show a + (i + 1) = a + 1 + i by omega, ih _ _ _ (by simpa using h)]; rfl

/-- A filter on addresses takes the bytes it removes to the unlisted value and leaves every other byte. -/
theorem tget_filter_key (d : Byte) (p : Nat → Bool) (m : List Host.Cell) (a : Nat) :
    tget d (m.filter fun e => p e.1) a = if p a = true then tget d m a else d := by
  induction m with
  | nil => simp [tget]
  | cons e r ih =>
    obtain ⟨x, v⟩ := e
    by_cases hx : p x = true
    · simp only [List.filter, hx, tget]
      by_cases hxa : x = a
      · subst hxa; simp [hx]
      · simp [hxa, ih]
    · by_cases hxa : x = a
      · subst hxa; simp [List.filter, hx, ih]
      · simp [List.filter, hx, tget, hxa, ih]

/-- The bytes of a bank read 0 after its contents are gone, and every other byte is as before. -/
theorem byte_bankClear (b a : Nat) : (bankClear s b).byte a =
    if bankBase + b * 2 ^ 18 ≤ a ∧ a < bankBase + b * 2 ^ 18 + 2 ^ 18 then 0 else s.byte a := by
  unfold bankClear State.byte
  rw [tget_filter_key 0 fun x => !(decide (bankBase + b * 2 ^ 18 ≤ x) && decide (x < bankBase + b * 2 ^ 18 + 2 ^ 18))]
  by_cases h : bankBase + b * 2 ^ 18 ≤ a ∧ a < bankBase + b * 2 ^ 18 + 2 ^ 18
  · rw [if_pos h, if_neg]
    rw [← Bool.decide_and, decide_eq_true h]; decide
  · rw [if_neg h, if_pos]
    rw [← Bool.decide_and, decide_eq_false h]; rfl

/-- A region filled with zeros reads 0, and every other byte is as before. -/
theorem byte_zeroRegion (a n z : Nat) : (zeroRegion s a n).byte z = if a ≤ z ∧ z < a + n then 0 else s.byte z := by
  unfold zeroRegion State.byte
  rw [tget_filter_key 0 fun x => decide (x < a) || decide (a + n ≤ x)]
  split <;> split <;> simp_all <;> omega

/-- A core's local memories read 0 once cleared, and every other byte is as before. -/
theorem byte_coreMemClear (k a : Nat) : (coreMemClear s k).byte a =
    if coreMem k 0 ≤ a ∧ a < coreMem k 0 + 2 ^ 20 then 0 else s.byte a := by
  unfold coreMemClear State.byte
  rw [tget_filter_key 0 fun x => !(decide (coreMem k 0 ≤ x) && decide (x < coreMem k 0 + 2 ^ 20))]
  by_cases h : coreMem k 0 ≤ a ∧ a < coreMem k 0 + 2 ^ 20
  · rw [if_pos h, if_neg]
    rw [← Bool.decide_and, decide_eq_true h]; decide
  · rw [if_neg h, if_pos]
    rw [← Bool.decide_and, decide_eq_false h]; rfl

/-! The canonical form. -/

theorem State.reset_memory_wf : Memory.wf State.reset.mem = true := rfl

/-- A byte written keeps the canonical form. -/
theorem State.putByte_wf (a : Nat) (b : Byte) (h : Memory.wf s.mem = true) : Memory.wf (s.putByte a b).mem = true :=
  twf_tset id 0 (fun _ _ h => h) s.mem a b h

/-- Bytes written keep the canonical form. -/
theorem State.putBytes_wf (l : List Byte) (a : Nat) (h : Memory.wf s.mem = true) : Memory.wf (s.putBytes a l).mem = true := by
  induction l generalizing s a with
  | nil => exact h
  | cons b r ih => exact ih _ _ (s.putByte_wf a b h)

/-- A number written keeps the canonical form. -/
theorem State.putLe_wf (a n x : Nat) (h : Memory.wf s.mem = true) : Memory.wf (s.putLe a n x).mem = true :=
  s.putBytes_wf _ a h

/-- A bank's contents gone: the canonical form stays. -/
theorem bankClear_wf (b : Nat) (h : Memory.wf s.mem = true) : Memory.wf (bankClear s b).mem = true := twf_filter _ _ _ _ h

/-- A region zeroed: the canonical form stays. -/
theorem zeroRegion_wf (a n : Nat) (h : Memory.wf s.mem = true) : Memory.wf (zeroRegion s a n).mem = true := twf_filter _ _ _ _ h

/-- A core's memories cleared: the canonical form stays. -/
theorem coreMemClear_wf (k : Nat) (h : Memory.wf s.mem = true) : Memory.wf (coreMemClear s k).mem = true := twf_filter _ _ _ _ h

/-- A channel's contents lost: the canonical form stays. -/
theorem ddrLose_wf (c : Nat) (h : Memory.wf s.mem = true) : Memory.wf (ddrLose s c).mem = true := twf_filter _ _ _ _ h

end Sys2Proof.Machine
end

