-- ==== Sys2Proof/Tests/Slice0.lean ====
section
/-! SUPPORT. Tests: ill-formed terms that WellFormed refuses, results that the spec's text gives, and for every clause of every
statement of Certificates/Slice0/Obligations.lean a state and operands that meet its hypotheses together
(witness_<statement>_<clause>, in the clauses' order). -/

namespace Sys2Proof.Tests
set_option maxRecDepth 10000
set_option Elab.async false
open Machine

/-! An ill-formed command for each check of WellFormed.lean. -/

theorem test_packet_size_refused : WellFormed.command (.corridorRd .host 0 0 3 .ok {}) = false := by decide
theorem test_tran_size_refused :
    WellFormed.command (.bulkGrant ⟨0, 0, 0, 0, 0, 0, List.replicate 4097 0, []⟩) = false := by
  show decide ((List.replicate 4097 (0 : Byte)).length ≤ 4096) = false
  rw [List.length_replicate]; rfl
theorem test_eq_elements_refused : WellFormed.command (.adaptDone 0 0 [1, 2]) = false := by decide
theorem test_sensors_refused : WellFormed.command (.tempSample []) = false := by decide
theorem test_monitors_refused : WellFormed.command (.vmonSample []) = false := by decide
theorem test_sentinels_refused : WellFormed.command (.ledgerPass []) = false := by decide
theorem test_skew_refused : WellFormed.command (.bondSkew 0 64) = false := by decide

/-! Predicates of Safety as computations. -/

/-- The commands of packets. -/
def packetCmds : List PacketCmd := [.rd, .wr, .wrp, .amoadd, .swap, .cas, .rspData, .rspNodata, .dbell]

/-- `Safety.comesTo` as a computation. -/
def comesB (s : State) (q : Requester) (a n : Nat) (d : Endpoint) : Bool :=
  packetCmds.all (fun c => decide (carry s q (requestOf q c a n) = (s, .target d false))) &&
  [true, false].all fun r => decide (compareBack s q d.router (responseTo r a 16 .ok) {} = s)

theorem comesTo_of {s : State} {q : Requester} {a n : Nat} {d : Endpoint} (h : comesB s q a n d = true) :
    Safety.comesTo s q a n d := by
  simp only [comesB, Bool.and_eq_true, List.all_eq_true, decide_eq_true_eq] at h
  intro c
  have h1 := h.1 c (by cases c <;> simp [packetCmds])
  refine ⟨h1, ?_⟩
  have h2 := h.2 c.reads (by cases c.reads <;> simp)
  simp only [approach, h1]
  exact congrArg (fun x => (x, Reach.target d false)) h2

/-- An access reaches some target. -/
def goesB (s : State) (q : Requester) (a n : Nat) : Bool :=
  match destOf s (endpointOf q).router a with
  | some d => comesB s q a n d
  | none => false

theorem goes_of {s : State} {q : Requester} {a n : Nat} (h : goesB s q a n = true) : ∃ d, Safety.comesTo s q a n d := by
  unfold goesB at h
  split at h
  · exact ⟨_, comesTo_of h⟩
  · cases h

theorem reply_ok {s : State} {q : Requester} {r : Nat} {port : Option Nat} (h : backRefused s q r port = none) (p : Packet) :
    reply s q r port p .ok = (s, .ok) := by
  simp [reply, comesBack, dropHop, checkUnits, poisoned, h]

/-- `Safety.answers` as a computation. -/
def answersB (s : State) (q : Requester) (a n : Nat) : Bool :=
  match carry s q (requestOf q .rd a n) with
  | (_, .target d _) => backRefused s q d.router (some d.port) == none
  | _ => true

theorem answers_of {s : State} {q : Requester} {a n : Nat} (h : answersB s q a n = true) : Safety.answers s q a n := by
  intro d hd p
  simp only [answersB, (hd .rd).1, beq_iff_eq] at h
  rw [reply_ok h]

theorem serves_of {s : State} {q : Requester} {b : Block} {r : Reg} {i j : Nat}
    (h : (portOpen s q && (match slotAt (regAddr r i j - regBase) with
      | some x => x.block == b && x.key == some ⟨r, i, j⟩ && !x.hi
      | none => false) && inRegs (regAddr r i j) && regAddr r i j % 4 == 0 && !spans s q (regAddr r i j) 4 &&
      goesB s q (regAddr r i j) 4 && admitted s q r && !tget false s.resetting (pageOf b)) = true) : Safety.serves s q b r i j := by
  simp only [Bool.and_eq_true, Bool.not_eq_true', beq_iff_eq] at h
  obtain ⟨⟨⟨⟨⟨⟨⟨h1, h2⟩, h3⟩, h4⟩, h5⟩, h6⟩, h7⟩, h8⟩ := h
  refine ⟨h1, ?_, h3, h4, h5, goes_of h6, h7, h8⟩
  split at h2
  · rename_i x hx
    obtain ⟨b', pl, k, hi⟩ := x
    simp at h2
    obtain ⟨⟨rfl, rfl⟩, rfl⟩ := h2
    exact ⟨pl, hx⟩
  · cases h2

theorem servesWide_of {s : State} {q : Requester} {b : Block} {r : Reg} {i j : Nat} (h : Safety.serves s q b r i j)
    (h' : ((match slotAt (regAddr r i j + 4 - regBase) with
      | some x => x.block == b && x.key == some ⟨r, i, j⟩ && x.hi
      | none => false) && inRegs (regAddr r i j + 4) && (regAddr r i j + 4) % 4 == 0 &&
      !spans s q (regAddr r i j + 4) 4 && goesB s q (regAddr r i j + 4) 4) = true) :
    Safety.servesWide s q b r i j := by
  simp only [Bool.and_eq_true, Bool.not_eq_true', beq_iff_eq] at h'
  obtain ⟨⟨⟨⟨h2, h3⟩, h4⟩, h5⟩, h6⟩ := h'
  refine ⟨h, ?_, h3, h4, h5, goes_of h6⟩
  split at h2
  · rename_i x hx
    obtain ⟨b', pl, k, hi⟩ := x
    simp at h2
    obtain ⟨⟨rfl, rfl⟩, rfl⟩ := h2
    exact ⟨pl, hx⟩
  · cases h2

theorem reaches_of {s : State} {q : Requester} {a n : Nat} {write : Bool}
    (h : (portOpen s q && packetForm a n && !spans s q a n && !inRegs a && decide (memStatus s q a n write = .ok) &&
      (match destOf s (endpointOf q).router a with
        | some d => comesB s q a n d && backRefused s q d.router (some d.port) == none
        | none => false)) = true) : Safety.reaches s q a n write := by
  simp only [Bool.and_eq_true, Bool.not_eq_true', decide_eq_true_eq] at h
  obtain ⟨⟨⟨⟨⟨h1, h2⟩, h3⟩, h4⟩, h5⟩, h6⟩ := h
  refine ⟨h1, h2, h3, h4, h5, ?_⟩
  split at h6
  · simp only [Bool.and_eq_true, beq_iff_eq] at h6
    exact ⟨_, comesTo_of h6.1, reply_ok h6.2⟩
  · cases h6

theorem levelsFollow_of {s : State} (h : s.levels = sourceLevels s ∧ s.rearm = 0) : Safety.levelsFollow s := h

/-- `Safety.issues` as a computation. -/
def issuesB (s : State) (k : Fin 32) (x : CoreEnv) (op : Nat) (i : Insn) : Bool :=
  let c := s.core k
  let n := needOf i
  coreWorks s k && !c.stopping && decide (c.mirrors = []) && decide (c.run ≠ .inWait) && !c.rep && decide (x.fetch = .ok) && decide (decodeAt s k .normal c.pc = .ok i) &&
  decide (i.op = op) && decide (n.pop ≤ c.cur.ds.length) && decide (n.rpop ≤ c.cur.rs.length) &&
  decide (c.cur.ds.length - n.pop + n.push ≤ (if c.bank = bankT then 8 else 16)) &&
  decide (c.cur.rs.length - n.rpop + n.rpush ≤ 8)

theorem issues_of {s : State} {k : Fin 32} {x : CoreEnv} {op : Nat} {i : Insn} (h : issuesB s k x op i = true) :
    Safety.issues s k x op i := by
  simp only [issuesB, Bool.and_eq_true, Bool.not_eq_true', decide_eq_true_eq] at h
  obtain ⟨⟨⟨⟨⟨⟨⟨⟨⟨⟨⟨h1, h0⟩, hm⟩, h2⟩, h3⟩, h4⟩, h5⟩, h6⟩, h7⟩, h8⟩, h9⟩, h10⟩ := h
  exact ⟨h1, h0, hm, h2, h3, h4, h5, h6, h7, h8, h9, h10⟩

/-! States of one step. -/

/-- The block right after the release of reset P. -/
def s0 : State := { State.reset with power := { State.reset.power with inReset := false } }
/-- A fault record of 32 bits. -/
def aFault : FaultRec := ⟨0x100, 7, 9⟩
/-- HOLD active (R590). -/
def sHold : State := s0.wrf .PWR_STATUS 4 1 1

/-- Lane 23 runs in NRZ at the full symbol rate. -/
def sLane : State := ((({ s0 with quads := [(5, .locked)] } : State).wr .BLK_CTRL 1 0x217).wr .LANE_CFG 1 23).wr .LANE_PCS 0x11 23
/-- Its receiver and transmitter work in an RS mode. -/
def sRs : State := sLane.wr .LANE_PCS 0x55 23
/-- A lane word with two lost before it. -/
def aWord : LaneWord := ⟨5, 7, 2, true, false⟩
/-- A word decoded from a codeword. -/
def rsWord : RxWord := { data := 5, sbB := 6, stamp := 7, eidle := false }
/-- Quad 5 with its lanes at rate 0. -/
def sQuad : State := ({ s0 with quads := [(5, .locking)] } : State).wr .BLK_CTRL 1 (pageOf (.quad 5))
/-- Lanes 0 and 1 make group 3. -/
def sBond (b : BondState) : State :=
  ((((({ s0 with groups := [(3, { state := b })], lanes := [(0, { lock := true }), (1, { lock := true })] } : State).wr
    .LANE_BOND 7 0).wr .LANE_BOND 7 1).wr .LANE_PCS 2 0).wr .LANE_PCS 2 1).setPort 27 { cur := some ⟨1, 2, 3, 4, 0, 0, [], false, false⟩ }

/-- The Heath in a state of its configuration engine. -/
def sHth (n : Nat) : State := s0.wr .HTH_STATE (BitVec.ofNat 64 n)
/-- An all-zero frame record with its CRC-32. -/
def frame0 : List Byte := List.replicate 132 0 ++ [0x1E, 0x85, 0x89, 0xC5]
/-- A load whose image lies in bank 0, its first frame record there. -/
def sLoad : State := { sHth 1 with
  heath := { addr := bankBase, len := 4000000, body := [[], []], total := 33216 },
  mem := [(bankBase + 452, 0x1E), (bankBase + 453, 0x85), (bankBase + 454, 0x89), (bankBase + 455, 0xC5)] }
/-- The record of the last memory frame with its CRC-32. -/
def frame1 : List Byte := [0xBF, 0x81, 0, 0, 5] ++ List.replicate 127 0 ++ [0xD9, 0x8C, 0x3E, 0x78]
/-- A load whose next record is that one, the last but one of its image. -/
def sLoad2 : State :=
  ({ sLoad with
    heath := { addr := bankBase, len := 5000000, body := [[], []], total := 30000, last := 33214 }
    mem := (frame1.zipIdx.map fun x => (bankBase + 4080048 + x.2, x.1)).filter fun c => c.2 != 0 } : State).wr
    .HTH_LOAD_PROG 29998
/-- The Heath runs, its outputs released, with a design that owns the capture and exit ports. -/
def sRun : State := { ((sHth 5).wr .HTH_RELEASE 7).wr .HTH_CLK_CTRL 0x91 0 0 with heath := { alive := 1, edging := 1 } }
/-- The Heath runs and scrubs, its first frame wrong, the golden copy right. -/
def sScrub : State := { (((sLoad.wr .HTH_STATE 5).wr .HTH_LOAD_CTRL 4).wr .HTH_GOLD_ADDR (BitVec.ofNat 64 bankBase)).wr .HTH_RELEASE 7 with heath := { frames := [(0, List.replicate 136 1)] } }
/-- A held lane word. -/
def aHeld : HeldWord := ⟨5, 0x11000000, 6, 7⟩
/-- A decision for it. -/
def aDec : Decision := ⟨false, true, 3, false, 0, 4, 2, 0x11, 9⟩

/-- The Stair armed in step 2, which goes to step 5 whatever the sources are. -/
def sArmed : State := ((s0.wr .STR_STATUS 0x201).wr .STR_STEP_LUT 0xFFFF 0 2).wr .STR_STEP_NEXT 5 0 2
/-- Event-stamp input 7 enabled for both edges, with its event. -/
def sStamp (n : Nat) : State :=
  { (s0.wr .STR_ES_CTRL 0xFD 0 7).wr .GPIO_CFG 0x72 0 95 with stair := { fifo := List.replicate n ⟨1, 2, true, 3, 0⟩ } }

/-- One memory channel, READY, with 8 GiB. -/
def sDdr : State := ((s0.wr .MC_CFG 0x100 0).wr .MC_STATUS 0xB 0).wr .MC_DIMM0 1 0
/-- The second copies of the positions of queue 1023 agree with the first. -/
def twinned (s : State) : State :=
  s.setQueue 1023 { s.queue 1023 with twin := (List.range 4).foldl (fun m i => tset id 0 m i (s.rd (posReg i) 1023)) [] }
/-- Queue 1023 in DDR4, 64 KiB at 1 MiB, bound, with its positions. -/
def sQ (kind prod cons wr rd fr : Nat) : State :=
  twinned <| (((((sDdr.wr .GQ_CTRL (BitVec.ofNat 64 (1 + 2 * kind)) 1023).wr .GQ_BIND (BitVec.ofNat 64 (prod + 65536 * cons)) 1023).wr
    .GQ_BASE 16 1023).wr .GQ_GEOM 16 1023).wr .GQ_WRITE (BitVec.ofNat 64 wr) 1023).wr .GQ_READ (BitVec.ofNat 64 rd) 1023
    |>.wr .GQ_FREE (BitVec.ofNat 64 fr) 1023
/-- The token queue 1023 in banks 62 and 63, filling its first half. -/
def sPing : State := twinned { (((((s0.wr .GQ_CTRL 0x13 1023).wr .GQ_BIND 0 1023).wr .GQ_GEOM 0x3E00 1023).wr .SPB_OWNER 3 62).wr
    .SPB_OWNER 3 63).wr .GQ_WRITE 64 1023 with queues := [(1023, { entries := 4 })] }
/-- A record of 5 bytes. -/
def aRec : Rec := ⟨9, 2, 0, 3, 4, 5, [1, 2, 3, 4, 5], false, false⟩
/-- Queue 1023 takes the records of lane 23; one waits. -/
def sCap (fr : Nat) : State :=
  twinned <| { sQ 0 1 0 0 0 fr with ports := [(23, { closed := [aRec] })], queues := [(1023, { gate0 := true })] }.wr .GQ_BIND 0x171 1023

/-- Channel 7 populated as channel 0 is: one dual-rank module of 16 GiB each. -/
def sDimm : State := (s0.wr .MC_DIMM0 0x41 0).wr .MC_DIMM0 0x41 7
/-- Channel 7 enabled, in a state. -/
def sMc (n : Nat) : State := (sDimm.wr .BLK_CTRL 1 (pageOf (.mc 7))).wr .MC_STATUS (BitVec.ofNat 64 n) 7

/-- Tile 47 runs. -/
def sTile (v : Tile) : State := ({ s0 with tiles := [(47, v)] } : State).wr .BLK_CTRL 1 (pageOf (.tile 47))
/-- A context word: opcode, the ports that are operands, the kind of output 0. -/
def cw (op a b c kind : Nat) : BitVec 128 :=
  BitVec.ofNat 128 (op * 2 ^ 120 + a * 2 ^ 114 + b * 2 ^ 112 + c * 2 ^ 110 + kind * 2 ^ 81)
/-- The context word of FU 63, context 15 of tile 47. -/
def withWord (s : State) (w : BitVec 128) : State :=
  (((s.wr .CTX_WORD (w.setWidth 32 |>.setWidth 64) 47 4092).wr .CTX_WORD ((w >>> 32).setWidth 32 |>.setWidth 64) 47 4093).wr
    .CTX_WORD ((w >>> 64).setWidth 32 |>.setWidth 64) 47 4094).wr .CTX_WORD ((w >>> 96).setWidth 32 |>.setWidth 64) 47 4095
    |>.wr .TILE_REMAP_ACT 0xFEDCBA9876543210 47
/-- A token for context 15, credit group 63. -/
def aTok : Token := { data := 0x7FFFFFFF, tag := 0x3F0005, ctx := 15 }
/-- It waits at source 140 of tile 47 for a port of FU 63. -/
def aSent (p : Nat) : Sent := ⟨aTok, 2, 47, 63, p, 47, none⟩
/-- A firing of FU 63 that the divider or the memory port holds. -/
def aFiring (w : BitVec 128) : Firing := ⟨63, 15, w, 100, 7, 0, 5, 15, false, false, false, 0, 0, false, false⟩
/-- What befalls a request whose header its first router finds spoilt. -/
def cutOff : Ecc := { net := { there := { hdr := some (⟨(endpointOf (.tileMem 47)).router % 64, by decide⟩, 1) } } }
/-- No epoch has begun, so that no older token holds one up. -/
theorem no_wave {s : State} (h : epochNow s = 0) (p : Nat → Sent → Bool) : waveHolds s (epochNow s) p = false := by
  rw [h]; rfl
/-- The way that the token's set begins with. -/
def way0 : Nat := 4 * hallIndex s0 47 63 aTok
/-- The partner of the token, waiting there. -/
def sPair : State :=
  let v : Tile := { sent := [(140, [aSent 1])], ways := [(way0, .entry { fu := 63, kind := 0, one := aTok })] }
  withWord (sTile v) (cw 1 1 1 0 2)
/-- Tile 47 with its spill region in DDR4, ready. -/
def sSpill (v : Tile) : State :=
  { ((sDdr.wr .HALL_CTRL 0x502 47).wr .HALL_SPILL_BASE 16 47).wr .HALL_SPILL_SIZE 20 47 with tiles := [(47, v)] }
/-- A head that waits for a spill operation, its partner on chip. -/
def sDeep : State :=
  let v : Tile := {
    spillReady := true, spills := [190]
    ports := [(190, { buf := [aTok], head := .spill })]
    ways := [(way0, .entry { fu := 63, kind := 0, one := aTok })] }
  withWord (sSpill v) (cw 1 1 1 0 2)
/-- What the hall does with it. -/
def deepArrives : State × Arrived :=
  arrive (setPortOf (sDeep.setTile 47 { sDeep.tile 47 with spills := [] }) 47 190 { buf := [aTok] }) 47 63 1 2 aTok true
    [.ok, .ok, .ok, .ok]
/-- A held store that finds room. -/
def sHeld : State := withWord (sTile { ports := [(190, { buf := [aTok], head := .held none })] }) (cw 1 1 1 0 2)
/-- What the hall does with it. -/
def heldArrives : State × Arrived :=
  arrive (setPortOf sHeld 47 190 { buf := [aTok] }) 47 63 1 2 aTok true [.ok, .ok, .ok, .ok]
/-- A pair that waits for the same place. -/
def aPair : HEntry := pairOf 63 aTok aTok
/-- A held pair that finds room. -/
def sPaired : State :=
  withWord (sTile { ports := [(190, { buf := [aTok], head := .held (some aPair) })] }) (cw 1 1 1 1 2)
/-- What the hall does with it. -/
def pairArrives : State × Arrived :=
  pairUp (setPortOf sPaired 47 190 { buf := [aTok] }) 47 aPair true false [.ok, .ok, .ok, .ok]
/-- A load waits for its response at tile 47. -/
def sMem : State := ((sTile { mems := [aFiring (cw 0x90 1 0 0 2 + 0x1000000#128 * 16)] }).wr .TILE_MEM_CFG 1 47).wr .CRT_RSP_TIMEOUT 0 47

/-- A record for FU 63, context 15 of tile 47. -/
def aRecord : List Byte := leBytes 4 (47 + 63 * 64 + 15 * 4096) ++ leBytes 16 (2 ^ 120) ++ leBytes 4 0
/-- The body of an incremental image of tile 47, ARM set, with these records. -/
def imgBody (n : Nat) (rs : List Byte) : List Byte :=
  leBytes 12 0 ++ leBytes 4 0x8000 ++ leBytes 4 n ++ leBytes 4 0 ++ leBytes 4 3 ++ leBytes 36 0 ++ leBytes 8 0x1234 ++ rs
/-- The loader in a phase, with an image. -/
def sLdr (phase : Nat) (body : List Byte) : State :=
  { s0.wr .TILE_LDR_STATUS (BitVec.ofNat 64 phase) with ldr := { body := body } }

/-- Syllables laid out from instruction address `a` on in core 31. -/
def codeAt : Nat → List Nat → List Host.Cell
  | _, [] => []
  | a, w :: r => (coreMem 31 a, BitVec.ofNat 8 w) :: (coreMem 31 (a + 1), BitVec.ofNat 8 (w / 256)) :: codeAt (a + 2) r
/-- Core 31 about to issue the first of these syllables, with this bank. -/
def sCore (ws : List Nat) (b : Bank := {}) : State :=
  { s0 with cores := [(31, { stopped := false, fresh := false, pc := 0x100, banks := [(0, b)], code := codeAt 0x100 ws })] }
/-- An instruction of one syllable. -/
def one (w : Nat) : Insn := ⟨w / 256, w % 256, 0, w % 256, 0x100⟩
/-- An instruction behind one EXT syllable. -/
def two (e w : Nat) : Insn := ⟨w / 256, w % 256, 1, e % 256 * 256 + w % 256, 0x102⟩
/-- Four cells on the data stack, one on the return stack. -/
def b4 : Bank := { ds := [3, 0xFFFFFFF9, 5, 6], rs := [9], locals := [(7, 0x10008)] }
/-- Cells at the edge of the number range. -/
def bMax : Bank := { ds := [0x7FFFFFFF, 0x80000001, 0x80000000, 6], rs := [9], spec := [(0, 4)] }
/-- An address on top, and below it what is stored there. -/
def bAt (a : Word) : Bank := { ds := [a, 0x11223344, 7], locals := [(7, a)] }
/-- A bank whose window shows a global address, which is on top; below it what is stored there. -/
def bWin (g : Nat) : Bank := { ds := [BitVec.ofNat 32 (0x80000000 + g % 2 ^ 30), 0x11223344, 7], spec := [(7, BitVec.ofNat 32 (g / 2 ^ 30))] }
/-- A bank whose address registers point to X and Y memory. -/
def bDsp : Bank :=
  { ds := [0x80007FFF, 0x00018000], acc0 := 0x7FFFFFFFFF, acc1 := 5,
    spec := [(0x10, 0x3FC), (0x11, 4), (0x12, 8), (0x13, 0xFFFC), (0x14, 8), (0x18, 9)] }
/-- A store of core 31 has failed. -/
def sErr : State := (sCore [0x7B00] b4).setCore 31 { (sCore [0x7B00] b4).core 31 with storeErr := some (4, .poison) }
/-- Core 31 produces into token queue 1023, an entry already held there. -/
def sOut : State :=
  { ((sQ 1 0 0 64 48 16).wr .GQ_CTRL 0x23 1023).wr .GQ_BIND 0x1F4 1023 with
    cores := (sCore [0xA700] b4).cores, queues := [(1023, { beyond := [{ len := 16, hold := some 0 }] })] }
/-- Core 31 produces into item queue 1023, an entry already held there. -/
def sOutd : State :=
  { ((sQ 2 0 0 64 32 0).wr .GQ_CTRL 0x25 1023).wr .GQ_BIND 0x1F4 1023 with
    cores := (sCore [0xA800] (bAt 0x10020)).cores, queues := [(1023, { beyond := [{ len := 32, hold := some 0 }] })] }
/-- Core 31 in bank T. -/
def sBankT : State :=
  { s0 with cores := [(31, { stopped := false, bank := 4, pc := 0x100, code := codeAt 0x100 [0xA001] })] }
/-- A source requests level 3 of core 31. -/
def sIrq : State := { ((sCore [0]).wr .SC_IRQ_CTRL 8 31).wr .EVC_ROUTE 0xFF 0 0 with levels := 1 }

/-- An item in slot 1 of core 31. -/
def anItem (st : ItemState) : Item := ⟨1023, 32, 4095, 7, 0, st, List.replicate 32 3, 31, 1⟩
/-- Core 31 works. -/
def sOn : State := { s0 with cores := [(31, { stopped := false })] }
/-- Flow 4095 of class 63 serves item queue 1023, whose head is its item; core 31 is its core. -/
def sFlow : State :=
  { (((((sQ 2 0 2 64 32 0).wr .FLW_CTRL 0xFFC03F1 4095).wr .FLW_CORES 0x80000000 4095).wr .SCH_CORE_EN 0xFFFFFFFF)).wr
      .SCH_CLASS 15 0 63 with
    cores := sOn.cores, mem := [(0x100000 + 54, 0xFF), (0x100000 + 55, 0x0F)] }
/-- Its head. -/
def headBytes : List Byte := (List.replicate 22 0 ++ [0xFF, 0x0F]) ++ List.replicate 8 0
/-- Slot 1 of core 31 being filled with a descriptor that prefetches `n` bytes from address 0. -/
def sFill (n : Byte) : State :=
  { sOn with
    slots := [(63, { state := .filling, bytes := List.replicate 8 0 ++ [n] ++ List.replicate 23 0, item := some (1023, 32) })]
    sched := { items := [anItem .inSlot] } }

/-- Bank 63 with a copy of 16 bytes under way from bank 0, which it may read. -/
def sDma (st : Nat) : State :=
  { ((((s0.wr .SPB_DMA_STATUS (BitVec.ofNat 64 st) 63).wr .SPB_DMA_ADDR (BitVec.ofNat 64 bankBase) 63).wr .SPB_DMA_LEN 16 63).wr
      .SPB_DMA_OFS 0x3FFF0 63).wr .SPB_OWNER 0x10004 0 with
    mem := [(bankBase + 3, 7)], spbs := [(63, { ofs := 0x3FFF0, addr := bankBase, len := 16 })] }

/-- The epoch machinery locked to an external sync, at epoch 3. -/
def sSync (st : Nat) : State := ((s0.wr .EPO_STATUS (BitVec.ofNat 64 (st * 4096 + 65536))).wr .EPO_CTRL 3).wr .EPO_NUMBER 3
/-- A consumed token queue, a lane and an epoch that its domains have not committed. -/
def sEpoch : State := { (sQ 1 0 1 64 48 16).wr .EPO_NUMBER 3 with power := s0.power }
/-- The snapshot of an epoch. -/
def aSnap (n : Nat) : Snap := { epoch := n, image := [], flags := [], map := 5 }
/-- Domain 3 holds tile 47 alone, into which token queue 1023 plays through array entry port 63. -/
def sDom (v : Tile) (x : Domain) : State :=
  twinned { ((((sQ 1 0 1 64 48 16).wr .GQ_BIND 0x3F10000 1023).wr .GQ_CTRL 0x43 1023).wr .EPO_TILE_DOM 0xC0000000 0 2).wr
      .TILE_EP_CFG 0x2F03 47 3 with
    tiles := [(47, v)], epo := { doms := [(3, x)] }, queues := [(1023, { pend := [(1, 48), (0, 32)] })] }
/-- Domain 3 recovers. -/
def sRecover : State :=
  twinned (((sDom { epoch := 2, kept := some (aSnap 0) } { next := 1 }).wr .EPO_STATUS 8).wr .GQ_MARK 0x8000000000000020 1023)
theorem recover_tiles : ∀ x, x ∈ domTiles sRecover (3 : Fin 4).val → (sRecover.tile x).ports = [] ∧
    (sRecover.tile x).undo = [] ∧ (sRecover.tile x).mems = [] ∧ ∃ y, (sRecover.tile x).kept = some y ∧ y.image = [] := by
  have e : domTiles sRecover (3 : Fin 4).val = [47] := by decide +kernel
  intro x hx
  rw [e, List.mem_singleton] at hx
  subst hx
  exact ⟨by decide +kernel, by decide +kernel, by decide +kernel, aSnap 0, by decide +kernel, rfl⟩
theorem recover_inputs : ∀ q, q ∈ domInputs sRecover (3 : Fin 4).val → (sRecover.queue q).skips = [] ∧
    ∃ m, gqMark sRecover q = some m ∧ m ≤ gqWrite sRecover q := by
  have e : domInputs sRecover (3 : Fin 4).val = [1023] := by decide +kernel
  intro q hq
  rw [e, List.mem_singleton] at hq
  subst hq
  exact ⟨by decide +kernel, 32, by decide +kernel, by decide +kernel⟩

/-- Bank 63 owned by the host. -/
def sBank : State := { s0.wr .SPB_OWNER 4 63 with mem := [(bankBase + 63 * 2 ^ 18 + 16, 7)] }
/-- An address in it. -/
def bankAddr : Addr := BitVec.ofNat 48 (bankBase + 63 * 2 ^ 18 + 16)
/-- A read of the host that is outstanding. -/
def aReq : Req := { who := .host, tag := 0xFFF, reads := true, status := .ok, data := [1, 2, 3, 4], router := 63, port := some 4 }
/-- A store of core 31 that is outstanding, to fail. -/
def aStore : Req := { who := .core 31, tag := 5, reads := false, status := .poison, store := some 0x80000000, router := 63, port := some 4 }
/-- Router 63 about to be reconfigured. -/
def sRcfg (b : DWord) : State := (s0.wr .CRT_STATUS b 63).wr .CRT_NEXT_PORT_EN 0x9300 63

/-- The link in a state. -/
def sLink (n : Nat) (v : Link := {}) : State := { s0.wr .RLK_STATUS (BitVec.ofNat 64 n) with link := v }
/-- The control field of a flit with an empty payload, its CRC filled in: sequence number, ACK, type, credit report. -/
def ctl (seq ack ty cred : Nat) : BitVec 64 :=
  let c := BitVec.ofNat 64 (seq + ack * 2 ^ 12 + ty * 2 ^ 24 + cred * 2 ^ 28)
  c ||| (BitVec.ofNat 64 (flitCrc 0 c) <<< 40)
/-- A flit in the replay buffer. -/
def aFlit (n : Nat) : TxFlit := { ch := 1, payload := [], seq := BitVec.ofNat 12 n }
/-- A transaction of the host at the bank's address. -/
def tran (ty len : Nat) (data : List Byte := []) : Tran :=
  ⟨BitVec.ofNat 8 ty, 0xABC, 15, bankAddr, BitVec.ofNat 13 len, 0x55, data, []⟩
/-- The link is up and the bank is the host's, whose transaction has come. -/
def sHost (x : Tran) : State := { sBank.wr .RLK_STATUS 4 with power := s0.power, link := { rxq := tranPayloads x } }
/-- Bulk stream 15 sends item queue 1023, with a grant. -/
def sBulk (grant : DWord) : State :=
  { ((((sQ 1 0 5 64 16 0).wr .GQ_BIND 0xF50000 1023).wr .RLK_STATUS 4).wr .RLK_BS_CTRL 1 0 15).wr .RLK_BS_GRANT grant 0 15 with
    link := { streams := [(15, { next := 32, read := 16 })] } }
/-- CONFIG, with seventeen READY blocks on every lane: reversed order, lanes 1 and 3 inverted. -/
def sReady : State :=
  let units := (List.finRange 4).map fun (i : Fin 4) => Safety.heard (bit (0x1A : DWord) i) 0x2AAAAAAAAAAAAAA
    (List.replicate 17 ⟨BitVec.ofNat 3 (laneAt true i), true, 3, 1, true⟩)
  (sLink 3 { hpend := true, rxSeq := 5, rx := units }).wr .RLK_TRAIN 0x1A

/-- A manifest of a boot image of version 3 without payload, signed by the Ed25519 key of seed 00 01 … 1F (RFC 8032). -/
def man3 : List Byte := leBytes 256 0xAE19E89C5D611666A29F63102A1C66715748416C087FECAD480F40C96A4B1431E27E44048B4A402D9075ADD594F1C03D8924035E564BE0C64D40C316961C8A300000000000000000000000000000000000000000000000000000000000000000000000000000000000000000000000000000000000000000000000000000000B83155126486DC1D5F0DA59B30D6E46799C04BE718DD701DBE10CEF3BF07A1033EDA27F97A3238A5817A4147BD31B9632FEC7E87D21883FFB0F2855D3CD1D047CEE96CD321A9F483DC15570B05E420D607806DD6502854F1BDB8EF7E35E183CF000000000000000000000000000000000000000300000001000000014D414E46
/-- The same of version 4. -/
def man4 : List Byte := leBytes 256 0x9003A9FB13DA1501BB33146FBE8559DFF1634CE155D49F63275D185931B4CE21730EC489D7C37016584AB8B015FA0AB0D519861F64038E91B1D430E9EC41B1000000000000000000000000000000000000000000000000000000000000000000000000000000000000000000000000000000000000000000000000000000000B83155126486DC1D5F0DA59B30D6E46799C04BE718DD701DBE10CEF3BF07A1033EDA27F97A3238A5817A4147BD31B9632FEC7E87D21883FFB0F2855D3CD1D047CEE96CD321A9F483DC15570B05E420D607806DD6502854F1BDB8EF7E35E183CF000000000000000000000000000000000000000400000001000000014D414E46
/-- One of version 3 whose payload is the byte 1. -/
def man3b : List Byte := leBytes 256 0xD8A06BA307C598A2BD3EEB3AE16220BEBCB04AD5D6D4C1978988DF485422E6DECBB3814A13DE94A6E094037F9246980C78A76CD12F55BA50AAD7402B8820D0800000000000000000000000000000000000000000000000000000000000000000000000000000000000000000000000000000000000000000000000000000000B83155126486DC1D5F0DA59B30D6E46799C04BE718DD701DBE10CEF3BF07A10339E3D936C6E31EAAC08FCFCFE7BB443460C61C0BD5B74408C8BCC35A6B8D6F5700BDCDDEAA4B466AE65F8FB67F67CA62DC34149E1D44D213DDFBC13668B6547B000000000000000000000000000000010000000300000001000000014D414E46
/-- The vendor key in both copies of the fuses, an identity seed, and the block about to boot from flash. -/
def sBoot : State :=
  { s0.wr .SEC_BOOT_STATUS 1 with
    fuses := (List.range 8).flatMap (fun i => [(i, BitVec.ofNat 32 (0xB83155126486DC1D5F0DA59B30D6E46799C04BE718DD701DBE10CEF3BF07A103 / 2 ^ (32 * i)))]) ++
      (List.range 8).flatMap (fun i => [(64 + i, BitVec.ofNat 32 (0xB83155126486DC1D5F0DA59B30D6E46799C04BE718DD701DBE10CEF3BF07A103 / 2 ^ (32 * i)))]) }
theorem accepted_man3 : manifestError sBoot 1 256 man3 (keyOk sBoot man3) = 0 := by decide +kernel
theorem accepted_man3b : manifestError sBoot 1 257 man3b (keyOk sBoot man3b) = 0 := by decide +kernel
theorem accepted_man4 : manifestError sBoot 1 256 man4 (keyOk sBoot man4) = 0 := by decide +kernel
/-- A security command under way. -/
def sSec (c v : Nat) (boot : Nat := 5) : State :=
  { s0.wr .SEC_BOOT_STATUS (BitVec.ofNat 64 boot) with sec := { cmd := some (c, v), cfgHigh := 64 } }
/-- A choice between two copies, a command under way. -/
def sAmbiguous (c : Nat) : State :=
  { sBoot.wr .SEC_BOOT_STATUS 3 with sec := { cmd := some (c, 0), copies := some (⟨man3, []⟩, ⟨man3b, [1]⟩) } }

/-- The block running its image (`BOOT_STATE` 5). -/
def sImage : State := s0.wr .SEC_BOOT_STATUS 5
/-- The setpoint is 750 mV, the regulator gives `v`, `STATE` of `HLT_AVS_STATUS` is `st`. -/
def sAvs (v st : Nat) : State :=
  { (((s0.wr .HLT_CTRL 2).wr .HLT_AVS_SET 750).wr .HLT_AVS_STATUS (BitVec.ofNat 64 st)) with health := { vout := some v } }
/-- Rotation on, tile 39 a spare, epoch 1000. -/
def sRot : State := ((s0.wr .HLT_ROT_CTRL 0x3E801).wr .HLT_ROT_SPARE 0x80000000).wr .EPO_NUMBER 1000
/-- A rotation of tile 8 onto tile 39 in its state `n`. -/
def sTurn (n : Nat) : State :=
  { ((sRot.wr .HLT_ROT_STATUS (BitVec.ofNat 64 n)).wr .EPO_NUMBER 0) with health := { rot := some (8, 39), rotEpoch := 0, last := 8 } }

/-- The power state of `PWR_STATUS`, and the levels of the sources after it. -/
def sPwr (n : Nat) : State := s0.wr .PWR_STATUS (BitVec.ofNat 64 n)

/-! Results that the spec's worked examples give. -/

/-- What holds of the next state of an outcome. -/
def after (o : Host.Outcome State Fault Refusal) (f : State → Bool) : Bool :=
  match o with
  | .next t => f t
  | _ => false

/-- "A queue level event to a core and the host" (chapter 2), and the register address in chapter 12. -/
theorem test_addresses_of_queue_517 :
    regAddr .GQ_CTRL 517 = 0x020000418140 ∧ regAddr .GQ_STATUS 517 = 0x020000418158 ∧ regAddr .EVC_ROUTE 0 302 = 0x0200000114F8 ∧
    regAddr .EVC_NEXT 0 22 = 0x020000010158 ∧ regAddr .EVT_ENABLE (pageOf .gallery) = 0x020000400014 := by decide +kernel

/-- "A core's register read and a detour" (chapter 17): `CRT_NEXT_DETOUR` of router 49. -/
theorem test_address_of_next_detour : regAddr .CRT_NEXT_DETOUR 49 = 0x020000731058 := by decide +kernel

/-- "Clearing a queue's level event from core 5" (chapter 12): the literal 0xC0418158, and the address that it shows. -/
theorem test_literal_of_three_extensions :
    after (exec (.litu 31 {}) (sCore [0xE0C0, 0xE041, 0xE081, 0x1158])) (fun t => (t.core 31).cur.ds == [0xC0418158]) = true := by
  decide +kernel
theorem test_window_of_queue_517 : globalOf { spec := [(8, 0x800)] } 0xC0418158 = 0x020000418158 := by decide +kernel
/-- The 16-bit access to a register of the same example: ACCESS with detail 0x10 + ADDRESS_ERROR. -/
theorem test_half_of_a_register :
    after (exec (.ldh 31 {}) (sCore [0x7100] { ds := [0xC0418158], spec := [(8, 0x800)] })) (fun t =>
      (t.core 31).cur.sp 5 == 0xC0418158 && fld ((t.core 31).cur.sp 4) 0 8 == 6 &&
      fld ((t.core 31).cur.sp 4) 8 8 == 0x10 + Status.addressError.code && (t.core 31).cur.ds == [0xC0418158]) = true := by
  decide +kernel

/-- "One radix-2 stage with block scaling" (chapter 13). -/
def bFft : Bank :=
  { ds := [0xDCD82EE0, 0xF3921D00], acc0 := 486570000, acc1 := BitVec.ofInt 72 (-208530000),
    spec := [(0x10, 0x100), (0x12, 0x200)] }
def sFft (w : Nat) (b : Bank := bFft) : State :=
  { sCore [w] b with mem :=
      [(coreMem 31 0x10100, 0x98), (coreMem 31 0x10101, 0x3A), (coreMem 31 0x10102, 0x70), (coreMem 31 0x10103, 0x17),
       (coreMem 31 0x20200, 0x82), (coreMem 31 0x20201, 0x5A), (coreMem 31 0x20202, 0x7E), (coreMem 31 0x20203, 0xA5)] }
theorem test_cmul_of_the_butterfly :
    after (exec (.cmul 31 {}) (sFft 0x8120)) (fun t =>
      (t.core 31).cur.acc0 == 486570000 && (t.core 31).cur.acc1.toInt == -208530000) = true := by decide +kernel
theorem test_acrdc_of_the_butterfly :
    after (exec (.acrdc 31 {}) (sFft 0x8530)) (fun t => (t.core 31).cur.ds.head? == some 0xF3921D00) = true := by decide +kernel
theorem test_cshr_of_the_butterfly :
    after (exec (.cshr 31 {}) (sFft 0x8E01)) (fun t => (t.core 31).cur.ds.head? == some 0xEE6C1770) = true := by decide +kernel
theorem test_cadd_of_the_butterfly :
    after (exec (.cadd 31 {}) (sFft 0x8C00 { ds := [0xF3921D00, 0xEE6C1770] })) (fun t =>
      (t.core 31).cur.ds == [0xE1FE3470]) = true := by decide +kernel
theorem test_csub_of_the_butterfly :
    after (exec (.csub 31 {}) (sFft 0x8D00 { ds := [0xF3921D00, 0xEE6C1770] })) (fun t =>
      (t.core 31).cur.ds == [0xFADAFA70]) = true := by decide +kernel

/-- "A dip under load" (chapter 21): `HLT_EXC_LAST` after 605 mV and 80 µs. -/
theorem test_excursion_of_the_dip :
    after (exec (.holdEnd 605 80) sHold) (fun t => t.rd .HLT_EXC_LAST == 0x0005025D && t.rd .HLT_EXCURSIONS == 1) = true := by
  decide +kernel

/-! Chapter 1. -/

theorem witness_StepTakesTheFrontCommand_2 : ∃ (s : State), s.pending = [] :=
  ⟨s0, by decide +kernel⟩

theorem witness_StepTakesTheFrontCommand_3 : ∃ (s : State), Safety.calm s ∧ s.pending = [] ∧ heathOut s = false ∧ bit
    (s.rd .PWR_WDT_CTRL) 0 = false :=
  ⟨s0, rfl, by decide +kernel⟩

theorem witness_MemoryStaysCanonical_1 : ∃ (s : State) (t : State), Safety.memoryCanonical s ∧ step s = .next t :=
  ⟨s0, (match step s0 with | .next t => t | _ => s0), by unfold Safety.memoryCanonical; decide +kernel, rfl⟩

/-! Chapter 2. -/

theorem witness_RegisterWritesTakeEffect_1 : ∃ (q : Requester) (b : Block) (a : Addr) (s : State), Safety.calm s ∧
    a.toNat = regAddr .EVT_ENABLE (pageOf b) ∧ Safety.serves s q b .EVT_ENABLE (pageOf b) 0 :=
  ⟨.host, .lane 3, BitVec.ofNat 48 (regAddr .EVT_ENABLE (pageOf (.lane 3))), s0, rfl, by decide +kernel, serves_of (by
    decide +kernel)⟩

theorem witness_RegisterWritesTakeEffect_2 : ∃ (q : Requester) (l : Fin 24) (a : Addr) (v : Word) (s : State),
    Safety.calm s ∧ a.toNat = regAddr .LANE_ADAPT l ∧ Safety.serves s q (.lane l) .LANE_ADAPT l 0 ∧ fld v 0 2 ≠ 3 :=
  ⟨.core 31, 23, BitVec.ofNat 48 (regAddr .LANE_ADAPT 23), 2, s0, rfl, by decide +kernel, serves_of (by decide +kernel),
    by decide +kernel⟩

theorem witness_RegisterWritesTakeEffect_3 : ∃ (q : Requester) (l : Fin 24) (a : Addr) (v : Word) (s : State),
    Safety.calm s ∧ a.toNat = regAddr .LANE_ADAPT l ∧ Safety.serves s q (.lane l) .LANE_ADAPT l 0 ∧ fld v 0 2 = 3 ∧ s.rd
    .FAULT_COUNT (pageOf (.lane l)) = 0 :=
  ⟨.core 31, 23, BitVec.ofNat 48 (regAddr .LANE_ADAPT 23), 3, s0, rfl, by decide +kernel, serves_of (by decide +kernel),
    by decide +kernel⟩

theorem witness_RegisterWritesTakeEffect_4 : ∃ (q : Requester) (b : Block) (a : Addr) (s : State), Safety.calm s ∧
    a.toNat = regAddr .BLK_ID (pageOf b) ∧ Safety.serves s q b .BLK_ID (pageOf b) 0 :=
  ⟨.bsc, .tile 47, BitVec.ofNat 48 (regAddr .BLK_ID (pageOf (.tile 47))), s0, rfl, by decide +kernel, serves_of (by
    decide +kernel)⟩

theorem witness_RegisterReadsAnswer_1 : ∃ (q : Requester) (n : Fin 1024) (a : Addr) (inc : Nat) (s : State), Safety.calm
    s ∧ a.toNat = regAddr .GQ_LOST n ∧ Safety.serves s q .gallery .GQ_LOST n 0 ∧ inc < 2 ^ 32 ∧ Safety.answers s q
    a.toNat 4 :=
  ⟨.host, 1023, BitVec.ofNat 48 (regAddr .GQ_LOST 1023), 3, s0.wr .GQ_LOST 77 1023, rfl, by decide +kernel, serves_of (by
    decide +kernel), by decide +kernel, answers_of (by decide +kernel)⟩

theorem witness_RegisterReadsAnswer_2 : ∃ (q : Requester) (b : Block) (r : Reg) (i : Nat) (j : Nat) (a : Addr) (s :
    State), Safety.calm s ∧ a.toNat = regAddr r i j ∧ Safety.serves s q b r i j ∧ (regDesc r).wide = true ∧ (regDesc
    r).acc ≠ .ro :=
  ⟨.host, .gallery, .GAL_OP, 0, 7, BitVec.ofNat 48 (regAddr .GAL_OP 0 7), s0, rfl, by decide +kernel, serves_of (by
    decide +kernel), by decide +kernel⟩

theorem witness_RegisterReadsAnswer_3 : ∃ (q : Requester) (b : Block) (r : Reg) (i : Nat) (j : Nat) (a : Addr) (s :
    State), Safety.calm s ∧ a.toNat = regAddr r i j ∧ Safety.serves s q b r i j ∧ (regDesc r).wide = true ∧ (regDesc
    r).acc ≠ .wo ∧ Safety.answers s q a.toNat 4 :=
  ⟨.host, .devctl, .PWR_TB, 0, 0, BitVec.ofNat 48 (regAddr .PWR_TB), s0.wr .PWR_TB 0x123456789A, rfl, by decide +kernel,
    serves_of (by decide +kernel), by decide +kernel, by decide +kernel, answers_of (by decide +kernel)⟩

theorem witness_EventAndFaultRegisters_1 : ∃ (q : Requester) (b : Block) (s : State), Safety.calm s ∧ Safety.serves s q b
    .EVT_STATUS (pageOf b) 0 ∧ summaryMask b = 0 :=
  ⟨.host, .tile 47, s0.wr .EVT_STATUS 3 (pageOf (.tile 47)), rfl, serves_of (by decide +kernel), by decide +kernel⟩

theorem witness_EventAndFaultRegisters_2 : ∃ (q : Requester) (b : Block) (s : State), Safety.calm s ∧ Safety.serves s q b
    .EVT_STATUS (pageOf b) 0 ∧ summaryMask b ≠ 0 :=
  ⟨.debug, .router 63, ({ s0 with force := [(0x73F, 1)] } : State).wr .SEC_DBG_STATUS 0x22, rfl, serves_of (by
    decide +kernel), by decide +kernel⟩

theorem witness_EventAndFaultRegisters_3 : ∃ (q : Requester) (b : Block) (s : State), Safety.calm s ∧ Safety.serves s q b
    .EVT_FORCE (pageOf b) 0 :=
  ⟨.host, .lane 0, s0, rfl, serves_of (by decide +kernel)⟩

theorem witness_EventAndFaultRegisters_4 : ∃ (q : Requester) (b : Block) (s : State), Safety.calm s ∧ Safety.serves s q b
    .FAULT_COUNT (pageOf b) 0 :=
  ⟨.bsc, .security, s0.fault .security 0x100 5 6, rfl, serves_of (by decide +kernel)⟩

theorem witness_EventAndFaultRegisters_5 : ∃ (q : Requester) (b : Block) (s : State), Safety.calm s ∧ Safety.serves s q b
    .FAULT_COUNT (pageOf b) 0 :=
  ⟨.host, .core 31, s0.fault (.core 31) 0x100 5 6, rfl, serves_of (by decide +kernel)⟩

theorem witness_EventAndFaultRegisters_7 : ∃ (b : Block) (s : State), s.rd .FAULT_COUNT (pageOf b) = 0 :=
  ⟨.tile 5, s0, by decide +kernel⟩

theorem witness_EventAndFaultRegisters_8 : ∃ (b : Block) (s : State), s.rd .FAULT_COUNT (pageOf b) ≠ 0 :=
  ⟨.tile 5, s0.fault (.tile 5) 1 2 3, by decide +kernel⟩

theorem witness_EventAndFaultRegisters_9 : ∃ (q : Requester) (b : Block) (n : Fin 2) (v : Word) (s : State), Safety.calm
    s ∧ Safety.serves s q b .PERF_SEL (pageOf b) n ∧ fld v 0 8 < 5 :=
  ⟨.host, .gallery, 1, 0, s0.wr .PERF_CNT 5 (pageOf .gallery) 1, rfl, serves_of (by decide +kernel), by decide +kernel⟩

theorem witness_SoftResetRuns_1 : ∃ (q : Requester) (b : Block) (s : State), Safety.calm s ∧ Safety.serves s q b
    .BLK_CTRL (pageOf b) 0 ∧ b ∈ [.devctl, .evc, .gpio, .health, .security] ∧ s.power.inReset = false ∧ s.rdf .BLK_CTRL 1
    3 (pageOf b) = 0 :=
  ⟨.host, .security, s0.wr .BLK_CTRL 1 (pageOf .security), rfl, serves_of (by decide +kernel), by decide +kernel⟩

theorem witness_SoftResetRuns_2 : ∃ (q : Requester) (t0 : Fin 48) (s : State), Safety.calm s ∧ Safety.serves s q (.tile
    t0) .BLK_CTRL (pageOf (.tile t0)) 0 ∧ s.power.inReset = false ∧ s.rdf .BLK_CTRL 1 3 (pageOf (.tile t0)) = 0 :=
  ⟨.host, 47, s0, rfl, serves_of (by decide +kernel), by decide +kernel⟩

theorem witness_SoftResetRuns_3 : ∃ (b : Block) (s : State), Safety.calm s ∧ tget false s.resetting (pageOf b) = true ∧
    ((∀ c, b ≠ .mc c)) ∧ ((∀ r, b ≠ .router r)) :=
  ⟨.link, ({ s0 with resetting := [(0xF00, true)] } : State), rfl, by decide +kernel⟩

theorem witness_PowerDomainsSwitch_1 : ∃ (q : Requester) (b : Block) (d : Fin 24) (s : State), Safety.calm s ∧ headOf b =
    some d.val ∧ Safety.serves s q b .BLK_CTRL (headPage d) 0 ∧ s.hold = false ∧ powerBusy s q d = false ∧ s.rdf
    .BLK_CTRL 1 1 (headPage d) = 0 ∧ ((∀ c, b = .mc c → s.en (.mc c) = true → c.val < 2 ^ nchLog s)) :=
  ⟨.host, .tile 6, 3, s0, rfl, by decide +kernel, serves_of (by decide +kernel), by decide +kernel⟩

theorem witness_PowerDomainsSwitch_2 : ∃ (q : Requester) (b : Block) (d : Fin 24) (s : State), Safety.calm s ∧ headOf b =
    some d.val ∧ Safety.serves s q b .BLK_CTRL (headPage d) 0 ∧ s.hold = true ∧ powerBusy s q d = false ∧ s.rdf .BLK_CTRL
    1 1 (headPage d) = 0 ∧ ((∀ c, b = .mc c → s.en (.mc c) = true → c.val < 2 ^ nchLog s)) :=
  ⟨.host, .mc 7, 22, sHold, rfl, by decide +kernel, serves_of (by decide +kernel), by decide +kernel⟩

theorem witness_PowerDomainsSwitch_3 : ∃ (d : Fin 24) (s : State), Safety.calm s ∧ s.hold = false ∧ s.domSt d = .draining
    ∧ bit s.power.entered d = false :=
  ⟨23, ({ s0 with dom := [(23, .draining)] } : State), rfl, by decide +kernel⟩

theorem witness_PowerDomainsSwitch_4 : ∃ (d : Fin 24) (s : State), Safety.calm s ∧ s.hold = false ∧ s.domSt d = .draining
    ∧ bit s.power.entered d = false :=
  ⟨0, ({ s0 with dom := [(0, .draining)] } : State), rfl, by decide +kernel⟩

theorem witness_PowerDomainsSwitch_5 : ∃ (d : Fin 24) (s : State), Safety.calm s ∧ s.hold = false ∧ s.domSt d = .draining
    ∧ bit s.power.entered d = true :=
  ⟨22, ({ s0 with dom := [(22, .draining)], power := { s0.power with entered := 0x400000 } } : State), rfl, by
    decide +kernel⟩

theorem witness_PowerDomainsSwitch_6 : ∃ (q : Requester) (d : Fin 24) (s : State), Safety.calm s ∧ Safety.serves s q
    .devctl .PWR_ON 0 0 ∧ s.hold = false ∧ s.domSt d = .off ∧ bit s.power.entered d = false :=
  ⟨.bsc, 23, ({ s0 with dom := [(23, .off)] } : State), rfl, serves_of (by decide +kernel), by decide +kernel⟩

theorem witness_PowerDomainsSwitch_7 : ∃ (d : Fin 24) (s : State), Safety.calm s ∧ s.hold = false ∧ s.domSt d = .powering
    :=
  ⟨8, ({ s0 with dom := [(8, .powering)] } : State), rfl, by decide +kernel⟩

/-! Chapter 3. -/

theorem witness_PllFollowsItsCommands_1 : ∃ (n : Fin 6) (s : State), Safety.calm s ∧ s.live (.quad n) = true ∧ (s.pll n =
    .locking ∨ s.pll n = .retrying) :=
  ⟨5, sQuad, rfl, by decide +kernel⟩

theorem witness_PllFollowsItsCommands_2 : ∃ (n : Fin 6) (s : State), Safety.calm s ∧ s.live (.quad n) = true ∧ s.pll n =
    .locking :=
  ⟨5, sQuad, rfl, by decide +kernel⟩

theorem witness_PllFollowsItsCommands_3 : ∃ (n : Fin 6) (s : State), Safety.calm s ∧ s.live (.quad n) = true ∧ s.pll n =
    .locked :=
  ⟨5, ({ sQuad with quads := [(5, .locked)] } : State), rfl, by decide +kernel⟩

theorem witness_PllFollowsItsCommands_4 : ∃ (q : Requester) (n : Fin 6) (v : Word) (s : State), Safety.calm s ∧
    Safety.serves s q (.quad n) .QUAD_PLL_RATE n 0 ∧ symOk (symRate (s.rd .QUAD_PLL_CTRL n) (merge 0x3FFFFFF (s.rd
    .QUAD_PLL_RATE n) (ext v))) = true ∧ lanesOk s n (symRate (s.rd .QUAD_PLL_CTRL n) (merge 0x3FFFFFF (s.rd
    .QUAD_PLL_RATE n) (ext v))) = true :=
  ⟨.host, 5, 0x00800000, sQuad, rfl, serves_of (by decide +kernel), by decide +kernel⟩

theorem witness_PllFollowsItsCommands_5 : ∃ (q : Requester) (n : Fin 6) (v : Word) (s : State), Safety.calm s ∧
    Safety.serves s q (.quad n) .QUAD_PLL_CTRL n 0 ∧ fld v 2 2 ≠ 3 ∧ symOk (symRate (merge 0x1F (s.rd .QUAD_PLL_CTRL n)
    (ext v)) (s.rd .QUAD_PLL_RATE n)) = true ∧ lanesOk s n (symRate (merge 0x1F (s.rd .QUAD_PLL_CTRL n) (ext v)) (s.rd
    .QUAD_PLL_RATE n)) = true :=
  ⟨.host, 5, 0x1, sQuad.wr .QUAD_PLL_RATE 0x00800000 5, rfl, serves_of (by decide +kernel), by decide +kernel⟩

theorem witness_PllFollowsItsCommands_6 : ∃ (q : Requester) (n : Fin 6) (v : Word) (s : State), Safety.calm s ∧
    Safety.serves s q (.quad n) .QUAD_PLL_RATE n 0 ∧ symOk (symRate (s.rd .QUAD_PLL_CTRL n) (merge 0x3FFFFFF (s.rd
    .QUAD_PLL_RATE n) (ext v))) = true ∧ lanesOk s n (symRate (s.rd .QUAD_PLL_CTRL n) (merge 0x3FFFFFF (s.rd
    .QUAD_PLL_RATE n) (ext v))) = false :=
  ⟨.host, 5, 0x00400000, ((sQuad.wr .QUAD_PLL_RATE 0x00800000 5).wr .LANE_CFG 6 20).wr .LANE_CFG 5 21, rfl, serves_of (by
    decide +kernel), by decide +kernel⟩

theorem witness_LaneFollowsItsCommands_1 : ∃ (s : State), Safety.calm s :=
  ⟨sLane, rfl⟩

theorem witness_LaneFollowsItsCommands_2 : ∃ (l : Fin 24) (s : State), Safety.calm s ∧ laneRuns s l = true ∧ rxMode s l ≠
    0 ∧ rsMode (rxMode s l) = false ∧ s.rdf .LOOP_CTRL 0 3 (pageOf (.lane l)) = 0 :=
  ⟨23, sLane, rfl, by decide +kernel⟩

theorem witness_LaneFollowsItsCommands_3 : ∃ (l : Fin 24) (y : RxWord) (r : List RxWord) (s : State), Safety.calm s ∧
    laneRuns s l = true ∧ rsMode (rxMode s l) = true ∧ s.rdf .LOOP_CTRL 0 3 (pageOf (.lane l)) = 0 ∧ dealt s l = false ∧
    (s.lane l).rx.parts.length < 9 ∧ (s.lane l).rx.out = y :: r :=
  ⟨23, rsWord, [], ({ sRs with lanes := [(23, { rx := { parts := List.replicate 8 ⟨0, 1, false⟩, out := [rsWord] } })] }
    : State), rfl, by decide +kernel⟩

theorem witness_LaneFollowsItsCommands_4 : ∃ (l : Fin 24) (s : State), Safety.calm s ∧ laneRuns s l = true ∧ rsMode
    (rxMode s l) = true ∧ s.rdf .LOOP_CTRL 0 3 (pageOf (.lane l)) = 0 ∧ dealt s l = false ∧ (s.lane l).rx.parts.length =
    9 ∧ (s.lane l).rx.out = [] :=
  ⟨23, ({ sRs with lanes := [(23, { rx := { parts := List.replicate 9 ⟨0, 1, false⟩ } })] } : State), rfl, by
    decide +kernel⟩

theorem witness_LaneFollowsItsCommands_5 : ∃ (l : Fin 24) (s : State), Safety.calm s ∧ laneRuns s l = true :=
  ⟨23, sLane, rfl, by decide +kernel⟩

theorem witness_LaneFollowsItsCommands_6 : ∃ (l : Fin 24) (s : State), Safety.calm s ∧ laneRuns s l = true ∧ (s.lane
    l).adapting = true :=
  ⟨23, (({ sLane with lanes := [(23, { adapting := true })] } : State).wr .LANE_ADAPT 1 23).wr .LANE_MARGIN_THR 4 23,
    rfl, by decide +kernel⟩

theorem witness_LaneFollowsItsCommands_7 : ∃ (l : Fin 24) (s : State), Safety.calm s ∧ laneRuns s l = true ∧ (s.lane
    l).adapting = true ∧ (s.lane l).adaptDone = false :=
  ⟨23, ({ sLane with lanes := [(23, { adapting := true })] } : State), rfl, by decide +kernel⟩

theorem witness_LaneFollowsItsCommands_8 : ∃ (l : Fin 24) (s : State), Safety.calm s ∧ laneRuns s l = true ∧ bit (s.rd
    .LANE_EYE_RESULT l) 30 = true :=
  ⟨23, sLane.wr .LANE_EYE_RESULT 0x40000000 23, rfl, by decide +kernel⟩

theorem witness_LaneFollowsItsCommands_9 : ∃ (q : Requester) (l : Fin 24) (s : State), Safety.calm s ∧ Safety.serves s q
    (.lane l) .LANE_CNT_CLR l 0 :=
  ⟨.host, 23, ((sLane.wr .LANE_CV_CNT 5 23).wr .LANE_FEC_HIST 6 23 16).wr .LANE_PRBS_BITS 7 23, rfl, serves_of (by
    decide +kernel)⟩

theorem witness_LaneFollowsItsCommands_10 : ∃ (q : Requester) (l : Fin 24) (v : BitVec 31) (s : State), Safety.calm s ∧
    Safety.serves s q (.lane l) .LANE_EYE_CTRL l 0 ∧ bit (s.rd .LANE_EYE_RESULT l) 30 = false ∧ ((fld v 0 7 ≤ 31 ∨ 96 ≤
    fld v 0 7)) ∧ fld v 8 8 ≠ 128 ∧ fld v 20 2 ≠ 3 ∧ ((rateBits (laneRate s l) = 1 → fld v 20 2 = 0)) :=
  ⟨.host, 23, 0x47F1F, sLane, rfl, serves_of (by decide +kernel), by decide +kernel⟩

theorem witness_LaneFollowsItsCommands_11 : ∃ (q : Requester) (l : Fin 24) (v : Word) (s : State), Safety.calm s ∧
    Safety.serves s q (.lane l) .LANE_EQ_DATA l 0 ∧ s.rdf .LANE_ADAPT 0 2 l = 0 ∧ (s.rdf .LANE_EQ_IDX 0 8 l ≠ 0 ∨ fld v 0
    8 ≤ 31) :=
  ⟨.host, 23, 31, sLane, rfl, serves_of (by decide +kernel), by decide +kernel⟩

theorem witness_LaneFollowsItsCommands_12 : ∃ (q : Requester) (l : Fin 24) (v : Word) (s : State), Safety.calm s ∧
    Safety.serves s q (.lane l) .LOOP_CTRL (0x200 + l) 0 ∧ fld v 0 3 ≤ 4 ∧ ((fld v 0 3 = 4 → s.rdf .LANE_PCS 0 4 l =
    s.rdf .LANE_PCS 4 4 l)) :=
  ⟨.host, 23, 4, sLane, rfl, serves_of (by decide +kernel), by decide +kernel⟩

theorem witness_LaneFollowsItsCommands_13 : ∃ (l : Fin 24) (s : State), Safety.calm s ∧ laneRuns s l = true ∧ s.rdf
    .LOOP_CTRL 0 3 (pageOf (.lane l)) < 3 ∧ s.rdf .LANE_TX_CTRL 0 3 l = 2 ∧ txMode s l ≠ 0 ∧ rsMode (txMode s l) = false
    ∧ (s.lane l).txp.out = [] :=
  ⟨23, sLane.wr .LANE_TX_CTRL 2 23, rfl, by decide +kernel⟩

theorem witness_LaneFollowsItsCommands_14 : ∃ (l : Fin 24) (y : LineBits) (r : List LineBits) (s : State), Safety.calm s
    ∧ laneRuns s l = true ∧ s.rdf .LOOP_CTRL 0 3 (pageOf (.lane l)) = 0 ∧ s.rdf .LANE_TX_CTRL 0 3 l = 2 ∧ rsMode (txMode
    s l) = true ∧ bonded s l = false ∧ (s.lane l).txp.words.length < 9 ∧ (s.lane l).txp.out = y :: r :=
  ⟨23, ⟨512, 5⟩, [⟨512, 6⟩],
    ({ sRs with lanes := [(23, { txp := { words := List.replicate 8 ⟨0, 0⟩, out := [⟨512, 5⟩, ⟨512, 6⟩] } })] } :
    State).wr .LANE_TX_CTRL 2 23, rfl, by decide +kernel⟩

theorem witness_LaneFollowsItsCommands_15 : ∃ (l : Fin 24) (y : LineBits) (r : List LineBits) (s : State), Safety.calm s
    ∧ laneRuns s l = true ∧ s.rdf .LOOP_CTRL 0 3 (pageOf (.lane l)) = 3 ∧ (s.lane l).echo = y :: r :=
  ⟨23, ⟨512, 5⟩, [], ({ sLane with lanes := [(23, { echo := [⟨512, 5⟩] })] } : State).wr .LOOP_CTRL 3 0x217, rfl, by
    decide +kernel⟩

theorem witness_BondingFollowsItsCommands_1 : ∃ (g : Fin 4) (ms : List MarkerSeen) (s : State), Safety.calm s ∧ (s.group
    g).state = .search ∧ ((∀ l ∈ members s g, lockOf s l = true ∧ s.up (.lane l) = true)) ∧ markersMet s g ms = true :=
  ⟨3, [⟨0, .com, 5⟩, ⟨1, .com, 69⟩], sBond .search, rfl, by decide +kernel⟩

theorem witness_BondingFollowsItsCommands_2 : ∃ (g : Fin 4) (ms : List MarkerSeen) (s : State), Safety.calm s ∧
    markersMet s g ms = false :=
  ⟨3, [⟨0, .com, 5⟩, ⟨1, .com, 70⟩], sBond .search, rfl, by decide +kernel⟩

theorem witness_BondingFollowsItsCommands_3 : ∃ (g : Fin 4) (spread : Nat) (s : State), Safety.calm s ∧ (s.group g).state
    = .search ∧ (s.group g).skewed = false ∧ 64 < spread :=
  ⟨3, 65, sBond .search, rfl, by decide +kernel⟩

theorem witness_BondingFollowsItsCommands_4 : ∃ (g : Fin 4) (s : State), Safety.calm s ∧ (s.group g).state = .aligned :=
  ⟨3, sBond .aligned, rfl, by decide +kernel⟩

/-! Chapter 4. -/

theorem witness_TreesFollowTheirCommands_1 : ∃ (q : Requester) (n : Fin 8) (v : Word) (s : State), Safety.calm s ∧
    Safety.serves s q .heath .HTH_CLK_CTRL 0 n ∧ fld v 0 5 < 19 ∧ ((7 ≤ fld v 0 5 ∧ fld v 0 5 ≤ 14 → fld v 5 2 ≠ 0)) :=
  ⟨.host, 7, 0xA1, s0, rfl, serves_of (by decide +kernel), by decide +kernel⟩

theorem witness_TreesFollowTheirCommands_2 : ∃ (n : Fin 8) (s : State), Safety.calm s ∧ s.ready .heath = true ∧ treeOn s
    n = true ∧ sourceRuns s (treeSrc s n) = true :=
  ⟨7, ({ s0.wr .HTH_CLK_CTRL 0x91 0 7 with heath := { switching := [7] } } : State), rfl, by decide +kernel⟩

theorem witness_TreesFollowTheirCommands_3 : ∃ (n : Fin 8) (s : State), Safety.calm s ∧ s.ready .heath = true ∧ treeOn s
    n = true ∧ treeSrc s n ≠ 17 ∧ (sourceRuns s (treeSrc s n) = false ∨ n.val ∈ s.heath.switching ∨ 16 ≤ treeSrc s n) :=
  ⟨7, ({ s0.wr .HTH_CLK_CTRL 0x81 0 7 with heath := { alive := 0x80 } } : State), rfl, by decide +kernel⟩

theorem witness_TreesFollowTheirCommands_4 : ∃ (a : Nat) (f : HeathForm), a < formDepth f :=
  ⟨1023, .x32, by decide +kernel⟩

theorem witness_TreesFollowTheirCommands_5 : ∃ (m : Nat) (a : Nat) (f : HeathForm), a < formDepth f ∧ ∃ k, ∃ c, (k ≠ m ∨
    c ≠ a) :=
  ⟨239, 1023, .x32, by decide +kernel, 238, 1023, by decide +kernel⟩

theorem witness_TreesFollowTheirCommands_6 : ∃ (a : Nat) (f : HeathForm), formDepth f ≤ a :=
  ⟨1152, .x32, by decide +kernel⟩

theorem witness_TreesFollowTheirCommands_7 : ∃ (a : Nat) (f : HeathForm), a < formDepth f ∧ f ≠ .x64ecc ∧ f ≠ .x64 :=
  ⟨1151, .x32, by decide +kernel⟩

theorem witness_TreesFollowTheirCommands_8 : ∃ (g : Logic) (n : Nat), n < 122880 ∧ g.ffs = true :=
  ⟨({ ffs := true } : Logic), 122879, by decide +kernel⟩

theorem witness_TreesFollowTheirCommands_9 : ∃ (g : Logic), g.ffs = false :=
  ⟨({} : Logic), by decide +kernel⟩

theorem witness_TreesFollowTheirCommands_10 : ∃ (g : Logic), g.we = false :=
  ⟨({} : Logic), by decide +kernel⟩

theorem witness_HeathLoadsAndRuns_1 : ∃ (q : Requester) (s : State), Safety.calm s ∧ Safety.serves s q .heath .HTH_CMD 0
    0 ∧ s.hold = false ∧ hthState s ∉ [1, 2, 4] :=
  ⟨.host, (s0.wr .HTH_LOAD_ADDR 0x10000000000).wr .HTH_RELEASE 7, rfl, serves_of (by decide +kernel), by decide +kernel⟩

theorem witness_HeathLoadsAndRuns_2 : ∃ (q : Requester) (s : State), Safety.calm s ∧ Safety.serves s q .heath .HTH_CMD 0
    0 ∧ hthState s ∈ [1, 2, 4] :=
  ⟨.host, sHth 4, rfl, serves_of (by decide +kernel), by decide +kernel⟩

theorem witness_HeathLoadsAndRuns_3 : ∃ (q : Requester) (s : State), Safety.calm s ∧ Safety.serves s q .heath .HTH_CMD 0
    0 ∧ hthState s = 3 ∧ s.hold = false :=
  ⟨.host, sHth 3, rfl, serves_of (by decide +kernel), by decide +kernel⟩

theorem witness_HeathLoadsAndRuns_4 : ∃ (q : Requester) (s : State), Safety.calm s ∧ Safety.serves s q .heath .HTH_CMD 0
    0 ∧ hthState s = 3 ∧ s.hold = true :=
  ⟨.host, sHold.wr .HTH_STATE 3, rfl, serves_of (by decide +kernel), by decide +kernel⟩

theorem witness_HeathLoadsAndRuns_5 : ∃ (q : Requester) (s : State), Safety.calm s ∧ Safety.serves s q .heath .HTH_CMD 0
    0 ∧ hthState s = 1 :=
  ⟨.host, sHth 1, rfl, serves_of (by decide +kernel), by decide +kernel⟩

theorem witness_HeathLoadsAndRuns_6 : ∃ (bs : List Byte) (s : State), Safety.calm s ∧ hthState s = 1 ∧ s.hold = false ∧
    s.ready .heath = true ∧ reloadWaits s = false ∧ 2 ≤ s.heath.body.length ∧ hthRead s (s.heath.addr + 320 + 136 * (s.rd
    .HTH_LOAD_PROG).toNat) 136 = (s, .ok, bs) ∧ frameCrcOk bs = true ∧ word bs 0 = (s.rd .HTH_LOAD_PROG).toNat ∧ (s.rd
    .HTH_LOAD_PROG).toNat + 1 < min 24576 s.heath.total :=
  ⟨frame0, sLoad, rfl, by decide +kernel⟩

theorem witness_HeathLoadsAndRuns_7 : ∃ (bs : List Byte) (s : State), Safety.calm s ∧ hthState s = 1 ∧ s.hold = false ∧
    s.ready .heath = true ∧ reloadWaits s = false ∧ 2 ≤ s.heath.body.length ∧ hthRead s (s.heath.addr + 320 + 136 * (s.rd
    .HTH_LOAD_PROG).toNat) 136 = (s, .ok, bs) ∧ frameCrcOk bs = true ∧ 24576 ≤ (s.rd .HTH_LOAD_PROG).toNat ∧ (s.rd
    .HTH_LOAD_PROG).toNat + 1 < min 33216 s.heath.total ∧ s.heath.last < word bs 0 ∧ 24576 ≤ word bs 0 ∧ word bs 0 <
    33216 :=
  ⟨frame1, sLoad2, rfl, by decide +kernel⟩

theorem witness_HeathLoadsAndRuns_8 : ∃ (bs : List Byte) (s : State), Safety.calm s ∧ hthState s = 1 ∧ s.hold = false ∧
    s.ready .heath = true ∧ reloadWaits s = false ∧ 2 ≤ s.heath.body.length ∧ hthRead s (s.heath.addr + 320 + 136 * (s.rd
    .HTH_LOAD_PROG).toNat) 136 = (s, .ok, bs) ∧ frameCrcOk bs = false :=
  ⟨List.replicate 136 0, ({ sLoad with mem := [] } : State), rfl, by decide +kernel⟩

theorem witness_HeathLoadsAndRuns_9 : ∃ (s : State), Safety.calm s ∧ hthState s = 2 ∧ s.ready .heath = true :=
  ⟨sHth 2, rfl, by decide +kernel⟩

theorem witness_HeathLoadsAndRuns_10 : ∃ (s : State), Safety.calm s ∧ hthState s = 4 ∧ s.ready .heath = true ∧ treeRuns s
    0 = true ∧ s.rd .HTH_RELEASE = 0 :=
  ⟨({ (sHth 4).wr .HTH_CLK_CTRL 0x91 0 0 with heath := { alive := 1, edging := 1 } } : State), rfl, by decide +kernel⟩

theorem witness_HeathLoadsAndRuns_11 : ∃ (s : State), Safety.calm s ∧ hthState s = 4 ∧ s.ready .heath = true ∧ treeRuns s
    0 = true ∧ s.rd .HTH_RELEASE = 3 :=
  ⟨({ ((sHth 4).wr .HTH_CLK_CTRL 0x91 0 0).wr .HTH_RELEASE 3 with heath := { alive := 1, edging := 1 } } : State), rfl,
    by decide +kernel⟩

theorem witness_HeathLoadsAndRuns_12 : ∃ (u : Option (BitVec 1024)) (bs : List Byte) (x : State) (s : State), Safety.calm
    s ∧ hthState s = 5 ∧ bit (s.rd .HTH_LOAD_CTRL) 2 = true ∧ s.hold = false ∧ s.ready .heath = true ∧ x =
    { s with heath := reframe s.heath (scrubAt s) (upsetFrame (tget [] s.heath.frames (scrubAt s)) u) } ∧ hthRead x
    ((s.rd .HTH_GOLD_ADDR).toNat + 320 + 136 * scrubAt s) 136 = (x, .ok, bs) ∧ frameCrcOk bs = true ∧ frameCrcOk
    (upsetFrame (tget [] s.heath.frames (scrubAt s)) u) = false ∧ scrubAt s + 1 < 24576 :=
  ⟨none, frame0, sScrub, sScrub, rfl, by decide +kernel⟩

theorem witness_HeathLoadsAndRuns_13 : ∃ (q : Requester) (s : State), Safety.calm s ∧ Safety.serves s q .heath
    .HTH_RUN_CLR 0 0 :=
  ⟨.host, s0.wr .HTH_RUN_STATUS 0x100, rfl, serves_of (by decide +kernel)⟩

theorem witness_HeathPortsMoveData_1 : ∃ (l : Fin 24) (s : State), Safety.calm s ∧ groupPort s l = none ∧ heathOut s =
    false :=
  ⟨23, ({ s0 with lanes := [(23, { held := [aHeld] })] } : State), rfl, by decide +kernel⟩

theorem witness_HeathPortsMoveData_2 : ∃ (l : Fin 24) (ds : List Decision) (w : HeldWord) (ws : List HeldWord) (s :
    State), Safety.calm s ∧ groupPort s l = none ∧ heathOut s = true ∧ (s.lane l).held = w :: ws ∧ ((ds = [] ∨ laneClk s
    l = false)) :=
  ⟨23, [aDec], aHeld, [], ({ sRun.wr .HTH_LANE_CLK 7 0 23 with lanes := [(23, { held := [aHeld] })] } : State), rfl, by
    decide +kernel⟩

theorem witness_HeathPortsMoveData_3 : ∃ (l : Fin 24) (d : Decision) (w : HeldWord) (ws : List HeldWord) (s : State),
    Safety.calm s ∧ groupPort s l = none ∧ heathOut s = true ∧ laneClk s l = true ∧ (s.lane l).held = w :: ws ∧
    d.seq.toNat = fld w.sbA 24 8 ∧ d.keep = false ∧ d.sor = true ∧ d.eor = false ∧ (s.port l).cur = none :=
  ⟨23, aDec, aHeld, [], ({ sRun with lanes := [(23, { held := [aHeld] })] } : State), rfl, by decide +kernel⟩

theorem witness_HeathPortsMoveData_4 : ∃ (p : Fin 8) (u : HeathUnit) (s : State), Safety.calm s ∧ heathOut s = true ∧
    treeRuns s (s.rdf .HTH_HCAP_CLK 0 3 0 p) = true ∧ u.sor = true ∧ u.eor = false ∧ (s.port (32 + p)).cur = none :=
  ⟨7, ⟨5, true, false, 31, 6, 3, 8⟩, sRun, rfl, by decide +kernel⟩

theorem witness_HeathPortsMoveData_5 : ∃ (n : Fin 64) (k : HeathToken) (s : State), Safety.calm s ∧ heathOut s = true ∧
    portClk s n 0 = true ∧ k.idle = false ∧ exitReady s n = true :=
  ⟨63, ⟨5, 6, 7, true, false, false, false⟩, sRun.wr .TILE_EP_CFG 5 47 3, rfl, by decide +kernel⟩

theorem witness_HeathPortsMoveData_6 : ∃ (n : Fin 64) (k : Token) (r : List (Token × Option Nat)) (s : State),
    Safety.calm s ∧ heathOut s = true ∧ portClk s n 4 = true ∧ s.up (tileB (portTile n)) = true ∧ bit (s.rd .TILE_XP_CFG
    (portTile n) (n % 4)) 1 = false ∧ tget [] s.discOut n.val = [] ∧ exitStore s n = (k, none) :: r ∧ tget [] (s.tile
    (portTile n)).exitWait (n % 4) = [] :=
  ⟨63, ({ data := 5 } : Token), [], ({ sRun with tiles := [(47, { store := [(3, [({ data := 5 }, none)])] })] } : State),
    rfl, by decide +kernel⟩

theorem witness_HeathPortsMoveData_7 : ∃ (n : Fin 64) (a : Nat) (b : Nat) (r : List (Nat × Nat × Nat)) (s : State),
    Safety.calm s ∧ heathOut s = true ∧ portClk s n 4 = true ∧ s.up (tileB (portTile n)) = true ∧ bit (s.rd .TILE_XP_CFG
    (portTile n) (n % 4)) 1 = false ∧ tget [] s.discOut n.val = (a, b, 0) :: r :=
  ⟨63, 4, 5, [], ({ sRun with discOut := [(63, [(4, 5, 0)])] } : State), rfl, by decide +kernel⟩

/-! Chapter 5. -/

theorem witness_StairFollowsItsCommands_1 : ∃ (q : Requester) (s : State), Safety.calm s ∧ Safety.serves s q .stair
    .STR_CMD 0 0 ∧ armed s = false :=
  ⟨.host, s0, rfl, serves_of (by decide +kernel), by decide +kernel⟩

theorem witness_StairFollowsItsCommands_2 : ∃ (q : Requester) (s : State), Safety.calm s ∧ Safety.serves s q .stair
    .STR_CMD 0 0 ∧ armed s = true :=
  ⟨.host, sArmed, rfl, serves_of (by decide +kernel), by decide +kernel⟩

theorem witness_StairFollowsItsCommands_3 : ∃ (q : Requester) (s : State), Safety.calm s ∧ Safety.serves s q .stair
    .STR_CMD 0 0 :=
  ⟨.host, sArmed, rfl, serves_of (by decide +kernel)⟩

theorem witness_StairFollowsItsCommands_4 : ∃ (s : State), Safety.calm s ∧ s.stair.armReq = true ∧ s.stair.clear = false
    ∧ s.stair.disarmReq = false :=
  ⟨({ (s0.wr .STR_CNT_VAL 9 0 15).wr .STR_CTRL 63 with stair := { armReq := true } } : State), rfl, by decide +kernel⟩

theorem witness_StairFollowsItsCommands_5 : ∃ (s : State), Safety.calm s ∧ s.stair.armReq = false ∧ s.stair.clear = false
    ∧ s.stair.disarmReq = true :=
  ⟨({ sArmed with stair := { disarmReq := true, drive1 := 3, run := 1 } } : State), rfl, by decide +kernel⟩

theorem witness_StairFollowsItsCommands_6 : ∃ (s : State), Safety.calm s ∧ s.stair.armReq = false ∧ s.stair.clear = false
    ∧ s.stair.disarmReq = false ∧ armed s = true ∧ s.rdf .STR_STEP_LUT 0 16 0 (stairStep s) = 0xFFFF ∧ s.rdf
    .STR_STEP_ACT 0 16 0 (stairStep s) = 0 :=
  ⟨sArmed, rfl, by decide +kernel⟩

theorem witness_StairFollowsItsCommands_7 : ∃ (s : State), Safety.calm s :=
  ⟨sArmed, rfl⟩

theorem witness_StairFollowsItsCommands_8 : ∃ (s : State), Safety.calm s :=
  ⟨({ sArmed with stair := { balls := 5, drive1 := 3 } } : State), rfl⟩

theorem witness_StairFollowsItsCommands_9 : ∃ (s : State), Safety.calm s :=
  ⟨({ sArmed with stair := { balls := 5, drive1 := 3 } } : State), rfl⟩

theorem witness_StairFollowsItsCommands_10 : ∃ (s : State), Safety.calm s ∧ bit (s.rd .STR_STATUS) 16 = true :=
  ⟨({ s0.wr .STR_STATUS 0x10000 with stair := { drive1 := 3 } } : State), rfl, by decide +kernel⟩

theorem witness_StairFollowsItsCommands_11 : ∃ (e : Fin 8) (level : Bool) (n : Nat) (s : State), Safety.calm s ∧ bit
    (s.rd .STR_ES_CTRL 0 e) 0 = true ∧ s.rdf .STR_ES_CTRL 4 4 0 e ≤ n ∧ stampPad s e = true ∧ s.stair.es.getLsbD e ≠
    level ∧ bit (s.rd .STR_ES_CTRL 0 e) 3 = true ∧ s.rdf .STR_ES_CTRL 1 2 0 e = 2 ∧ s.stair.fifo.length < 64 :=
  ⟨7, true, 15, sStamp 63, rfl, by decide +kernel⟩

theorem witness_StairFollowsItsCommands_12 : ∃ (e : Fin 8) (level : Bool) (n : Nat) (s : State), Safety.calm s ∧ bit
    (s.rd .STR_ES_CTRL 0 e) 0 = true ∧ s.rdf .STR_ES_CTRL 4 4 0 e ≤ n ∧ stampPad s e = true ∧ s.stair.es.getLsbD e ≠
    level ∧ bit (s.rd .STR_ES_CTRL 0 e) 3 = true ∧ s.rdf .STR_ES_CTRL 1 2 0 e = 2 ∧ s.stair.fifo.length = 64 ∧ ((∀ y ∈
    s.stair.fifo, y.edge = s.stair.edges → y.source ≤ e)) :=
  ⟨7, true, 15, sStamp 64, rfl, by decide +kernel⟩

theorem witness_StairFollowsItsCommands_13 : ∃ (e : Fin 8) (n : Nat) (s : State), Safety.calm s ∧ n < s.rdf .STR_ES_CTRL
    4 4 0 e :=
  ⟨7, 14, sStamp 63, rfl, by decide +kernel⟩

theorem witness_StairFollowsItsCommands_14 : ∃ (q : Requester) (s : State), Safety.calm s ∧ Safety.serves s q .stair
    .STR_STAMP_POP 0 0 :=
  ⟨.host, sStamp 64, rfl, serves_of (by decide +kernel)⟩

/-! Chapter 6. -/

theorem witness_QueuesTurnOnAndOff_1 : ∃ (q : Requester) (n : Fin 1024) (v : Word) (s : State), Safety.calm s ∧
    Safety.serves s q .gallery .GQ_CTRL n 0 ∧ gqEn s n = false ∧ bindValid (ext v) (s.rd .GQ_BIND n) = true ∧ regionValid
    (s.wr .GQ_CTRL (ext v) n) n = true ∧ ((∀ k, k ∈ enabledQueues s → bindClash s n k = false)) :=
  ⟨.host, 1023, 2, (sQ 1 0 0 64 32 16).wr .GQ_CTRL 2 1023, rfl, serves_of (by decide +kernel), by decide +kernel⟩

theorem witness_QueuesTurnOnAndOff_2 : ∃ (q : Requester) (n : Fin 1024) (v : Word) (s : State), Safety.calm s ∧
    Safety.serves s q .gallery .GQ_CTRL n 0 ∧ gqEn s n = false ∧ fld v 1 3 < 4 ∧ s.rd .FAULT_COUNT (pageOf .gallery) = 0
    ∧ ((bindValid (ext v) (s.rd .GQ_BIND n) = false ∨ regionValid (s.wr .GQ_CTRL (ext v) n) n = false)) :=
  ⟨.host, 1023, 2, (s0.wr .GQ_GEOM 16 1023).wr .GQ_BIND 0 1023, rfl, serves_of (by decide +kernel), by decide +kernel⟩

theorem witness_QueuesTurnOnAndOff_3 : ∃ (q : Requester) (n : Fin 1024) (v : Word) (s : State), Safety.calm s ∧
    Safety.serves s q .gallery .GQ_CTRL n 0 ∧ gqEn s n = true ∧ ext (v &&& 0xFFFFFFFE) = setBit (s.rd .GQ_CTRL n) 0 false
    ∧ gqKind s n < 4 ∧ gqKind s n ≠ 2 ∧ Safety.nobodyWaits s n :=
  ⟨.host, 1023, 2, sQ 1 0 0 64 32 16, rfl, serves_of (by decide +kernel), by decide +kernel, by decide +kernel, by
    decide +kernel, by decide +kernel, by unfold Safety.nobodyWaits; decide +kernel⟩

theorem witness_QueuesTurnOnAndOff_4 : ∃ (q : Requester) (n : Fin 1024) (v : Word) (s : State), Safety.calm s ∧
    Safety.serves s q .gallery .GQ_CTRL n 0 ∧ gqEn s n = true ∧ fld v 1 3 ≠ gqKind s n ∧ fld v 1 3 < 4 ∧ s.rd
    .FAULT_COUNT (pageOf .gallery) = 0 :=
  ⟨.host, 1023, 4, sQ 1 0 0 64 32 16, rfl, serves_of (by decide +kernel), by decide +kernel⟩

theorem witness_ConsumersReadAndRelease_1 : ∃ (q : Requester) (p : Fin 8) (n : Fin 1024) (s : State), Safety.calm s ∧
    Safety.servesWide s q .gallery .GAL_OP 0 p ∧ Safety.copiesAgree s ∧ gqEn s n = true ∧ (gqCons s n).1 = 0 ∧ (s.queue
    n).skips = [] ∧ (s.queue n).head = [] ∧ gqRead s n < gqWrite s n ∧ gqReady s n (gqRead s n) (readTake s n) = true ∧
    gqBad s n (gqRead s n) (readTake s n) = false :=
  ⟨.host, 7, 1023, sQ 1 0 0 65536 65520 0, rfl, servesWide_of (serves_of (by decide +kernel)) (by decide +kernel),
    by unfold Safety.copiesAgree; decide +kernel, by decide +kernel⟩

theorem witness_ConsumersReadAndRelease_2 : ∃ (q : Requester) (p : Fin 8) (n : Fin 1024) (s : State), Safety.calm s ∧
    Safety.servesWide s q .gallery .GAL_OP 0 p ∧ Safety.copiesAgree s ∧ gqEn s n = true ∧ (gqCons s n).1 = 0 ∧ (s.queue
    n).skips = [] ∧ gqRead s n = gqWrite s n :=
  ⟨.host, 7, 1023, sQ 1 0 0 64 64 0, rfl, servesWide_of (serves_of (by decide +kernel)) (by decide +kernel),
    by unfold Safety.copiesAgree; decide +kernel, by decide +kernel⟩

theorem witness_ConsumersReadAndRelease_3 : ∃ (q : Requester) (p : Fin 8) (n : Fin 1024) (s : State), Safety.calm s ∧
    Safety.servesWide s q .gallery .GAL_OP 0 p ∧ gqEn s n = true ∧ (gqCons s n).1 = 0 ∧ gqRead s n ≠ gqWrite s n ∧
    gqReady s n (gqRead s n) (readTake s n) = false :=
  ⟨.host, 7, 1023, (sQ 1 0 0 64 48 0).wr .MC_STATUS 0 0, rfl, servesWide_of (serves_of (by decide +kernel)) (by
    decide +kernel), by decide +kernel⟩

theorem witness_ConsumersReadAndRelease_4 : ∃ (q : Requester) (p : Fin 8) (n : Fin 1024) (s : State), Safety.calm s ∧
    Safety.servesWide s q .gallery .GAL_OP 0 p ∧ Safety.copiesAgree s ∧ gqEn s n = true ∧ (gqCons s n).1 = 0 ∧ (s.queue
    n).skips = [] :=
  ⟨.host, 7, 1023, sQ 1 0 0 64 48 0, rfl, servesWide_of (serves_of (by decide +kernel)) (by decide +kernel),
    by unfold Safety.copiesAgree; decide +kernel, by decide +kernel⟩

theorem witness_ConsumersReadAndRelease_5 : ∃ (q : Requester) (p : Fin 8) (n : Fin 1024) (s : State), Safety.calm s ∧
    Safety.servesWide s q .gallery .GAL_OP 0 p ∧ Safety.copiesAgree s ∧ gqEn s n = true ∧ (((gqCons s n).1 = 0 ∨ (gqCons
    s n).1 = 5)) ∧ gqEpochMark s n = false :=
  ⟨.host, 7, 1023, sQ 1 0 0 64 48 0, rfl, servesWide_of (serves_of (by decide +kernel)) (by decide +kernel),
    by unfold Safety.copiesAgree; decide +kernel, by decide +kernel⟩

theorem witness_ConsumersReadAndRelease_6 : ∃ (q : Requester) (p : Fin 8) (n : Fin 1024) (s : State), Safety.calm s ∧
    Safety.servesWide s q .gallery .GAL_OP 0 p ∧ Safety.copiesAgree s ∧ gqEn s n = true ∧ (((gqCons s n).1 = 0 ∨ (gqCons
    s n).1 = 5)) ∧ gqEpochMark s n = false ∧ gqKind s n ≠ 2 ∧ (s.queue n).skips = [] :=
  ⟨.host, 7, 1023, twinned ((sQ 1 0 0 64 48 0).wr .GQ_MARK 0x8000000000000010 1023), rfl, servesWide_of (serves_of (by
    decide +kernel)) (by decide +kernel), by unfold Safety.copiesAgree; decide +kernel, by decide +kernel⟩

theorem witness_ConsumersReadAndRelease_7 : ∃ (q : Requester) (p : Fin 8) (n : Fin 1024) (s : State), Safety.calm s ∧
    Safety.servesWide s q .gallery .GAL_OP 0 p ∧ Safety.copiesAgree s ∧ gqEn s n = true ∧ (((gqCons s n).1 = 0 ∨ (gqCons
    s n).1 = 5)) ∧ gqEpochMark s n = false ∧ (s.queue n).skips = [] ∧ gqFree s n ≤ gqRead s n :=
  ⟨.host, 7, 1023, twinned ((sQ 1 0 5 64 48 0).wr .GQ_MARK 0x8000000000000010 1023), rfl, servesWide_of (serves_of (by
    decide +kernel)) (by decide +kernel), by unfold Safety.copiesAgree; decide +kernel, by decide +kernel⟩

theorem witness_ConsumersReadAndRelease_8 : ∃ (q : Requester) (p : Fin 8) (n : Fin 1024) (arg : BitVec 38) (s : State),
    Safety.calm s ∧ Safety.servesWide s q .gallery .GAL_OP 0 p ∧ Safety.copiesAgree s ∧ gqEn s n = true ∧ gqEpochMark s n
    = true ∧ (gqCons s n).1 = 0 ∧ (s.queue n).skips = [] ∧ gqMark s n = none ∧ arg = 0 ∧ gqFree s n + gqRelpend s n ≤
    gqRead s n ∧ gqRead s n - gqFree s n < 2 ^ 36 ∧ (gqRead s n - gqFree s n) % 16 = 0 :=
  ⟨.host, 7, 1023, 0, (sQ 1 0 0 64 48 0).wr .GQ_CTRL 0x43 1023, rfl, servesWide_of (serves_of (by decide +kernel)) (by
    decide +kernel), by unfold Safety.copiesAgree; decide +kernel, by decide +kernel⟩

theorem witness_ProducersWriteAndReset_1 : ∃ (q : Requester) (p : Fin 8) (n : Fin 1024) (s : State), Safety.calm s ∧
    Safety.servesWide s q .gallery .GAL_OP 0 p ∧ Safety.copiesAgree s ∧ gqEn s n = true ∧ (gqProd s n).1 = 0 ∧ (gqCons s
    n).1 ≠ 5 ∧ gqPing s n = false ∧ gqKind s n ≠ 2 ∧ (s.queue n).beyond = [] ∧ (s.queue n).skips = [] :=
  ⟨.host, 7, 1023, sQ 1 0 0 65520 48 0, rfl, servesWide_of (serves_of (by decide +kernel)) (by decide +kernel),
    by unfold Safety.copiesAgree; decide +kernel, by decide +kernel⟩

theorem witness_ProducersWriteAndReset_2 : ∃ (q : Requester) (p : Fin 8) (n : Fin 1024) (s : State), Safety.calm s ∧
    Safety.servesWide s q .gallery .GAL_OP 0 p ∧ Safety.copiesAgree s ∧ gqEn s n = true ∧ (gqProd s n).1 = 0 ∧ (gqCons s
    n).1 ≠ 5 ∧ gqPing s n = true ∧ gqKind s n ≠ 0 ∧ (s.queue n).beyond = [] ∧ (s.queue n).full < gqWrite s n ∧ gqWrite s
    n < (s.queue n).full + gqHalf s n ∧ (s.queue n).full + gqHalf s n < 2 ^ 64 :=
  ⟨.host, 7, 1023, sPing, rfl, servesWide_of (serves_of (by decide +kernel)) (by decide +kernel),
    by unfold Safety.copiesAgree; decide +kernel, by decide +kernel⟩

theorem witness_ProducersWriteAndReset_3 : ∃ (q : Requester) (p : Fin 8) (n : Fin 1024) (s : State), Safety.calm s ∧
    Safety.servesWide s q .gallery .GAL_OP 0 p ∧ Safety.copiesAgree s ∧ gqEn s n = true ∧ gqKind s n ≠ 2 :=
  ⟨.host, 7, 1023, twinned
    { sQ 1 3 0 64 48 16 with queues := [(1023, { entries := 3, beyond := [{ len := 16, hold := some 4 }] })] }, rfl,
    servesWide_of (serves_of (by decide +kernel)) (by decide +kernel), by unfold Safety.copiesAgree; decide +kernel, by
    decide +kernel⟩

theorem witness_ProducersWriteAndReset_4 : ∃ (q : Requester) (p : Fin 8) (n : Fin 1024) (arg : BitVec 38) (i : Instr) (s
    : State), Safety.calm s ∧ Safety.servesWide s q .gallery .GAL_OP 0 p ∧ gqEn s n = false ∧ i ∈ [Instr.read q p n arg,
    .advance q p n arg, .mark q p n arg, .rewind q p n arg, .release q p n arg, .writeAdv q p n arg, .flush q p n arg,
    .reset q p n arg] :=
  ⟨.host, 0, 1023, 0, .flush .host 0 1023 0, s0, rfl, servesWide_of (serves_of (by decide +kernel)) (by decide +kernel),
    by decide +kernel⟩

theorem witness_ProducersWriteAndReset_5 : ∃ (q : Requester) (p : Fin 8) (n : Fin 1024) (s : State), Safety.calm s ∧
    Safety.servesWide s q .gallery .GAL_OP 0 p ∧ gqEn s n = true ∧ (gqCons s n).1 ≠ 0 :=
  ⟨.host, 0, 1023, sQ 1 0 1 64 48 16, rfl, servesWide_of (serves_of (by decide +kernel)) (by decide +kernel), by
    decide +kernel⟩

theorem witness_EngineMovesRecords_1 : ∃ (p : Fin 40) (r : Rec) (rest : List Rec) (n : Nat) (s : State), Safety.calm s ∧
    galleryUp s = true ∧ (s.port p).closed = r :: rest ∧ queueOfProd s (Safety.capKey p).1 (Safety.capKey p).2 (some
    r.slot) = some n ∧ gateAt (s.queue n) r.stamp = true ∧ gqPing s n = false ∧ (s.queue n).beyond = [] ∧ (s.queue
    n).skips = [] ∧ (32 + (r.payload.length + 31) / 32 * 32) ≤ gqCap s n ∧ (gqWrite s n) + (32 + (r.payload.length + 31)
    / 32 * 32) ≤ gqFree s n + gqCap s n ∧ gqReady s n (gqWrite s n) (32 + (r.payload.length + 31) / 32 * 32) = true :=
  ⟨23, aRec, [], 1023, sCap 0, rfl, by decide +kernel⟩

theorem witness_EngineMovesRecords_2 : ∃ (p : Fin 40) (r : Rec) (rest : List Rec) (s : State), Safety.calm s ∧ galleryUp
    s = true ∧ (s.port p).closed = r :: rest ∧ queueOfProd s (Safety.capKey p).1 (Safety.capKey p).2 (some r.slot) = none
    :=
  ⟨23, aRec, [], ({ s0 with ports := [(23, { closed := [aRec] })] } : State), rfl, by decide +kernel⟩

theorem witness_EngineMovesRecords_3 : ∃ (p : Fin 40) (r : Rec) (rest : List Rec) (n : Nat) (s : State), Safety.calm s ∧
    galleryUp s = true ∧ (s.port p).closed = r :: rest ∧ queueOfProd s (Safety.capKey p).1 (Safety.capKey p).2 (some
    r.slot) = some n ∧ gateAt (s.queue n) r.stamp = true ∧ (s.queue n).beyond = [] ∧ gqReady s n (gqWrite s n) (32 +
    (r.payload.length + 31) / 32 * 32) = false :=
  ⟨23, aRec, [], 1023, (sCap 0).wr .MC_STATUS 0 0, rfl, by decide +kernel⟩

theorem witness_EngineMovesRecords_4 : ∃ (n : Fin 1024) (e : Ext) (s : State), Safety.calm s ∧ Safety.copiesAgree s ∧
    galleryUp s = true ∧ gqEn s n = true ∧ gqKind s n = 0 ∧ gqPing s n = false ∧ (s.queue n).beyond = [e] ∧ (s.queue
    n).skips = [] ∧ e.ready = false ∧ e.hold = none ∧ e.entries ≠ 0 :=
  ⟨1023, ({ len := 64, ready := false, mark := true } : Ext), twinned
    { sQ 0 1 0 64 48 16 with queues := [(1023, { beyond := [{ len := 64, ready := false, mark := true }] })] }, rfl,
    by unfold Safety.copiesAgree; decide +kernel, by decide +kernel⟩

theorem witness_EngineMovesRecords_5 : ∃ (n : Fin 1024) (s : State), Safety.calm s ∧ galleryUp s = true ∧ gqEn s n = true
    ∧ (s.queue n).stalled = true ∧ (s.queue n).gaps = [] ∧ Safety.nobodyWaits s n :=
  ⟨1023, twinned { sQ 1 4 0 64 48 16 with queues := [(1023, { stalled := true })] }, rfl, by decide +kernel, by
    decide +kernel, by decide +kernel, by decide +kernel, by unfold Safety.nobodyWaits; decide +kernel⟩

theorem witness_EngineMovesRecords_6 : ∃ (n : Fin 1024) (p : Nat) (bs : List Byte) (s : State), Safety.calm s ∧ galleryUp
    s = true ∧ gqEn s n = true ∧ (s.queue n).tail = [(p, bs)] ∧ gqReady s n p bs.length = true ∧ bs.length ≤ gqCap s n ∧
    (s.queue n).gaps = [] ∧ Safety.nobodyWaits s n :=
  ⟨1023, 65536 - 16, List.replicate 16 7, twinned
    { sQ 1 4 0 64 48 16 with queues := [(1023, { stalled := true, tail := [(65536 - 16, List.replicate 16 7)] })] }, rfl,
    by decide +kernel, by decide +kernel, by decide +kernel, by decide +kernel, by decide +kernel, by decide +kernel,
    by unfold Safety.nobodyWaits; decide +kernel⟩

theorem witness_EngineMovesRecords_7 : ∃ (s : State), Safety.calm s ∧ Safety.copiesAgree s :=
  ⟨s0, rfl, by unfold Safety.copiesAgree; decide +kernel⟩

theorem witness_EngineMovesRecords_8 : ∃ (x : PosBad) (s : State), Safety.calm s ∧ Safety.copiesAgree s ∧ galleryUp s =
    true ∧ gqEn s x.queue = true ∧ x.a ≠ x.b ∧ x.later = false ∧ gqKind s x.queue ≠ 2 ∧ ((∀ d, d < 4 → x.queue.val ∉
    domInputs s d)) ∧ s.rd .FAULT_COUNT (pageOf .gallery) = 0 :=
  ⟨⟨1023, 1, 5, 6, false⟩, twinned { sQ 1 0 0 64 48 16 with queues := [(1023, { entries := 3 })] }, rfl,
    by unfold Safety.copiesAgree; decide +kernel, by decide +kernel⟩

/-! Chapter 7. -/

theorem witness_ChannelsFollowTheirCommands_1 : ∃ (q : Requester) (c : Fin 8) (s : State), Safety.calm s ∧ Safety.serves
    s q (.mc c) .BLK_CTRL (pageOf (.mc c)) 0 ∧ s.en (.mc c) = false ∧ s.rdf .BLK_CTRL 1 3 (pageOf (.mc c)) = 0 ∧ c.val <
    2 ^ nchLog s ∧ mcState s c = 0 ∧ mcBroken s c = 0 :=
  ⟨.host, 7, sDimm, rfl, serves_of (by decide +kernel), by decide +kernel⟩

theorem witness_ChannelsFollowTheirCommands_2 : ∃ (q : Requester) (c : Fin 8) (s : State), Safety.calm s ∧ Safety.serves
    s q (.mc c) .BLK_CTRL (pageOf (.mc c)) 0 ∧ s.en (.mc c) = false ∧ s.rdf .BLK_CTRL 1 3 (pageOf (.mc c)) = 0 ∧ c.val <
    2 ^ nchLog s ∧ mcState s c = 0 ∧ mcBroken s c ≠ 0 ∧ s.rd .FAULT_COUNT (pageOf (.mc c)) = 0 :=
  ⟨.host, 7, sDimm.wr .MC_DIMM0 0 7, rfl, serves_of (by decide +kernel), by decide +kernel⟩

theorem witness_ChannelsFollowTheirCommands_3 : ∃ (q : Requester) (c : Fin 8) (s : State), Safety.calm s ∧ Safety.serves
    s q (.mc c) .BLK_CTRL (pageOf (.mc c)) 0 ∧ (s.en (.mc c) = true ∨ mcState s c = 4) ∧ s.rdf .BLK_CTRL 1 3 (pageOf (.mc
    c)) = 0 :=
  ⟨.host, 7, sMc 0xB, rfl, serves_of (by decide +kernel), by decide +kernel⟩

theorem witness_ChannelsFollowTheirCommands_4 : ∃ (q : Requester) (c : Fin 8) (s : State), Safety.calm s ∧ Safety.serves
    s q (.mc c) .MC_CMD c 0 :=
  ⟨.host, 7, sMc 0xB, rfl, serves_of (by decide +kernel)⟩

theorem witness_ChannelsFollowTheirCommands_5 : ∃ (q : Requester) (c : Fin 8) (s : State), Safety.calm s ∧ Safety.serves
    s q (.mc c) .MC_CMD c 0 :=
  ⟨.host, 7, sMc 0xB, rfl, serves_of (by decide +kernel)⟩

theorem witness_ChannelsFollowTheirCommands_6 : ∃ (q : Requester) (c : Fin 8) (s : State), Safety.calm s ∧ Safety.serves
    s q (.mc c) .MC_CMD c 0 :=
  ⟨.host, 7, sMc 0xC, rfl, serves_of (by decide +kernel)⟩

theorem witness_ChannelsFollowTheirCommands_7 : ∃ (q : Requester) (c : Fin 8) (s : State), Safety.calm s ∧ Safety.serves
    s q (.mc c) .MC_CMD c 0 :=
  ⟨.host, 7, (sMc 0xB).wr .LOOP_CTRL 1 (pageOf (.mc 7)), rfl, serves_of (by decide +kernel)⟩

theorem witness_ChannelsReportWhatTheyFind_1 : ∃ (c : Fin 8) (s : State), Safety.calm s ∧ mcState s c = 1 ∧ s.live (.mc
    c) = true :=
  ⟨7, sMc 1, rfl, by decide +kernel⟩

theorem witness_ChannelsReportWhatTheyFind_2 : ∃ (c : Fin 8) (dq : List (Fin 72 × BitVec 25)) (s : State), Safety.calm s
    ∧ mcState s c = 2 ∧ s.live (.mc c) = true ∧ (dq.map (·.1)).Nodup :=
  ⟨7, [(71, 5), (0, 6)], sMc 2, rfl, by decide +kernel⟩

theorem witness_ChannelsReportWhatTheyFind_3 : ∃ (c : Fin 8) (step : Fin 5) (rank : Fin 16) (s : State), Safety.calm s ∧
    mcState s c = 2 ∧ s.live (.mc c) = true ∧ trains s c step = true ∧ rank.val < mcRanks s c :=
  ⟨7, 4, 1, sMc 2, rfl, by decide +kernel⟩

theorem witness_ChannelsReportWhatTheyFind_4 : ∃ (c : Fin 8) (s : State), Safety.calm s ∧ mcState s c = 3 ∧ s.live (.mc
    c) = true ∧ bit (s.rd .MC_CFG c) 8 = true :=
  ⟨7, ({ sMc 3 with mcs := [(7, { caparFails := 2 })] } : State), rfl, by decide +kernel⟩

theorem witness_ChannelsReportWhatTheyFind_5 : ∃ (c : Fin 8) (s : State), Safety.calm s ∧ mcState s c = 3 ∧ s.live (.mc
    c) = true :=
  ⟨7, sMc 0xB, rfl, by decide +kernel⟩

theorem witness_ChannelsReportWhatTheyFind_6 : ∃ (c : Fin 8) (s : State), Safety.calm s ∧ s.live (.mc c) = true ∧ mcState
    s c = 3 ∧ s.rdf .MC_SHARE 0 8 c + s.rdf .MC_SHARE 8 8 c ≤ 240 :=
  ⟨7, (sMc 0xB).wr .MC_SHARE 0x7878 7, rfl, by decide +kernel⟩

theorem witness_ChannelsReportWhatTheyFind_7 : ∃ (c : Fin 8) (s : State), Safety.calm s ∧ mcState s c = 3 ∧ s.live (.mc
    c) = true ∧ bit (s.rd .MC_SCRUB_CTRL c) 0 = true ∧ (s.mc c).scrubAt + 1 < mcGiB s c * 2 ^ 24 :=
  ⟨7, ({ sMc 0xB with mcs := [(7, { scrubAt := 16 * 2 ^ 24 - 2 })] } : State), rfl, by decide +kernel⟩

theorem witness_ChannelsReportWhatTheyFind_8 : ∃ (c : Fin 8) (s : State), Safety.calm s ∧ mcState s c = 3 ∧ s.live (.mc
    c) = true ∧ bit (s.rd .MC_SCRUB_CTRL c) 0 = true ∧ (s.mc c).scrubAt + 1 = max 1 (mcGiB s c * 2 ^ 24) :=
  ⟨7, ({ sMc 0xB with mcs := [(7, { scrubAt := 16 * 2 ^ 24 - 1 })] } : State), rfl, by decide +kernel⟩

theorem witness_ChannelsReportWhatTheyFind_9 : ∃ (c : Fin 8) (s : State), Safety.calm s ∧ bit (s.rd .MC_STATUS c) 5 =
    true ∧ s.up (.mc c) = true :=
  ⟨7, sMc 0x2B, rfl, by decide +kernel⟩

theorem witness_ChannelsReportWhatTheyFind_10 : ∃ (s : State) (c : Nat), c < 2 ^ nchLog s :=
  ⟨sDimm, 0, by decide +kernel⟩

theorem witness_ChannelsReportWhatTheyFind_11 : ∃ (s : State) (c : Nat) (x : Nat) (y : Nat), dramOf s c x = dramOf s c y
    :=
  ⟨sDimm, 7, 0x1FFF, 0x1FFF, by decide +kernel⟩

/-! Chapter 8. -/

theorem witness_TokensReachTheirPorts_1 : ∃ (t : Fin 48) (src : Fin 141) (k : Sent) (s : State), Safety.calm s ∧
    Safety.arrives s t src k ∧ (portOf s k.tile (Safety.portAt k)).head ≠ .fresh ∧ (portOf s k.tile (Safety.portAt
    k)).waiting = [] ∧ (portOf s k.tile (Safety.portAt k)).buf.length < 4 :=
  ⟨47, 140, aSent 2, sTile
    { sent := [(140, [aSent 2])], ports := [(191, { buf := [aTok, aTok, aTok], head := .spill })] }, rfl,
    by unfold Safety.arrives Safety.staysCalm; decide +kernel, by decide +kernel⟩

theorem witness_TokensReachTheirPorts_2 : ∃ (t : Fin 48) (src : Fin 141) (k : Sent) (s : State), Safety.calm s ∧
    Safety.arrives s t src k ∧ 4 ≤ (portOf s k.tile (Safety.portAt k)).buf.length ∧ (portOf s k.tile (Safety.portAt
    k)).head ≠ .fresh ∧ (portOf s k.tile (Safety.portAt k)).waiting.contains src.val = false :=
  ⟨47, 140, aSent 2, sTile
    { sent := [(140, [aSent 2])], ports := [(191, { buf := [aTok, aTok, aTok, aTok], head := .spill })] }, rfl,
    by unfold Safety.arrives Safety.staysCalm; decide +kernel, by decide +kernel⟩

theorem witness_TokensReachTheirPorts_3 : ∃ (t : Fin 48) (src : Fin 141) (k : Sent) (s : State), Safety.calm s ∧
    Safety.arrives s t src k ∧ portOf s k.tile (Safety.portAt k) = {} ∧ cOp (Safety.wordFor s k) ≠ 0 ∧ cSel
    (Safety.wordFor s k) k.port = 1 ∧ cPorts (Safety.wordFor s k) = 1 :=
  ⟨47, 140, aSent 2, withWord (sTile { sent := [(140, [aSent 2])] }) (cw 1 0 0 1 2), rfl,
    by unfold Safety.arrives Safety.staysCalm; decide +kernel, by decide +kernel⟩

theorem witness_TokensReachTheirPorts_4 : ∃ (t : Fin 48) (src : Fin 141) (k : Sent) (s : State), Safety.calm s ∧
    Safety.arrives s t src k ∧ k.tile < 48 ∧ portOf s k.tile (Safety.portAt k) = {} ∧ cOp (Safety.wordFor s k) = 0 :=
  ⟨47, 140, aSent 2, sTile { sent := [(140, [aSent 2])] }, rfl,
    by unfold Safety.arrives Safety.staysCalm; decide +kernel, by decide +kernel⟩

theorem witness_TokensReachTheirPorts_5 : ∃ (t : Fin 48) (src : Fin 141) (k : Sent) (w : Nat) (ws : List Nat) (s :
    State), Safety.calm s ∧ Safety.arrives s t src k ∧ portOf s k.tile (Safety.portAt k) = {} ∧ k.tok.epoch = (s.tile
    k.tile).epoch ∧ cOp (Safety.wordFor s k) ≠ 0 ∧ k.port < 2 ∧ cSel (Safety.wordFor s k) k.port = 1 ∧ cPorts
    (Safety.wordFor s k) = 2 ∧ spillEn s k.tile = false ∧ findWay (s.tile k.tile) (hallIndex s k.tile k.fu k.tok) k.fu
    k.tok (1 - k.port) = none ∧ freeWays (s.tile k.tile) (hallIndex s k.tile k.fu k.tok) = w :: ws :=
  ⟨47, 140, aSent 1, way0, [way0 + 1, way0 + 2, way0 + 3], withWord (sTile { sent := [(140, [aSent 1])] }) (cw 1 1 1 0
    2), rfl, by unfold Safety.arrives Safety.staysCalm; decide +kernel, by decide +kernel⟩

theorem witness_TokensReachTheirPorts_6 : ∃ (t : Fin 48) (src : Fin 141) (k : Sent) (w : Nat) (e : HEntry) (s : State),
    Safety.calm s ∧ Safety.arrives s t src k ∧ portOf s k.tile (Safety.portAt k) = {} ∧ k.tok.epoch = (s.tile
    k.tile).epoch ∧ cOp (Safety.wordFor s k) ≠ 0 ∧ k.port < 2 ∧ cSel (Safety.wordFor s k) k.port = 1 ∧ cPorts
    (Safety.wordFor s k) = 2 ∧ findWay (s.tile k.tile) (hallIndex s k.tile k.fu k.tok) k.fu k.tok (1 - k.port) = some (w,
    e) :=
  ⟨47, 140, aSent 1, way0, ({ fu := 63, kind := 0, one := aTok } : HEntry), sPair, rfl,
    by unfold Safety.arrives Safety.staysCalm; decide +kernel, by decide +kernel⟩

theorem witness_TokensReachTheirPorts_7 : ∃ (t : Fin 48) (src : Fin 141) (k : Sent) (s : State), Safety.calm s ∧
    Safety.arrives s t src k ∧ s.rd .FAULT_COUNT (pageOf (.tile t)) = 0 :=
  ⟨47, 140, aSent 2, sTile { sent := [(140, [aSent 2])] }, rfl,
    by unfold Safety.arrives Safety.staysCalm; decide +kernel, by decide +kernel⟩

theorem witness_OperationsFire_1 : ∃ (t : Fin 48) (f : Fin 64) (p : Fin 3) (x : Nat) (a : Option Token) (b : Option
    Token) (c : Option Token) (k : Token) (s : State), Safety.calm s ∧ tileRuns s t = true ∧ portOf s t (3 * f + p) =
    { buf := [k], head := .ready x a b c, waiting := [] } ∧ issueWaits s t f = false ∧ fits (ctxWord s t f x) a b c =
    true ∧ cOp (ctxWord s t f x) < 0x28 ∧ Safety.outputsGo t (ctxWord s t f x) ∧ outputsEmpty s t f (ctxWord s t f x) =
    true ∧ inflight s t < flightCap t :=
  ⟨47, 63, 1, 15, some aTok, some aTok, none, aTok, withWord (sTile
    { ports := [(190, { buf := [aTok], head := .ready 15 (some aTok) (some aTok) none })] }) (cw 1 1 1 0 2), rfl, by
    decide +kernel, by decide +kernel, by decide +kernel, by decide +kernel, by decide +kernel,
    by rintro o (rfl | rfl) <;> decide +kernel, by decide +kernel⟩

theorem witness_OperationsFire_2 : ∃ (t : Fin 48) (f : Fin 64) (p : Fin 3) (s : State), Safety.calm s ∧ (inflight s t =
    flightCap t ∨ issueWaits s t f = true) ∧ Safety.headFits s t f p = true :=
  ⟨20, 63, 1, ({ s0 with tiles := [(20, { ops := (List.range 256).map fun i => (i, some ⟨0, 1⟩) })] } : State), rfl, by
    decide +kernel⟩

theorem witness_OperationsFire_3 : ∃ (t : Fin 48) (f : Fin 64) (x : Nat) (k : Token) (s : State), Safety.calm s ∧
    tileRuns s t = true ∧ portOf s t (3 * f) = { buf := [k], head := .ready x (some k) none none, waiting := [] } ∧
    issueWaits s t f = false ∧ cOp (ctxWord s t f x) = 0 :=
  ⟨47, 63, 15, aTok, sTile { ports := [(189, { buf := [aTok], head := .ready 15 (some aTok) none none })] }, rfl, by
    decide +kernel⟩

theorem witness_OperationsFire_4 : ∃ (t : Fin 48) (d : Fin 4) (f : Firing) (s : State), Safety.calm s ∧ tget none (s.tile
    t).divs d = some f ∧ Safety.outputsGo t f.word :=
  ⟨47, 3, aFiring (cw 0x30 1 1 0 2), sTile { divs := [(3, some (aFiring (cw 0x30 1 1 0 2)))] }, rfl, by decide +kernel,
    by rintro o (rfl | rfl) <;> decide +kernel⟩

theorem witness_OperationsFire_5 : ∃ (t : Fin 48) (f : Firing) (l : List Firing) (e : Ecc) (v : Nat) (s : State),
    Safety.calm s ∧ (s.tile t).mems = f :: l ∧ 0 < s.rdf .TILE_MEM_CFG 0 7 t ∧ f.lost = false ∧ f.gone = false ∧ s.asleep
    = false ∧ requesterOn s (.tileMem t) = true ∧ Safety.outputsGo t f.word ∧ memAccess s t f e = (s, .ok, v) :=
  ⟨47, aFiring (cw 0x90 1 0 0 2 + 0x1000000#128 * 16), [], .ok, 0, ((sTile
    { mems := [aFiring (cw 0x90 1 0 0 2 + 0x1000000#128 * 16)] }).wr .TILE_MEM_CFG 1 47).wr .SPB_OWNER 0x2F02 0, rfl, by
    decide +kernel, by decide +kernel, by decide +kernel, by decide +kernel, by decide +kernel, by decide +kernel,
    by rintro o (rfl | rfl) <;> decide +kernel, by decide +kernel⟩

theorem witness_OperationsFire_6 : ∃ (t : Fin 48) (f : Firing) (l : List Firing) (e : Ecc) (v : Nat) (s : State),
    Safety.calm s ∧ (s.tile t).mems = f :: l ∧ 0 < s.rdf .TILE_MEM_CFG 0 7 t ∧ f.lost = false ∧ f.gone = false ∧ s.asleep
    = false ∧ requesterOn s (.tileMem t) = true ∧ Safety.outputsGo t f.word ∧ memAccess s t f e = (s, .addressError, v)
    :=
  ⟨47, aFiring (cw 0x90 1 0 0 2 + 0x1000000#128 * 16), [], .ok, 0, (sTile
    { mems := [aFiring (cw 0x90 1 0 0 2 + 0x1000000#128 * 16)] }).wr .TILE_MEM_CFG 1 47, rfl, by decide +kernel, by
    decide +kernel, by decide +kernel, by decide +kernel, by decide +kernel, by decide +kernel,
    by rintro o (rfl | rfl) <;> decide +kernel, by decide +kernel⟩

theorem witness_OperationsFire_7 : ∃ (t : Fin 48) (f : Firing) (l : List Firing) (e : Ecc) (v : Nat) (x : State) (s :
    State), (s.tile t).mems = f :: l ∧ 0 < s.rdf .TILE_MEM_CFG 0 7 t ∧ f.lost = false ∧ f.gone = false ∧ s.asleep = false
    ∧ requesterOn s (.tileMem t) = true ∧ memAccess s t f e = (x, .noAnswer, v) ∧ Safety.calm x ∧ x.tile t = s.tile t :=
  ⟨47, aFiring (cw 0x90 1 0 0 2 + 0x1000000#128 * 16), [], cutOff, 0, (memAccess sMem 47 (aFiring (cw 0x90 1 0 0 2 +
    0x1000000#128 * 16)) cutOff).1, sMem, by decide +kernel, by decide +kernel, by decide +kernel, by decide +kernel, by
    decide +kernel, by decide +kernel, by decide +kernel, by unfold Safety.calm; decide +kernel, by decide +kernel⟩

theorem witness_ArrayPortsAdmitAndAccept_1 : ∃ (n : Fin 64) (k : Token) (l : List Token) (s : State), Safety.calm s ∧
    portStands s n = false ∧ bit (epCfg s n) 1 = false ∧ tget [] s.hthOut n.val = k :: l ∧ admits s n k = true ∧ fld
    (epCfg s n) 8 6 = portTile n :=
  ⟨63, aTok, [], ({ ((sTile {}).wr .TILE_EP_CFG 0x3FEF01 47 3).wr .TILE_CG_LIMIT 1 47 3 with hthOut := [(63, [aTok])] } :
    State), rfl, by decide +kernel⟩

theorem witness_ArrayPortsAdmitAndAccept_2 : ∃ (n : Fin 64) (k : Token) (l : List Token) (s : State), Safety.calm s ∧ bit
    (epCfg s n) 1 = false ∧ tget [] s.hthOut n.val = k :: l ∧ bit (epCfg s n) 2 = false ∧ creditFree s (creditGroup
    k.tag) = false :=
  ⟨63, aTok, [], ({ ((sTile {}).wr .TILE_EP_CFG 0x3FEF01 47 3).wr .TILE_CG_LIMIT 0 47 3 with hthOut := [(63, [aTok])] } :
    State), rfl, by decide +kernel⟩

theorem witness_ArrayPortsAdmitAndAccept_3 : ∃ (n : Fin 64) (k : Token) (l : List Token) (s : State), Safety.calm s ∧
    portStands s n = false ∧ bit (epCfg s n) 1 = false ∧ tget [] s.hthOut n.val = k :: l ∧ admits s n k = true ∧
    sentCount s = 0 ∧ ((∀ c, c < 8 → columnOn s c = true)) ∧ ((∀ p, waveHolds s (epochNow s) p = false)) ∧ fld (epCfg s
    n) 8 6 < 48 ∧ fld (epCfg s n) 8 6 ≠ portTile n :=
  ⟨63, aTok, [], ({ ((sTile {}).wr .TILE_EP_CFG 0x3FC001 47 3).wr .TILE_CG_LIMIT 1 47 3 with hthOut := [(63, [aTok])] } :
    State), rfl, by decide +kernel, by decide +kernel, by decide +kernel, by decide +kernel, by decide +kernel, by
    decide +kernel, no_wave (by decide +kernel), by decide +kernel⟩

theorem witness_ArrayPortsAdmitAndAccept_4 : ∃ (t : Fin 48) (src : Fin 141) (k : Sent) (s : State), Safety.calm s ∧
    Safety.leaves s t src k ∧ tget [] (s.tile t).exitWait (k.fu % 4) = [] ∧ s.rdf .TILE_XP_CFG 0 2 t (k.fu % 4) = 1 ∧
    failedEpoch s (tileDomain s t) k.tok.epoch = false ∧ (exitStore s k.fu).length < 512 :=
  ⟨47, 140, ⟨aTok, 4, 0, 63, 0, 47, none⟩, (sTile { sent := [(140, [⟨aTok, 4, 0, 63, 0, 47, none⟩])] }).wr .TILE_XP_CFG 1
    47 3, rfl, by unfold Safety.leaves Safety.staysCalm; decide +kernel, by decide +kernel⟩

theorem witness_ArrayPortsAdmitAndAccept_5 : ∃ (t : Fin 48) (src : Fin 141) (k : Sent) (s : State), Safety.calm s ∧
    Safety.leaves s t src k ∧ tget [] (s.tile t).exitWait (k.fu % 4) = [] ∧ s.rdf .TILE_XP_CFG 0 2 t (k.fu % 4) = 1 ∧
    failedEpoch s (tileDomain s t) k.tok.epoch = false ∧ 512 ≤ (exitStore s k.fu).length :=
  ⟨47, 140, ⟨aTok, 4, 0, 63, 0, 47, none⟩, (sTile
    { sent := [(140, [⟨aTok, 4, 0, 63, 0, 47, none⟩])], store := [(3, List.replicate 512 (aTok, none))] }).wr
    .TILE_XP_CFG 1 47 3, rfl, by unfold Safety.leaves Safety.staysCalm; decide +kernel, by decide +kernel⟩

theorem witness_ArrayPortsAdmitAndAccept_6 : ∃ (q : Requester) (n : Fin 64) (s : State), Safety.calm s ∧ Safety.serves s
    q (tileB (portTile n)) .TILE_XP_CFG (portTile n) (n % 4) ∧ bit (s.rd .TILE_XP_CFG (portTile n) (n % 4)) 0 = true ∧
    tget [] (s.tile (portTile n)).exitWait (n % 4) = [] :=
  ⟨.host, 63, (sTile { store := [(3, [(aTok, none)])] }).wr .TILE_XP_CFG 1 47 3, rfl, serves_of (by decide +kernel), by
    decide +kernel⟩

theorem witness_TilesFollowTheirCommands_1 : ∃ (q : Requester) (t : Fin 48) (s : State), Safety.calm s ∧ Safety.serves s
    q (.tile t) .TILE_REMAP_CTRL t 0 ∧ ldrCovers s t = false :=
  ⟨.host, 47, sTile {}, rfl, serves_of (by decide +kernel), by decide +kernel⟩

theorem witness_TilesFollowTheirCommands_2 : ∃ (q : Requester) (t : Fin 48) (s : State), Safety.calm s ∧ Safety.serves s
    q (.tile t) .TILE_REMAP_CTRL t 0 ∧ ldrCovers s t = false :=
  ⟨.host, 47, sTile {}, rfl, serves_of (by decide +kernel), by decide +kernel⟩

theorem witness_TilesFollowTheirCommands_3 : ∃ (q : Requester) (t : Fin 48) (s : State), Safety.calm s ∧ Safety.serves s
    q (.tile t) .TILE_REMAP_CTRL t 0 ∧ ldrCovers s t = true ∧ s.rd .FAULT_COUNT (pageOf (.tile t)) = 0 :=
  ⟨.host, 47, ({ s0.wr .TILE_LDR_STATUS 4 with ldr := { body := List.replicate 12 0 ++ leBytes 4 0x8000 } } : State),
    rfl, serves_of (by decide +kernel), by decide +kernel⟩

theorem witness_TilesFollowTheirCommands_4 : ∃ (q : Requester) (t : Fin 48) (s : State), Safety.calm s ∧ Safety.serves s
    q (.tile t) .TILE_CTRL t 0 :=
  ⟨.host, 47, sTile {}, rfl, serves_of (by decide +kernel)⟩

theorem witness_TilesFollowTheirCommands_5 : ∃ (t : Fin 48) (s : State), Safety.calm s ∧ (s.tile t).epoch < epochNow s ∧
    frozen s (tileDomain s t) = false ∧ bit (s.rd .TILE_CTRL t) 0 = false ∧ mayCome s (s.tile t).epoch (fun _ k =>
    k.toTile t) = false ∧ nextHop s = none ∧ (s.tile t).ports = [] ∧ (s.tile t).ways = [] ∧ (s.tile t).stamps = [] ∧
    (s.tile t).hi ≤ (s.tile t).epoch ∧ (s.domain (tileDomain s t)).floor ≤ (s.tile t).epoch :=
  ⟨47, (((sTile {}).wr .EPO_NUMBER 1).wr .TILE_REMAP_CTRL 1 47).wr .TILE_REMAP_NEXT 5 47, rfl, by decide +kernel⟩

theorem witness_SpillAndStallsProceed_1 : ∃ (q : Requester) (t : Fin 48) (s : State), Safety.calm s ∧ Safety.serves s q
    (.tile t) .HALL_CTRL t 0 ∧ fld (s.rd .HALL_CTRL t) 0 8 ≠ 0 ∧ spillEn s t = false :=
  ⟨.host, 47, ((sDdr.wr .HALL_CTRL 2 47).wr .HALL_SPILL_BASE 16 47).wr .HALL_SPILL_SIZE 20 47, rfl, serves_of (by
    decide +kernel), by decide +kernel⟩

theorem witness_SpillAndStallsProceed_2 : ∃ (t : Fin 48) (s : State), Safety.calm s ∧ spillEn s t = true ∧ (s.tile
    t).spillReady = false ∧ s.up (.tile t) = true ∧ memStatus s (hallReq t) (spillBase s t) 64 true = .ok :=
  ⟨47, ({ sSpill {} with mem := [(0x100005, 3), (0x200000, 4)] } : State), rfl, by decide +kernel⟩

theorem witness_SpillAndStallsProceed_3 : ∃ (t : Fin 48) (f : Fin 64) (p : Fin 3) (e0 : Ecc) (e1 : Ecc) (e2 : Ecc) (e3 :
    Ecc) (k : Token) (v : State) (a : Option Token) (b : Option Token) (c : Option Token) (s : State), Safety.calm s ∧
    (s.tile t).ports = [(3 * f.val + p.val, { buf := [k], head := .spill, waiting := [] })] ∧ (s.tile t).spillReady =
    true ∧ spillEn s t = true ∧ spillBlocked s t (3 * f + p) = false ∧ wayFound s t (3 * f + p) e0 = s ∧ cOp (ctxWord s t
    f (remapOf s t k.ctx)) ≠ 0 ∧ cSel (ctxWord s t f (remapOf s t k.ctx)) p = 1 ∧ 2 ≤ cPorts (ctxWord s t f (remapOf s t
    k.ctx)) ∧ arrive (setPortOf (s.setTile t { s.tile t with spills := (s.tile t).spills.erase (3 * f + p) }) t (3 * f +
    p) { buf := [k], head := .fresh, waiting := [] }) t f p (cPorts (ctxWord s t f (remapOf s t k.ctx))) k true [e0, e1,
    e2, e3] = (v, .fires a b c) ∧ v.epo.detected = [] ∧ (v.tile t).ports = [(3 * f.val + p.val,
    { buf := [k], head := .fresh, waiting := [] })] :=
  ⟨47, 63, 1, .ok, .ok, .ok, .ok, aTok, deepArrives.1, some aTok, some aTok, none, sDeep, rfl, by decide +kernel⟩

theorem witness_SpillAndStallsProceed_4 : ∃ (t : Fin 48) (f : Fin 64) (p : Fin 3) (e0 : Ecc) (e1 : Ecc) (e2 : Ecc) (e3 :
    Ecc) (k : Token) (v : State) (s : State), Safety.calm s ∧ (s.tile t).ports = [(3 * f.val + p.val,
    { buf := [k], head := .held none, waiting := [] })] ∧ wayFound (retryReturning s t) t (3 * f + p) e0 = s ∧ cOp
    (ctxWord s t f (remapOf s t k.ctx)) ≠ 0 ∧ cSel (ctxWord s t f (remapOf s t k.ctx)) p = 1 ∧ 2 ≤ cPorts (ctxWord s t f
    (remapOf s t k.ctx)) ∧ arrive (setPortOf (s.setTile t
    { s.tile t with spills := (s.tile t).spills.erase (3 * f + p) }) t (3 * f + p)
    { buf := [k], head := .fresh, waiting := [] }) t f p (cPorts (ctxWord s t f (remapOf s t k.ctx))) k (!spillEn s t ||
    (s.tile t).spillReady) [e0, e1, e2, e3] = (v, .stored) ∧ v.epo.detected = [] ∧ (v.tile t).ports = [(3 * f.val +
    p.val, { buf := [k], head := .fresh, waiting := [] })] :=
  ⟨47, 63, 1, .ok, .ok, .ok, .ok, aTok, heldArrives.1, sHeld, rfl, by decide +kernel⟩

theorem witness_SpillAndStallsProceed_5 : ∃ (t : Fin 48) (f : Fin 64) (p : Fin 3) (e0 : Ecc) (e1 : Ecc) (e2 : Ecc) (e3 :
    Ecc) (k : Token) (pair : HEntry) (v : State) (s : State), Safety.calm s ∧ (s.tile t).ports = [(3 * f.val + p.val,
    { buf := [k], head := .held (some pair), waiting := [] })] ∧ wayFound (retryReturning s t) t (3 * f + p) e0 = s ∧ cOp
    (ctxWord s t f (remapOf s t k.ctx)) ≠ 0 ∧ cSel (ctxWord s t f (remapOf s t k.ctx)) p = 1 ∧ 2 ≤ cPorts (ctxWord s t f
    (remapOf s t k.ctx)) ∧ pairUp (setPortOf (s.setTile t
    { s.tile t with spills := (s.tile t).spills.erase (3 * f + p) }) t (3 * f + p)
    { buf := [k], head := .fresh, waiting := [] }) t pair (!spillEn s t || (s.tile t).spillReady) false [e0, e1, e2, e3]
    = (v, .stored) ∧ v.epo.detected = [] ∧ (v.tile t).ports = [(3 * f.val + p.val,
    { buf := [k], head := .fresh, waiting := [] })] :=
  ⟨47, 63, 1, .ok, .ok, .ok, .ok, aTok, aPair, pairArrives.1, sPaired, rfl, by decide +kernel⟩

theorem witness_SpillAndStallsProceed_6 : ∃ (t : Fin 48) (e : Ecc) (s : State), Safety.calm s ∧ (s.tile t).scanning =
    true ∧ spillEn s t = true ∧ (s.tile t).spillReady = true ∧ memRead s (hallReq t) (spillBase s t + 64 * (s.tile
    t).scanAt) 64 e = (s, .ok, List.replicate 64 0) :=
  ⟨47, .ok, sSpill { spillReady := true, scanning := true, scanAt := 16383 }, rfl, by decide +kernel⟩

theorem witness_SpillAndStallsProceed_7 : ∃ (t : Fin 48) (c : Nat) (f : Nat) (s : State), Safety.calm s ∧ s.rd
    .HALL_STALL_INT t ≠ 0 ∧ (s.tile t).stalled = false ∧ s.ready (.tile t) = true ∧ stallCondition s t = some (c, f) ∧ c
    < 4 ∧ f < 64 ∧ s.rdf .HALL_CTRL 10 2 t ≠ 1 :=
  ⟨47, 3, 63, (sHeld.wr .HALL_CTRL 0x4002 47).wr .HALL_STALL_INT 5 47, rfl, by decide +kernel⟩

/-! Chapter 11. -/

theorem witness_LoaderFollowsItsPhases_1 : ∃ (q : Requester) (s : State), Safety.calm s ∧ Safety.serves s q .devctl
    .TILE_LDR_CMD 0 0 ∧ ldrBusy s = false ∧ s.hold = false :=
  ⟨.host, s0.wr .TILE_LDR_STATUS 6, rfl, serves_of (by decide +kernel), by decide +kernel⟩

theorem witness_LoaderFollowsItsPhases_2 : ∃ (q : Requester) (s : State), Safety.calm s ∧ Safety.serves s q .devctl
    .TILE_LDR_CMD 0 0 ∧ ((ldrBusy s = true ∨ s.hold = true)) ∧ s.rd .FAULT_COUNT = 0 :=
  ⟨.host, sLdr 4 [], rfl, serves_of (by decide +kernel), by decide +kernel⟩

theorem witness_LoaderFollowsItsPhases_3 : ∃ (q : Requester) (s : State), Safety.calm s ∧ Safety.serves s q .devctl
    .TILE_LDR_CMD 0 0 :=
  ⟨.host, sLdr 3 [], rfl, serves_of (by decide +kernel)⟩

theorem witness_LoaderFollowsItsPhases_4 : ∃ (s : State), Safety.calm s ∧ ldrState s = 1 ∧ s.ldr.status = .ok :=
  ⟨sLdr 1 [], rfl, by decide +kernel⟩

theorem witness_LoaderFollowsItsPhases_5 : ∃ (s : State), Safety.calm s ∧ ldrState s = 1 ∧ s.ldr.status ≠ .ok :=
  ⟨({ sLdr 1 [] with ldr := { status := .poison } } : State), rfl, by decide +kernel⟩

theorem witness_LoaderFollowsItsPhases_6 : ∃ (s : State), Safety.calm s ∧ ldrState s = 2 :=
  ⟨sLdr 2 (imgBody 1 aRecord), rfl, by decide +kernel⟩

theorem witness_LoaderFollowsItsPhases_7 : ∃ (s : State), Safety.calm s ∧ ldrState s = 3 ∧ s.ldr.verified = false :=
  ⟨sLdr 3 [], rfl, by decide +kernel⟩

theorem witness_LoaderFollowsItsPhases_8 : ∃ (s : State), Safety.calm s ∧ ldrState s = 4 ∧ s.hold = false ∧ imgRecs
    s.ldr.body = [] ∧ imgFull s.ldr.body = false :=
  ⟨sLdr 4 (imgBody 0 []), rfl, by decide +kernel⟩

theorem witness_LoaderFollowsItsPhases_9 : ∃ (r : List Byte) (s : State), Safety.calm s ∧ ldrState s = 4 ∧ s.hold = false
    ∧ imgRecs s.ldr.body = [r] ∧ imgFull s.ldr.body = false ∧ recTile r < 48 :=
  ⟨aRecord, sLdr 4 (imgBody 1 aRecord), rfl, by decide +kernel⟩

/-! Chapter 12. -/

theorem witness_StackInstructionsMoveCells_2 : ∃ (k : Fin 32) (x : CoreEnv) (i : Insn) (s : State), Safety.calm s ∧
    Safety.issues s k x 0x0D i :=
  ⟨31, ({} : CoreEnv), one 0x0D00, sCore [0x0D00] b4, rfl, issues_of (by decide +kernel)⟩

theorem witness_StackInstructionsMoveCells_3 : ∃ (k : Fin 32) (x : CoreEnv) (i : Insn) (s : State), Safety.calm s ∧
    Safety.issues s k x 0x0E i :=
  ⟨31, ({} : CoreEnv), one 0x0E00, sCore [0x0E00] b4, rfl, issues_of (by decide +kernel)⟩

theorem witness_StackInstructionsMoveCells_4 : ∃ (k : Fin 32) (x : CoreEnv) (i : Insn) (s : State), Safety.calm s ∧
    Safety.issues s k x 0x0F i :=
  ⟨31, ({} : CoreEnv), one 0x0F00, sCore [0x0F00] b4, rfl, issues_of (by decide +kernel)⟩

theorem witness_LiteralsAndImmediatesCompute_1 : ∃ (k : Fin 32) (x : CoreEnv) (i : Insn) (s : State), Safety.calm s ∧
    Safety.issues s k x 0x10 i :=
  ⟨31, ({} : CoreEnv), two 0xE080 0x1001, sCore [0xE080, 0x1001] b4, rfl, issues_of (by decide +kernel)⟩

theorem witness_LiteralsAndImmediatesCompute_2 : ∃ (k : Fin 32) (x : CoreEnv) (i : Insn) (s : State), Safety.calm s ∧
    Safety.issues s k x 0x11 i :=
  ⟨31, ({} : CoreEnv), two 0xE080 0x1101, sCore [0xE080, 0x1101] b4, rfl, issues_of (by decide +kernel)⟩

theorem witness_LiteralsAndImmediatesCompute_3 : ∃ (k : Fin 32) (x : CoreEnv) (i : Insn) (s : State), Safety.calm s ∧
    Safety.issues s k x 0x12 i :=
  ⟨31, ({} : CoreEnv), one 0x1280, sCore [0x1280] bMax, rfl, issues_of (by decide +kernel)⟩

theorem witness_LiteralsAndImmediatesCompute_5 : ∃ (k : Fin 32) (x : CoreEnv) (i : Insn) (s : State), Safety.calm s ∧
    Safety.issues s k x 0xE4 i :=
  ⟨31, ({} : CoreEnv), one 0xE4FF, sCore [0xE4FF] b4, rfl, issues_of (by decide +kernel)⟩

theorem witness_LiteralsAndImmediatesCompute_6 : ∃ (k : Fin 32) (x : CoreEnv) (i : Insn) (s : State), Safety.calm s ∧
    Safety.issues s k x 0xE5 i :=
  ⟨31, ({} : CoreEnv), one 0xE500, sCore [0xE500] bMax, rfl, issues_of (by decide +kernel)⟩

theorem witness_RegistersAreReadAndWritten_1 : ∃ (k : Fin 32) (x : CoreEnv) (i : Insn) (s : State), Safety.calm s ∧
    Safety.issues s k x 0x20 i :=
  ⟨31, ({} : CoreEnv), one 0x2007, sCore [0x2007] b4, rfl, issues_of (by decide +kernel)⟩

theorem witness_RegistersAreReadAndWritten_2 : ∃ (k : Fin 32) (x : CoreEnv) (i : Insn) (s : State), Safety.calm s ∧
    Safety.issues s k x 0x21 i :=
  ⟨31, ({} : CoreEnv), one 0x2107, sCore [0x2107] b4, rfl, issues_of (by decide +kernel)⟩

theorem witness_RegistersAreReadAndWritten_3 : ∃ (k : Fin 32) (x : CoreEnv) (i : Insn) (s : State), Safety.calm s ∧
    Safety.issues s k x 0x22 i :=
  ⟨31, ({} : CoreEnv), one 0x220C, sCore [0x220C] b4, rfl, issues_of (by decide +kernel)⟩

theorem witness_RegistersAreReadAndWritten_4 : ∃ (k : Fin 32) (x : CoreEnv) (i : Insn) (s : State), Safety.calm s ∧ ∃ m,
    specMask i.arg = some m ∧ i.arg ≠ 0x06 ∧ i.arg ≠ 0x0A ∧ i.arg ≠ 0x0B ∧ Safety.issues s k x 0x23 i :=
  ⟨31, ({} : CoreEnv), one 0x2318, sCore [0x2318] b4, rfl, 0xF, by decide +kernel, by decide +kernel, by decide +kernel,
    by decide +kernel, issues_of (by decide +kernel)⟩

theorem witness_RegistersAreReadAndWritten_5 : ∃ (k : Fin 32) (x : CoreEnv) (i : Insn) (s : State), Safety.calm s ∧ i.arg
    = 0x06 ∧ Safety.issues s k x 0x23 i :=
  ⟨31, ({} : CoreEnv), one 0x2306, sCore [0x2306] bMax, rfl, by decide +kernel, issues_of (by decide +kernel)⟩

theorem witness_RegistersAreReadAndWritten_6 : ∃ (k : Fin 32) (x : CoreEnv) (i : Insn) (s : State), Safety.calm s ∧ i.arg
    = 0x0A ∧ boundOk ((cell (Safety.ds s k) 0) &&& 0xFFFFFFFC) = true ∧ Safety.issues s k x 0x23 i :=
  ⟨31, ({} : CoreEnv), one 0x230A, sCore [0x230A] (bAt 0x1FFFF), rfl, by decide +kernel, by decide +kernel, issues_of (by
    decide +kernel)⟩

theorem witness_RegistersAreReadAndWritten_7 : ∃ (k : Fin 32) (x : CoreEnv) (i : Insn) (s : State), Safety.calm s ∧ i.arg
    = 0x0B ∧ boundOk ((cell (Safety.ds s k) 0) &&& 0xFFFFFFFC) = true ∧ Safety.issues s k x 0x23 i :=
  ⟨31, ({} : CoreEnv), one 0x230B, sCore [0x230B] (bAt 0xFFFFFFFF), rfl, by decide +kernel, by decide +kernel, issues_of
    (by decide +kernel)⟩

theorem witness_RegistersAreReadAndWritten_8 : ∃ (k : Fin 32) (x : CoreEnv) (i : Insn) (s : State), Safety.calm s ∧ i.arg
    = 0x0A ∧ boundOk ((cell (Safety.ds s k) 0) &&& 0xFFFFFFFC) = false ∧ s.rd .FAULT_COUNT (pageOf (.core k)) = 0 ∧
    Safety.issues s k x 0x23 i :=
  ⟨31, ({} : CoreEnv), one 0x230A, sCore [0x230A] (bAt 0xFFFF), rfl, by decide +kernel, by decide +kernel, by
    decide +kernel, issues_of (by decide +kernel)⟩

theorem witness_RegistersAreReadAndWritten_9 : ∃ (k : Fin 32) (x : CoreEnv) (i : Insn) (s : State), Safety.calm s ∧ ∃ op,
    0xB0 ≤ op ∧ op ≤ 0xB7 ∧ Safety.issues s k x op i :=
  ⟨31, ({} : CoreEnv), one 0xB780, sCore [0xB780] b4, rfl, 0xB7, by decide +kernel, by decide +kernel, issues_of (by
    decide +kernel)⟩

theorem witness_RegistersAreReadAndWritten_10 : ∃ (k : Fin 32) (x : CoreEnv) (i : Insn) (s : State), Safety.calm s ∧ ∃
    op, 0xB8 ≤ op ∧ op ≤ 0xBF ∧ Safety.issues s k x op i :=
  ⟨31, ({} : CoreEnv), one 0xBF80, sCore [0xBF80] b4, rfl, 0xBF, by decide +kernel, by decide +kernel, issues_of (by
    decide +kernel)⟩

theorem witness_ArithmeticComputes_3 : ∃ (k : Fin 32) (x : CoreEnv) (i : Insn) (s : State), Safety.calm s ∧ Safety.issues
    s k x 0x36 i :=
  ⟨31, ({} : CoreEnv), one 0x3600, sCore [0x3600] (bAt 0x80000000), rfl, issues_of (by decide +kernel)⟩

theorem witness_ArithmeticComputes_4 : ∃ (k : Fin 32) (x : CoreEnv) (i : Insn) (s : State), Safety.calm s ∧ Safety.issues
    s k x 0x37 i :=
  ⟨31, ({} : CoreEnv), one 0x3700, sCore [0x3700] (bAt 0x80000000), rfl, issues_of (by decide +kernel)⟩

theorem witness_ArithmeticComputes_5 : ∃ (k : Fin 32) (x : CoreEnv) (i : Insn) (s : State), Safety.calm s ∧ Safety.issues
    s k x 0x3E i :=
  ⟨31, ({} : CoreEnv), one 0x3E00, sCore [0x3E00] bMax, rfl, issues_of (by decide +kernel)⟩

theorem witness_ArithmeticComputes_6 : ∃ (k : Fin 32) (x : CoreEnv) (i : Insn) (s : State), Safety.calm s ∧ Safety.issues
    s k x 0x43 i :=
  ⟨31, ({} : CoreEnv), one 0x4300, sCore [0x4300] b4, rfl, issues_of (by decide +kernel)⟩

theorem witness_LogicAndFieldsCompute_3 : ∃ (k : Fin 32) (x : CoreEnv) (i : Insn) (s : State), Safety.calm s ∧
    Safety.issues s k x 0x61 i :=
  ⟨31, ({} : CoreEnv), one 0x6100, sCore [0x6100] b4, rfl, issues_of (by decide +kernel)⟩

theorem witness_AtomicsAndFence_2 : ∃ (k : Fin 32) (x : CoreEnv) (i : Insn) (s : State), Safety.calm s ∧ x.data = .ok ∧
    Safety.issues s k x 0x7B i ∧ storesOut s k = [] ∧ (s.core k).storeErr = none :=
  ⟨31, ({} : CoreEnv), one 0x7B00, sCore [0x7B00] b4, rfl, by decide +kernel, issues_of (by decide +kernel), by
    decide +kernel⟩

theorem witness_AtomicsAndFence_3 : ∃ (k : Fin 32) (x : CoreEnv) (i : Insn) (s : State), Safety.calm s ∧ x.data = .ok ∧
    Safety.issues s k x 0x7B i ∧ storesOut s k ≠ [] :=
  ⟨31, ({} : CoreEnv), one 0x7B00,
    ({ sCore [0x7B00] b4 with reqs := [{ who := .core 31, tag := 0, reads := false, status := .ok, store := some 4 }] } :
    State), rfl, by decide +kernel, issues_of (by decide +kernel), by decide +kernel⟩

theorem witness_AtomicsAndFence_4 : ∃ (k : Fin 32) (x : CoreEnv) (i : Insn) (s : State), Safety.calm s ∧ x.data = .ok ∧ ∃
    e, Safety.issues s k x 0x7B i ∧ storesOut s k = [] ∧ (s.core k).storeErr = some e ∧ Safety.trapRoom s k :=
  ⟨31, ({} : CoreEnv), one 0x7B00, sErr, rfl, by decide +kernel, (4, .poison), issues_of (by decide +kernel), by
    decide +kernel, by decide +kernel, by unfold Safety.trapRoom; decide +kernel⟩

theorem witness_SignalProcessingComputes_2 : ∃ (k : Fin 32) (x : CoreEnv) (i : Insn) (s : State), Safety.calm s ∧ x.data
    = .ok ∧ x.data2 = .ok ∧ Safety.issues s k x 0x83 i :=
  ⟨31, ({} : CoreEnv), one 0x8303, sCore [0x8303] bDsp, rfl, by decide +kernel, by decide +kernel, issues_of (by
    decide +kernel)⟩

theorem witness_SignalProcessingComputes_3 : ∃ (k : Fin 32) (x : CoreEnv) (i : Insn) (s : State), Safety.calm s ∧ x.data
    = .ok ∧ x.data2 = .ok ∧ Safety.issues s k x 0x84 i :=
  ⟨31, ({} : CoreEnv), one 0x847E, sCore [0x847E] bDsp, rfl, by decide +kernel, by decide +kernel, issues_of (by
    decide +kernel)⟩

theorem witness_SignalProcessingComputes_4 : ∃ (k : Fin 32) (x : CoreEnv) (i : Insn) (s : State), Safety.calm s ∧ x.data
    = .ok ∧ x.data2 = .ok ∧ Safety.issues s k x 0x85 i :=
  ⟨31, ({} : CoreEnv), one 0x855F, sCore [0x855F] bDsp, rfl, by decide +kernel, by decide +kernel, issues_of (by
    decide +kernel)⟩

theorem witness_SignalProcessingComputes_5 : ∃ (k : Fin 32) (x : CoreEnv) (i : Insn) (s : State), Safety.calm s ∧ x.data
    = .ok ∧ x.data2 = .ok ∧ Safety.issues s k x 0x86 i :=
  ⟨31, ({} : CoreEnv), one 0x8604, sCore [0x8604] bDsp, rfl, by decide +kernel, by decide +kernel, issues_of (by
    decide +kernel)⟩

theorem witness_SignalProcessingComputes_6 : ∃ (k : Fin 32) (x : CoreEnv) (i : Insn) (s : State), Safety.calm s ∧ x.data
    = .ok ∧ x.data2 = .ok ∧ Safety.issues s k x 0x87 i :=
  ⟨31, ({} : CoreEnv), one 0x8705, sCore [0x8705] bDsp, rfl, by decide +kernel, by decide +kernel, issues_of (by
    decide +kernel)⟩

theorem witness_SignalProcessingComputes_7 : ∃ (k : Fin 32) (x : CoreEnv) (i : Insn) (s : State), Safety.calm s ∧ x.data
    = .ok ∧ x.data2 = .ok ∧ Safety.issues s k x 0x88 i :=
  ⟨31, ({} : CoreEnv), one 0x8800, sCore [0x8800] bDsp, rfl, by decide +kernel, by decide +kernel, issues_of (by
    decide +kernel)⟩

theorem witness_SignalProcessingComputes_8 : ∃ (k : Fin 32) (x : CoreEnv) (i : Insn) (s : State), Safety.calm s ∧ x.data
    = .ok ∧ x.data2 = .ok ∧ Safety.issues s k x 0x89 i :=
  ⟨31, ({} : CoreEnv), one 0x8900, sCore [0x8900] bDsp, rfl, by decide +kernel, by decide +kernel, issues_of (by
    decide +kernel)⟩

theorem witness_SignalProcessingComputes_9 : ∃ (k : Fin 32) (x : CoreEnv) (i : Insn) (s : State), Safety.calm s ∧ x.data
    = .ok ∧ x.data2 = .ok ∧ Safety.issues s k x 0x8A i ∧ (arAddr ((s.core k).cur) (i.arg % 4)).toNat % 4 = 0 ∧ badIn s
    (coreMem k (arAddr ((s.core k).cur) (i.arg % 4)).toNat) 4 = false :=
  ⟨31, ({} : CoreEnv), one 0x8A0C, sCore [0x8A0C] bDsp, rfl, by decide +kernel, by decide +kernel, issues_of (by
    decide +kernel), by decide +kernel⟩

theorem witness_SignalProcessingComputes_10 : ∃ (k : Fin 32) (x : CoreEnv) (i : Insn) (s : State), Safety.calm s ∧ x.data
    = .ok ∧ x.data2 = .ok ∧ Safety.issues s k x 0x8B i ∧ (arAddr ((s.core k).cur) (i.arg % 4)).toNat % 4 = 0 :=
  ⟨31, ({} : CoreEnv), one 0x8B0F, sCore [0x8B0F] bDsp, rfl, by decide +kernel, by decide +kernel, issues_of (by
    decide +kernel), by decide +kernel⟩

theorem witness_SignalProcessingComputes_12 : ∃ (k : Fin 32) (x : CoreEnv) (i : Insn) (s : State), Safety.calm s ∧ x.data
    = .ok ∧ x.data2 = .ok ∧ Safety.issues s k x 0x8E i :=
  ⟨31, ({} : CoreEnv), one 0x8E0F, sCore [0x8E0F] bDsp, rfl, by decide +kernel, by decide +kernel, issues_of (by
    decide +kernel)⟩

theorem witness_BranchesGoToTheirTargets_2 : ∃ (k : Fin 32) (x : CoreEnv) (i : Insn) (s : State), Safety.calm s ∧ ∃ j,
    Safety.issues s k x 0x90 i ∧ decodeAt s k .slot (i.last + 2) = .ok j ∧ j.op = 0x10 ∧ (Safety.ds s k).length < 8 :=
  ⟨31, ({} : CoreEnv), one 0x907F, sCore [0x907F, 0x1005] b4, rfl, ⟨0x10, 5, 0, 5, 0x102⟩, issues_of (by decide +kernel),
    by decide +kernel⟩

theorem witness_BranchesGoToTheirTargets_3 : ∃ (k : Fin 32) (x : CoreEnv) (i : Insn) (s : State), Safety.calm s ∧ ∃ w,
    Safety.issues s k x 0x91 i ∧ decodeAt s k .slot (i.last + 2) = .trap 2 4 (some 0x90) w ∧ Safety.trapRoom s k :=
  ⟨31, ({} : CoreEnv), one 0x917F, sCore [0x917F, 0x9005] b4, rfl, 0x9005, issues_of (by decide +kernel), by
    decide +kernel, by unfold Safety.trapRoom; decide +kernel⟩

theorem witness_BranchesGoToTheirTargets_4 : ∃ (k : Fin 32) (x : CoreEnv) (i : Insn) (s : State), Safety.calm s ∧
    Safety.issues s k x 0x97 i ∧ (s.core k).bank ≠ fld (cell (Safety.rs s k) 0) 16 2 :=
  ⟨31, ({} : CoreEnv), one 0x9700, sCore [0x9700] { rs := [0x70123] }, rfl, issues_of (by decide +kernel), by
    decide +kernel⟩

theorem witness_BranchesGoToTheirTargets_5 : ∃ (k : Fin 32) (x : CoreEnv) (i : Insn) (s : State), Safety.calm s ∧
    Safety.issues s k x 0x99 i ∧ i.raw < 2 ^ 32 ∧ (if i.immU = 0 then (cell (Safety.ds s k) 0) else i.immU) ≠ 0 :=
  ⟨31, ({} : CoreEnv), one 0x9900, sCore [0x9900] b4, rfl, issues_of (by decide +kernel), by decide +kernel⟩

theorem witness_BranchesGoToTheirTargets_6 : ∃ (k : Fin 32) (x : CoreEnv) (i : Insn) (s : State), Safety.calm s ∧
    Safety.issues s k x 0x99 i ∧ i.raw < 2 ^ 32 ∧ (if i.immU = 0 then (cell (Safety.ds s k) 0) else i.immU) = 0 :=
  ⟨31, ({} : CoreEnv), one 0x9900, sCore [0x9900] (bAt 0), rfl, issues_of (by decide +kernel), by decide +kernel⟩

theorem witness_SystemInstructionsAct_1 : ∃ (k : Fin 32) (x : CoreEnv) (i : Insn) (s : State), Safety.calm s ∧
    Safety.issues s k x 0xA0 i ∧ Safety.trapRoom s k ∧ i.arg < 256 :=
  ⟨31, ({} : CoreEnv), one 0xA0FF, sCore [0xA0FF] b4, rfl, issues_of (by decide +kernel),
    by unfold Safety.trapRoom; decide +kernel, by decide +kernel⟩

theorem witness_SystemInstructionsAct_2 : ∃ (k : Fin 32) (x : CoreEnv) (i : Insn) (s : State), Safety.calm s ∧
    Safety.issues s k x 0xA1 i ∧ Safety.trapRoom s k ∧ x.claimed = false :=
  ⟨31, ({} : CoreEnv), one 0xA100, sCore [0xA100] b4, rfl, issues_of (by decide +kernel),
    by unfold Safety.trapRoom; decide +kernel, by decide +kernel⟩

theorem witness_SystemInstructionsAct_3 : ∃ (k : Fin 32) (x : CoreEnv) (i : Insn) (s : State), Safety.calm s ∧
    Safety.issues s k x 0xA1 i ∧ x.claimed = true ∧ debugScope s 0 = true :=
  ⟨31, ({ claimed := true } : CoreEnv), one 0xA100, (sCore [0xA100] b4).wr .SEC_DBG_STATUS 0x12, rfl, issues_of (by
    decide +kernel), by decide +kernel⟩

theorem witness_SystemInstructionsAct_4 : ∃ (k : Fin 32) (x : CoreEnv) (i : Insn) (s : State), Safety.calm s ∧
    Safety.issues s k x 0xA2 i ∧ Safety.levelsFollow s :=
  ⟨31, ({} : CoreEnv), one 0xA200, sCore [0xA200] b4, rfl, issues_of (by decide +kernel), levelsFollow_of (by
    decide +kernel)⟩

theorem witness_SystemInstructionsAct_5 : ∃ (k : Fin 32) (x : CoreEnv) (i : Insn) (s : State), Safety.calm s ∧
    Safety.issues s k x 0xA3 i ∧ (s.landing k 0).state = .filled ∧ (s.landing k 1).state ≠ .filled ∧ ((∀ j, j ∈
    s.sched.items → (s.landing k 0).item ≠ some (j.queue, j.pos))) :=
  ⟨31, ({} : CoreEnv), one 0xA300, ({ sCore [0xA300] b4 with slots := [(62, { state := .filled })] } : State), rfl,
    issues_of (by decide +kernel), by decide +kernel⟩

theorem witness_SystemInstructionsAct_6 : ∃ (k : Fin 32) (x : CoreEnv) (i : Insn) (s : State), Safety.calm s ∧
    Safety.issues s k x 0xA3 i ∧ (s.landing k 0).state ≠ .filled ∧ (s.landing k 1).state ≠ .filled ∧ i.arg % 2 = 1 :=
  ⟨31, ({} : CoreEnv), one 0xA301, sCore [0xA301] b4, rfl, issues_of (by decide +kernel), by decide +kernel⟩

theorem witness_SystemInstructionsAct_7 : ∃ (k : Fin 32) (x : CoreEnv) (i : Insn) (s : State), Safety.calm s ∧
    Safety.issues s k x 0xA3 i ∧ (s.landing k 0).state ≠ .filled ∧ (s.landing k 1).state ≠ .filled ∧ i.arg % 2 = 0 :=
  ⟨31, ({} : CoreEnv), one 0xA300, sCore [0xA300] b4, rfl, issues_of (by decide +kernel), by decide +kernel⟩

theorem witness_SystemInstructionsAct_8 : ∃ (k : Fin 32) (x : CoreEnv) (i : Insn) (s : State), Safety.calm s ∧ ∃ (n : Fin
    2), Safety.issues s k x 0xA4 i ∧ (cell (Safety.ds s k) 0) = BitVec.ofNat 32 (0x30000 + 0x60 * n) ∧ (s.landing k
    n).state = .taken ∧ ((∀ j, j ∈ s.sched.items → (s.landing k n).item ≠ some (j.queue, j.pos))) :=
  ⟨31, ({} : CoreEnv), one 0xA400, ({ sCore [0xA400] (bAt 0x30060) with slots := [(63, { state := .taken })] } : State),
    rfl, 1, issues_of (by decide +kernel), by decide +kernel⟩

theorem witness_SystemInstructionsAct_9 : ∃ (k : Fin 32) (x : CoreEnv) (i : Insn) (s : State), Safety.calm s ∧
    Safety.issues s k x 0xA4 i ∧ (cell (Safety.ds s k) 0) ≠ 0x30000 ∧ (cell (Safety.ds s k) 0) ≠ 0x30060 ∧
    Safety.trapRoom s k :=
  ⟨31, ({} : CoreEnv), one 0xA400, sCore [0xA400] b4, rfl, issues_of (by decide +kernel), by decide +kernel, by
    decide +kernel, by unfold Safety.trapRoom; decide +kernel⟩

theorem witness_SystemInstructionsAct_10 : ∃ (k : Fin 32) (x : CoreEnv) (i : Insn) (s : State), Safety.calm s ∧ ∃ (q :
    Fin 32) (d : Endpoint), Safety.issues s k x 0xA5 i ∧ x.net = {} ∧ q.val = (cell (Safety.ds s k) 0).toNat % 32 ∧
    wrongForm s (.core k) .dbell (coreMem q 0) 4 = false ∧ carry (takeCells s k (needOf i)) (.core k) (requestOf (.core
    k) .dbell (coreMem q 0) 4) = (takeCells s k (needOf i), .target d false) :=
  ⟨31, ({} : CoreEnv), one 0xA500, sCore [0xA500] (bAt 0xFF), rfl, 31, ⟨55, 3⟩, issues_of (by decide +kernel), by
    decide +kernel⟩

theorem witness_SystemInstructionsAct_11 : ∃ (k : Fin 32) (x : CoreEnv) (i : Insn) (s : State), Safety.calm s ∧
    Safety.issues s k x 0xA6 i :=
  ⟨31, ({} : CoreEnv), one 0xA600, ({ sCore [0xA600] b4 with mem := [(coreMem 31 0x7FFF, 5)] } : State), rfl, issues_of
    (by decide +kernel)⟩

theorem witness_SystemInstructionsAct_12 : ∃ (k : Fin 32) (x : CoreEnv) (i : Insn) (s : State), Safety.calm s ∧
    Safety.issues s k x 0xA7 i ∧ queueOfProd s 4 k none = none :=
  ⟨31, ({} : CoreEnv), one 0xA700, sCore [0xA700] b4, rfl, issues_of (by decide +kernel), by decide +kernel⟩

theorem witness_SystemInstructionsAct_13 : ∃ (k : Fin 32) (x : CoreEnv) (i : Insn) (s : State), Safety.calm s ∧ ∃ q, ∃
    ep, Safety.issues s k x 0xA7 i ∧ ((∃ e, (s.queue q).beyond.head? = some e ∧ e.hold.isSome = true)) ∧ queueOfProd s 4
    k none = some q ∧ gqKind s q = 1 ∧ outEpoch s k = some ep ∧ 16 ≤ gqCap s q ∧ failedEpoch s (coreDomain s k) ep =
    false ∧ (s.domain (coreDomain s k)).next ≤ ep ∧ (s.queue q).tail = [] ∧ (s.queue q).skips = [] ∧ (s.queue q).gaps =
    [] ∧ gqPing s q = false ∧ gqAppend s q + 16 ≤ gqFree s q + gqCap s q ∧ gqReady s q (gqAppend s q) 16 = true :=
  ⟨31, ({} : CoreEnv), one 0xA700, sOut, rfl, 1023, 0, issues_of (by decide +kernel), ⟨{ len := 16, hold := some 0 }, by
    decide +kernel, by decide +kernel⟩, by decide +kernel⟩

theorem witness_SystemInstructionsAct_14 : ∃ (k : Fin 32) (x : CoreEnv) (i : Insn) (s : State), Safety.calm s ∧
    Safety.issues s k x 0xA8 i ∧ (cell (Safety.ds s k) 0).toNat % 32 = 0 ∧ ((areaOf (cell (Safety.ds s k) 0).toNat = 1 ∨
    areaOf (cell (Safety.ds s k) 0).toNat = 2)) ∧ queueOfProd s 4 k none = none :=
  ⟨31, ({} : CoreEnv), one 0xA800, sCore [0xA800] (bAt 0x10020), rfl, issues_of (by decide +kernel), by decide +kernel⟩

theorem witness_SystemInstructionsAct_15 : ∃ (k : Fin 32) (x : CoreEnv) (i : Insn) (s : State), Safety.calm s ∧ ∃ q, ∃
    ep, Safety.issues s k x 0xA8 i ∧ ((∃ e, (s.queue q).beyond.head? = some e ∧ e.hold.isSome = true)) ∧ (cell (Safety.ds
    s k) 0).toNat % 32 = 0 ∧ ((areaOf (cell (Safety.ds s k) 0).toNat = 1 ∨ areaOf (cell (Safety.ds s k) 0).toNat = 2)) ∧
    x.data = .ok ∧ badIn s (coreMem k (cell (Safety.ds s k) 0).toNat) 32 = false ∧ queueOfProd s 4 k none = some q ∧
    gqKind s q = 2 ∧ outEpoch s k = some ep ∧ 32 ≤ gqCap s q ∧ failedEpoch s (coreDomain s k) ep = false ∧ (s.domain
    (coreDomain s k)).next ≤ ep ∧ (s.queue q).tail = [] ∧ (s.queue q).skips = [] ∧ (s.queue q).gaps = [] ∧ gqPing s q =
    false ∧ gqAppend s q + 32 ≤ gqFree s q + gqCap s q ∧ gqReady s q (gqAppend s q) 32 = true :=
  ⟨31, ({} : CoreEnv), one 0xA800, sOutd, rfl, 1023, 0, issues_of (by decide +kernel), ⟨{ len := 32, hold := some 0 }, by
    decide +kernel, by decide +kernel⟩, by decide +kernel⟩

theorem witness_SystemInstructionsAct_16 : ∃ (k : Fin 32) (x : CoreEnv) (i : Insn) (s : State), Safety.calm s ∧
    Safety.issues s k x 0xA8 i ∧ (cell (Safety.ds s k) 0).toNat % 32 ≠ 0 ∧ Safety.trapRoom s k :=
  ⟨31, ({} : CoreEnv), one 0xA800, sCore [0xA800] (bAt 0x10021), rfl, issues_of (by decide +kernel), by decide +kernel,
    by unfold Safety.trapRoom; decide +kernel⟩

theorem witness_SystemInstructionsAct_17 : ∃ (k : Fin 32) (x : CoreEnv) (i : Insn) (s : State), Safety.calm s ∧
    Safety.issues s k x 0xA9 i :=
  ⟨31, ({} : CoreEnv), one 0xA900, sCore [0xA900] b4, rfl, issues_of (by decide +kernel)⟩

theorem witness_TrapsAndInterruptsEnter_1 : ∃ (k : Fin 32) (x : CoreEnv) (op : Nat) (w : Word) (s : State), Safety.calm s
    ∧ coreWorks s k = true ∧ (s.core k).run ≠ .inWait ∧ (s.core k).rep = false ∧ x.fetch = .ok ∧ (s.core k).stopping =
    false ∧ (s.core k).mirrors = [] ∧ decodeAt s k .normal (s.core k).pc = .trap 2 0 (some op) w ∧ formOf op = none ∧
    Safety.trapRoom s k :=
  ⟨31, ({} : CoreEnv), 0xFF, 0xFF01, sCore [0xFF01] b4, rfl, by decide +kernel, by decide +kernel, by decide +kernel, by
    decide +kernel, by decide +kernel, by decide +kernel, by decide +kernel, by decide +kernel,
    by unfold Safety.trapRoom; decide +kernel⟩

theorem witness_TrapsAndInterruptsEnter_2 : ∃ (k : Fin 32) (x : CoreEnv) (i : Insn) (s : State), Safety.calm s ∧
    coreWorks s k = true ∧ (s.core k).run ≠ .inWait ∧ (s.core k).rep = false ∧ x.fetch = .ok ∧ (s.core k).stopping =
    false ∧ (s.core k).mirrors = [] ∧ decodeAt s k .normal (s.core k).pc = .ok i ∧ i.op = 0x01 ∧ (s.core k).bank < 4 ∧
    Safety.ds s k = [] ∧ (Safety.rs s k).length ≤ 8 ∧ regionOk (s.core k).cur = false :=
  ⟨31, ({} : CoreEnv), one 0x0100, sCore [0x0100], rfl, by decide +kernel⟩

theorem witness_TrapsAndInterruptsEnter_3 : ∃ (k : Fin 32) (x : CoreEnv) (i : Insn) (s : State), Safety.calm s ∧
    Safety.issues s k x 0xA0 i ∧ (s.core k).bank = bankT :=
  ⟨31, ({} : CoreEnv), one 0xA001, sBankT, rfl, issues_of (by decide +kernel), by decide +kernel⟩

theorem witness_TrapsAndInterruptsEnter_4 : ∃ (k : Fin 32) (x : CoreEnv) (l : Nat) (s : State), Safety.calm s ∧ coreWorks
    s k = true ∧ (s.core k).stopping = false ∧ interruptible (s.core k) x.since = true ∧ levelToTake s k = some l ∧
    (((s.core k).bk l).ds.length ≤ 16 ∧ ((s.core k).bk l).rs.length < 8) :=
  ⟨31, ({ since := 32 } : CoreEnv), 3, sIrq, rfl, by decide +kernel⟩

theorem witness_TrapsAndInterruptsEnter_5 : ∃ (k : Fin 32) (x : CoreEnv) (s : State), Safety.calm s ∧ ((s.core k).run =
    .blocked ∨ ((s.core k).rep = true ∧ x.since < 32)) :=
  ⟨31, ({} : CoreEnv), sIrq.setCore 31 { sIrq.core 31 with run := .blocked }, rfl, by decide +kernel⟩

theorem witness_TrapsAndInterruptsEnter_6 : ∃ (k : Fin 32) (x : CoreEnv) (i : Insn) (s : State), Safety.calm s ∧
    coreWorks s k = true ∧ (s.core k).run ≠ .inWait ∧ (s.core k).rep = false ∧ x.fetch = .ok ∧ (s.core k).stopping = true
    ∧ (s.core k).mirrors = [] ∧ decodeAt s k .normal (s.core k).pc = .ok i ∧ i.op = 0x00 :=
  ⟨31, ({} : CoreEnv), one 0x0000, sIrq.setCore 31 { sIrq.core 31 with stopping := true }, rfl, by decide +kernel⟩

/-- A row of a table of instructions: operation, operand byte, bank; the instruction, and core 31 about to issue it with a NOP
behind it. -/
def iRow (y : Nat × Nat × Bank) : Insn := one (y.1 * 256 + y.2.1)
def sRow (y : Nat × Nat × Bank) : State := sCore [y.1 * 256 + y.2.1, 0] y.2.2

/-- Rows that issue, by computation. -/
theorem rows_issue {l : List (Nat × Nat × Bank)} (h : l.all (fun y => issuesB (sRow y) 31 {} y.1 (iRow y)) = true) :
    ∀ y ∈ l, Safety.calm (sRow y) ∧ Safety.issues (sRow y) 31 {} y.1 (iRow y) :=
  fun y hy => ⟨rfl, issues_of (List.all_eq_true.1 h y hy)⟩

theorem witness_StackInstructionsMoveCells_1 : ∀ y ∈ ([(0x00, 0, b4), (0x01, 0, b4), (0x02, 0, b4), (0x03, 0, b4), (0x04, 0, b4), (0x05, 0, b4), (0x06, 0, b4),
    (0x07, 0, b4), (0x08, 0, b4), (0x09, 0, b4), (0x0A, 0, b4), (0x0B, 0, b4), (0x0C, 0, b4)] : List (Nat × Nat × Bank)),
    Safety.calm (sRow y) ∧ Safety.issues (sRow y) 31 {} y.1 (iRow y) :=
  rows_issue (by decide +kernel)

theorem witness_LiteralsAndImmediatesCompute_4 : ∀ y ∈ ([(0x13, 5, b4), (0x14, 5, b4), (0x15, 5, b4), (0x16, 5, b4), (0x17, 5, b4), (0x18, 5, b4), (0x19, 5, b4),
    (0xE1, 0, b4), (0xE2, 0, b4), (0xE3, 0, b4)] : List (Nat × Nat × Bank)),
    Safety.calm (sRow y) ∧ Safety.issues (sRow y) 31 {} y.1 (iRow y) :=
  rows_issue (by decide +kernel)

theorem witness_ArithmeticComputes_1 : ∀ y ∈ ([(0x30, 0, bMax), (0x33, 0, bMax), (0x3C, 0, bMax), (0x3D, 0, bMax)] : List (Nat × Nat × Bank)),
    Safety.calm (sRow y) ∧ Safety.issues (sRow y) 31 {} y.1 (iRow y) :=
  rows_issue (by decide +kernel)

theorem witness_ArithmeticComputes_2 : ∀ y ∈ ([(0x31, 0, bMax), (0x32, 0, bMax), (0x34, 0, bMax), (0x35, 0, bMax), (0x38, 0, bMax), (0x39, 0, bMax),
    (0x3A, 0, bMax), (0x3B, 0, bMax), (0x40, 0, bMax), (0x41, 0, bMax), (0x42, 0, bMax)] : List (Nat × Nat × Bank)),
    Safety.calm (sRow y) ∧ Safety.issues (sRow y) 31 {} y.1 (iRow y) :=
  rows_issue (by decide +kernel)

theorem witness_DivisionComputes_0 : ∀ y ∈ ([(0x44, 0, b4), (0x45, 0, b4), (0x46, 0, b4), (0x47, 0, b4), (0x48, 0, b4), (0x49, 0, b4)] : List (Nat × Nat × Bank)),
    Safety.calm (sRow y) ∧ Safety.issues (sRow y) 31 {} y.1 (iRow y) :=
  rows_issue (by decide +kernel)

theorem witness_LogicAndFieldsCompute_1 : ∀ y ∈ ([(0x50, 0, b4), (0x51, 0, b4), (0x52, 0, b4), (0x53, 0, b4), (0x55, 0, b4), (0x56, 0, b4), (0x57, 0, b4),
    (0x58, 0, b4), (0x59, 0, b4), (0x60, 5, b4), (0x65, 5, b4), (0x66, 5, b4), (0x67, 5, b4),
    (0x68, 0, b4)] : List (Nat × Nat × Bank)),
    Safety.calm (sRow y) ∧ Safety.issues (sRow y) 31 {} y.1 (iRow y) :=
  rows_issue (by decide +kernel)

theorem witness_LogicAndFieldsCompute_2 : ∀ y ∈ ([(0x54, 0, b4), (0x5A, 0, b4), (0x5B, 0, b4), (0x5C, 0, b4), (0x5D, 0, b4), (0x69, 0, b4)] : List (Nat × Nat × Bank)),
    Safety.calm (sRow y) ∧ Safety.issues (sRow y) 31 {} y.1 (iRow y) :=
  rows_issue (by decide +kernel)

/-- The field instructions, with their operand behind an EXT syllable. -/
theorem witness_LogicAndFieldsCompute_0 : ∀ y ∈ ([(0x62, 3), (0x63, 3), (0x64, 0x1B)] : List (Nat × Nat)),
    Safety.calm (sCore [0xE000 + y.2, y.1 * 256 + 5] b4) ∧
      Safety.issues (sCore [0xE000 + y.2, y.1 * 256 + 5] b4) 31 {} y.1 (two (0xE000 + y.2) (y.1 * 256 + 5)) := by
  intro y hy
  refine ⟨rfl, issues_of ?_⟩
  revert y
  decide +kernel

theorem witness_LoadsReadMemory_0 : ∀ y ∈ ([(0x70, 0, (bAt 0x10008)), (0x71, 0, (bAt 0x10008)), (0x72, 0, (bAt 0x10008)), (0x73, 0, (bAt 0x10008)),
    (0x74, 0, (bAt 0x10008)), (0xC0, 0, (bAt 0x10008)), (0xC1, 0, (bAt 0x10008)), (0xC2, 0, (bAt 0x10008)),
    (0xC3, 0, (bAt 0x10008)), (0xC4, 0, (bAt 0x10008)), (0xC5, 0, (bAt 0x10008)), (0xC6, 0, (bAt 0x10008)),
    (0xC7, 0, (bAt 0x10008))] : List (Nat × Nat × Bank)),
    Safety.calm (sRow y) ∧ Safety.issues (sRow y) 31 {} y.1 (iRow y) :=
  rows_issue (by decide +kernel)

theorem witness_StoresWriteMemory_0 : ∀ y ∈ ([(0x75, 0, (bAt 0x10008)), (0x76, 0, (bAt 0x10008)), (0x77, 0, (bAt 0x10008)), (0xC8, 0, (bAt 0x10008)),
    (0xC9, 0, (bAt 0x10008)), (0xCA, 0, (bAt 0x10008)), (0xCB, 0, (bAt 0x10008)), (0xCC, 0, (bAt 0x10008)),
    (0xCD, 0, (bAt 0x10008)), (0xCE, 0, (bAt 0x10008)), (0xCF, 0, (bAt 0x10008))] : List (Nat × Nat × Bank)),
    Safety.calm (sRow y) ∧ Safety.issues (sRow y) 31 {} y.1 (iRow y) :=
  rows_issue (by decide +kernel)

theorem witness_AtomicsAndFence_0 : ∀ y ∈ ([(0x78, 0, (bAt 0x10008)), (0x79, 0, (bAt 0x10008)), (0x7A, 0, (bAt 0x10008))] : List (Nat × Nat × Bank)),
    Safety.calm (sRow y) ∧ Safety.issues (sRow y) 31 {} y.1 (iRow y) :=
  rows_issue (by decide +kernel)

theorem witness_SignalProcessingComputes_0 : ∀ y ∈ ([(0x80, 64, bDsp), (0x81, 64, bDsp), (0x82, 0, bDsp)] : List (Nat × Nat × Bank)),
    Safety.calm (sRow y) ∧ Safety.issues (sRow y) 31 {} y.1 (iRow y) :=
  rows_issue (by decide +kernel)

theorem witness_SignalProcessingComputes_11 : ∀ y ∈ ([(0x8C, 0, bDsp), (0x8D, 0, bDsp)] : List (Nat × Nat × Bank)),
    Safety.calm (sRow y) ∧ Safety.issues (sRow y) 31 {} y.1 (iRow y) :=
  rows_issue (by decide +kernel)

theorem witness_BranchesGoToTheirTargets_0 : ∀ y ∈ ([(0x90, 0, b4), (0x91, 0, b4), (0x92, 0, b4), (0x93, 0, b4), (0x94, 0, b4), (0x95, 0, b4), (0x96, 0, b4),
    (0x98, 0, b4), (0xD0, 0, b4), (0xD1, 0, b4), (0xD2, 0, b4), (0xD3, 0, b4), (0xD4, 0, b4), (0xD5, 0, b4),
    (0xD6, 0, b4), (0xD7, 0, b4), (0xD8, 0, b4), (0xD9, 0, b4)] : List (Nat × Nat × Bank)),
    Safety.calm (sRow y) ∧ Safety.issues (sRow y) 31 {} y.1 (iRow y) :=
  rows_issue (by decide +kernel)

theorem witness_DivisionComputes_1 : ∃ (x : CoreEnv) (i : Insn) (s : State), Safety.calm s ∧ x.data = .ok ∧ x.data2 = .ok ∧ x.net = {} ∧
    Safety.issues s 31 x 0x44 i ∧ cell (Safety.ds s 31) 0 ≠ 0 :=
  ⟨{}, iRow (0x44, 0, b4), sRow (0x44, 0, b4), rfl, rfl, rfl, rfl, issues_of (by decide +kernel), by decide +kernel⟩

theorem witness_DivisionComputes_2 : ∃ (x : CoreEnv) (i : Insn) (s : State), Safety.calm s ∧ x.data = .ok ∧ x.data2 = .ok ∧ x.net = {} ∧
    Safety.issues s 31 x 0x49 i ∧ cell (Safety.ds s 31) 0 = 0 ∧
      (Safety.status s 31).getLsbD 8 = true ∧
      Safety.trapRoom s 31 :=
  ⟨{}, iRow (0x49, 0, { ds := [0, 5], spec := [(0, 0x100)] }), sRow (0x49, 0, { ds := [0, 5], spec := [(0, 0x100)] }), rfl, rfl, rfl, rfl, issues_of (by decide +kernel), by decide +kernel, by decide +kernel, by unfold Safety.trapRoom; decide +kernel⟩

theorem witness_DivisionComputes_3 : ∃ (x : CoreEnv) (i : Insn) (s : State), Safety.calm s ∧ x.data = .ok ∧ x.data2 = .ok ∧ x.net = {} ∧
    Safety.issues s 31 x 0x44 i ∧ cell (Safety.ds s 31) 0 = 0 ∧
      (Safety.status s 31).getLsbD 8 = false :=
  ⟨{}, iRow (0x44, 0, { ds := [0, 5] }), sRow (0x44, 0, { ds := [0, 5] }), rfl, rfl, rfl, rfl, issues_of (by decide +kernel), by decide +kernel, by decide +kernel⟩

theorem witness_LoadsReadMemory_1 : ∃ (x : CoreEnv) (i : Insn) (s : State), Safety.calm s ∧ x.data = .ok ∧ x.data2 = .ok ∧ x.net = {} ∧
    Safety.issues s 31 x 0x70 i ∧ (cell (Safety.ds s 31) 0 + i.immS).toNat % 4 = 0 ∧
      coreArea (cell (Safety.ds s 31) 0 + i.immS).toNat = 1 ∧
      badIn s (coreMem 31 (cell (Safety.ds s 31) 0 + i.immS).toNat) 4 = false :=
  ⟨{}, iRow (0x70, 252, (bAt 0x1000C)), sRow (0x70, 252, (bAt 0x1000C)), rfl, rfl, rfl, rfl, issues_of (by decide +kernel), by decide +kernel, by decide +kernel, by decide +kernel⟩

theorem witness_LoadsReadMemory_2 : ∃ (x : CoreEnv) (i : Insn) (s : State), Safety.calm s ∧ x.data = .ok ∧ x.data2 = .ok ∧ x.net = {} ∧
    Safety.issues s 31 x 0x71 i ∧ (cell (Safety.ds s 31) 0 + i.immS).toNat % 2 = 0 ∧
      coreArea (cell (Safety.ds s 31) 0 + i.immS).toNat = 2 :=
  ⟨{}, iRow (0x71, 0, (bAt 0x30068)), sRow (0x71, 0, (bAt 0x30068)), rfl, rfl, rfl, rfl, issues_of (by decide +kernel), by decide +kernel, by decide +kernel⟩

theorem witness_LoadsReadMemory_4 : ∃ (x : CoreEnv) (i : Insn) (s : State), Safety.calm s ∧ x.data = .ok ∧ x.data2 = .ok ∧ x.net = {} ∧
    Safety.issues s 31 x 0x72 i ∧ (cell (Safety.ds s 31) 0 + i.immS).toNat % 2 ≠ 0 ∧
      Safety.trapRoom s 31 :=
  ⟨{}, iRow (0x72, 0, (bAt 0x10001)), sRow (0x72, 0, (bAt 0x10001)), rfl, rfl, rfl, rfl, issues_of (by decide +kernel), by decide +kernel, by unfold Safety.trapRoom; decide +kernel⟩

theorem witness_StoresWriteMemory_1 : ∃ (x : CoreEnv) (i : Insn) (s : State), Safety.calm s ∧ x.data = .ok ∧ x.data2 = .ok ∧ x.net = {} ∧
    Safety.issues s 31 x 0x75 i ∧ (cell (Safety.ds s 31) 0 + i.immS).toNat % 4 = 0 ∧
      coreArea (cell (Safety.ds s 31) 0 + i.immS).toNat = 1 :=
  ⟨{}, iRow (0x75, 0, (bAt 0x10008)), sRow (0x75, 0, (bAt 0x10008)), rfl, rfl, rfl, rfl, issues_of (by decide +kernel), by decide +kernel, by decide +kernel⟩

theorem witness_StoresWriteMemory_2 : ∃ (x : CoreEnv) (i : Insn) (s : State), Safety.calm s ∧ x.data = .ok ∧ x.data2 = .ok ∧ x.net = {} ∧
    Safety.issues s 31 x 0x75 i ∧ (cell (Safety.ds s 31) 0 + i.immS).toNat % 4 = 0 ∧
      coreArea (cell (Safety.ds s 31) 0 + i.immS).toNat = 3 ∧
      inRegs (globalOf (s.core 31).cur (cell (Safety.ds s 31) 0 + i.immS).toNat) = false ∧
      (storesOut s 31).length < 16 ∧
      freeTag s (.core 31) 4096 0 = some 0 :=
  ⟨{}, iRow (0x75, 0, (bWin (coreMem 30 0x10008))), sRow (0x75, 0, (bWin (coreMem 30 0x10008))), rfl, rfl, rfl, rfl, issues_of (by decide +kernel), by decide +kernel, by decide +kernel, by decide +kernel, by decide +kernel, by decide +kernel⟩

theorem witness_StoresWriteMemory_3 : ∃ (x : CoreEnv) (i : Insn) (s : State), Safety.calm s ∧ x.data = .ok ∧ x.data2 = .ok ∧ x.net = {} ∧
    Safety.issues s 31 x 0x76 i ∧ (cell (Safety.ds s 31) 0 + i.immS).toNat % 2 = 0 ∧
      coreArea (cell (Safety.ds s 31) 0 + i.immS).toNat = 2 ∧
      Safety.trapRoom s 31 :=
  ⟨{}, iRow (0x76, 0, (bAt 0x30068)), sRow (0x76, 0, (bAt 0x30068)), rfl, rfl, rfl, rfl, issues_of (by decide +kernel), by decide +kernel, by decide +kernel, by unfold Safety.trapRoom; decide +kernel⟩

theorem witness_StoresWriteMemory_4 : ∃ (x : CoreEnv) (i : Insn) (s : State), Safety.calm s ∧ x.data = .ok ∧ x.data2 = .ok ∧ x.net = {} ∧
    Safety.issues s 31 x 0x76 i ∧ (cell (Safety.ds s 31) 0 + i.immS).toNat % 2 ≠ 0 ∧
      Safety.trapRoom s 31 :=
  ⟨{}, iRow (0x76, 0, (bAt 0x10001)), sRow (0x76, 0, (bAt 0x10001)), rfl, rfl, rfl, rfl, issues_of (by decide +kernel), by decide +kernel, by unfold Safety.trapRoom; decide +kernel⟩

theorem witness_AtomicsAndFence_1 : ∃ (x : CoreEnv) (i : Insn) (s : State), Safety.calm s ∧ x.data = .ok ∧ x.data2 = .ok ∧ x.net = {} ∧
    Safety.issues s 31 x 0x7A i ∧ (cell (Safety.ds s 31) 0).toNat % 4 = 0 ∧
      coreArea (cell (Safety.ds s 31) 0).toNat = 1 ∧
      badIn s (coreMem 31 (cell (Safety.ds s 31) 0).toNat) 4 = false :=
  ⟨{}, iRow (0x7A, 0, (bAt 0x10008)), sRow (0x7A, 0, (bAt 0x10008)), rfl, rfl, rfl, rfl, issues_of (by decide +kernel), by decide +kernel, by decide +kernel, by decide +kernel⟩

theorem witness_SignalProcessingComputes_1 : ∃ (x : CoreEnv) (i : Insn) (s : State), Safety.calm s ∧ x.data = .ok ∧ x.data2 = .ok ∧ x.net = {} ∧
    Safety.issues s 31 x 0x80 i ∧ (arAddr (s.core 31).cur 1).toNat % 4 = 0 ∧
      (arAddr (s.core 31).cur 2).toNat % 4 = 0 ∧
      badIn s (coreMem 31 (arAddr (s.core 31).cur 1).toNat) 4 = false ∧
      badIn s (coreMem 31 (arAddr (s.core 31).cur 2).toNat) 4 = false :=
  ⟨{}, iRow (0x80, 1, bDsp), sRow (0x80, 1, bDsp), rfl, rfl, rfl, rfl, issues_of (by decide +kernel), by decide +kernel, by decide +kernel, by decide +kernel, by decide +kernel⟩

theorem witness_BranchesGoToTheirTargets_1 : ∃ (x : CoreEnv) (i : Insn) (s : State), Safety.calm s ∧ x.data = .ok ∧ x.data2 = .ok ∧ x.net = {} ∧
    Safety.issues s 31 x 0xD9 i ∧ decodeAt s 31 .slot (i.last + 2) = .ok ⟨0, 0, 0, 0, i.last + 2⟩ :=
  ⟨{}, iRow (0xD9, 127, b4), sRow (0xD9, 127, b4), rfl, rfl, rfl, rfl, issues_of (by decide +kernel), by decide +kernel⟩

theorem witness_LoadsReadMemory_3 : ∃ (x : CoreEnv) (i : Insn) (s : State) (bs : List Byte), Safety.calm s ∧ x.data = .ok ∧ x.net = {} ∧
    Safety.issues s 31 x 0x70 i ∧ (cell (Safety.ds s 31) 0 + i.immS).toNat % 4 = 0 ∧
    coreArea (cell (Safety.ds s 31) 0 + i.immS).toNat = 3 ∧
    busRead (takeCells s 31 (needOf i)) (.core 31) (globalOf (s.core 31).cur (cell (Safety.ds s 31) 0 + i.immS).toNat) 4 =
      (takeCells s 31 (needOf i), .ok, bs) :=
  ⟨{}, iRow (0x70, 0, bWin (coreMem 30 0x10008)), sRow (0x70, 0, bWin (coreMem 30 0x10008)), [0, 0, 0, 0], rfl, rfl, rfl, issues_of (by decide +kernel), by decide +kernel, by decide +kernel, by decide +kernel⟩

/-! Chapter 14. -/

theorem witness_CoresFollowTheirPages_1 : ∃ (q : Requester) (k : Fin 32) (s : State), Safety.calm s ∧ Safety.serves s q
    (.core k) .SC_CTRL k 0 ∧ (s.core k).inReset = false :=
  ⟨.host, 31, ({ s0 with mem := [(coreMem 31 5, 6)] } : State), rfl, serves_of (by decide +kernel), by decide +kernel⟩

theorem witness_CoresFollowTheirPages_2 : ∃ (q : Requester) (k : Fin 32) (s : State), Safety.calm s ∧ Safety.serves s q
    (.core k) .SC_CTRL k 0 ∧ (s.core k).inReset = false :=
  ⟨.host, 31, sOn.wr .SC_CTRL 1 31, rfl, serves_of (by decide +kernel), by decide +kernel⟩

theorem witness_CoresFollowTheirPages_3 : ∃ (q : Requester) (k : Fin 32) (s : State), Safety.calm s ∧ Safety.serves s q
    (.core k) .SC_CTRL k 0 ∧ s.power.inReset = false :=
  ⟨.host, 31, ({ sOn with slots := [(62, { state := .filling }), (63, { state := .filled })] } : State), rfl, serves_of
    (by decide +kernel), by decide +kernel⟩

theorem witness_CoresFollowTheirPages_4 : ∃ (q : Requester) (k : Fin 32) (j : Item) (s : State), Safety.calm s ∧
    Safety.serves s q (.core k) .SC_CTRL k 0 ∧ s.power.inReset = false ∧ s.sched.items = [j] ∧ j.state = .inSlot ∧ j.core
    = k.val ∧ j.slot < 2 ∧ (s.landing k j.slot).item = some (j.queue, j.pos) :=
  ⟨.host, 31, anItem .inSlot,
    ({ sOn with slots := [(63, { state := .taken, item := some (1023, 32) })], sched := { items := [anItem .inSlot] } } :
    State), rfl, serves_of (by decide +kernel), by decide +kernel⟩

theorem witness_CoresFollowTheirPages_5 : ∃ (k : Fin 32) (s : State), Safety.calm s ∧ s.up (.core k) = true ∧ (s.core
    k).inReset = true ∧ (s.core k).stopped = true ∧ (s.core k).stopping = false :=
  ⟨31, ({ s0.wr .SC_CTRL 1 31 with cores := [(31, { inReset := true })] } : State), rfl, by decide +kernel⟩

theorem witness_CoresFollowTheirPages_6 : ∃ (q : Requester) (k : Fin 32) (s : State), Safety.calm s ∧ Safety.serves s q
    (.core k) .SC_DBELL_SET k 0 :=
  ⟨.host, 31, s0, rfl, serves_of (by decide +kernel)⟩

theorem witness_CoresFollowTheirPages_7 : ∃ (q : Requester) (k : Fin 32) (b : Fin 4) (v : Word) (s : State), Safety.calm
    s ∧ Safety.serves s q (.core k) .SC_BK_DS_BASE k b ∧ boundOk v = true ∧ (s.core k).run ≠ .halted ∧ (s.core k).run ≠
    .blocked :=
  ⟨.host, 31, 3, 0x1FFFF, s0, rfl, serves_of (by decide +kernel), by decide +kernel⟩

theorem witness_CoresFollowTheirPages_8 : ∃ (q : Requester) (k : Fin 32) (b : Fin 4) (v : Word) (s : State), Safety.calm
    s ∧ Safety.serves s q (.core k) .SC_BK_DS_LIMIT k b ∧ boundOk v = true ∧ (s.core k).run ≠ .halted ∧ (s.core k).run ≠
    .blocked :=
  ⟨.host, 31, 3, 0xFFFFFFFF, s0, rfl, serves_of (by decide +kernel), by decide +kernel⟩

theorem witness_CoresFollowTheirPages_9 : ∃ (q : Requester) (k : Fin 32) (b : Fin 4) (s : State), Safety.calm s ∧
    Safety.serves s q (.core k) .SC_BK_DSP k b ∧ (s.core k).run ≠ .halted ∧ (s.core k).run ≠ .blocked :=
  ⟨.host, 31, 3, s0, rfl, serves_of (by decide +kernel), by decide +kernel⟩

theorem witness_CoresFollowTheirPages_10 : ∃ (q : Requester) (k : Fin 32) (b : Fin 4) (s : State), Safety.calm s ∧
    Safety.serves s q (.core k) .SC_BK_RSP k b ∧ (s.core k).run ≠ .halted ∧ (s.core k).run ≠ .blocked :=
  ⟨.host, 31, 3, s0, rfl, serves_of (by decide +kernel), by decide +kernel⟩

theorem witness_CoresFollowTheirPages_11 : ∃ (q : Requester) (k : Fin 32) (b : Fin 4) (which : Fin 4) (r : Reg) (v :
    Word) (s : State), Safety.calm s ∧ (which.val, r) ∈ [(0, .SC_BK_DS_BASE), (1, .SC_BK_DS_LIMIT), (2, .SC_BK_DSP), (3,
    .SC_BK_RSP)] ∧ Safety.serves s q (.core k) r k b ∧ (s.core k).run = .halted ∧ boundOk v = true :=
  ⟨.host, 31, 3, 1, .SC_BK_DS_LIMIT, 0x1FFFF, ({ s0 with cores := [(31, { run := .halted })] } : State), rfl, by
    decide +kernel, serves_of (by decide +kernel), by decide +kernel⟩

theorem witness_CoresFollowTheirPages_12 : ∃ (q : Requester) (k : Fin 32) (b : Fin 4) (which : Fin 4) (r : Reg) (v :
    Word) (s : State), Safety.calm s ∧ (which.val, r) ∈ [(0, .SC_BK_DS_BASE), (1, .SC_BK_DS_LIMIT), (2, .SC_BK_DSP), (3,
    .SC_BK_RSP)] ∧ Safety.serves s q (.core k) r k b ∧ (s.core k).run = .blocked ∧ boundOk v = true :=
  ⟨.host, 31, 3, 2, .SC_BK_DSP, 0x1FFFF, ({ s0 with cores := [(31, { run := .blocked })] } : State), rfl, by
    decide +kernel, serves_of (by decide +kernel), by decide +kernel⟩

theorem witness_CoresFollowTheirPages_13 : ∃ (k : Fin 32) (x : CoreEnv) (i : Insn) (b : Nat) (v : Word) (s : State),
    Safety.calm s ∧ coreWorks s k = true ∧ (s.core k).stopping = false ∧ (s.core k).run = .blocked ∧ (s.core k).rep =
    false ∧ x.fetch = .ok ∧ decodeAt s k .normal (s.core k).pc = .ok i ∧ i.op = 0x7B ∧ Safety.cellsReady (s.core k)
    (needOf i) ∧ storesOut s k = [] ∧ (s.core k).storeErr = none ∧ (s.core k).mirrors = [(b, 2, v)] :=
  ⟨31, ({} : CoreEnv), one 0x7B00, 3, 0x10004, (sCore [0x7B00] b4).setCore 31
    { (sCore [0x7B00] b4).core 31 with run := .blocked, mirrors := [(3, 2, 0x10004)] }, rfl, by decide +kernel, by
    decide +kernel, by decide +kernel, by decide +kernel, by decide +kernel, by decide +kernel, by decide +kernel,
    by unfold Safety.cellsReady; decide +kernel, by decide +kernel⟩

theorem witness_SchedulerDispatchesItems_1 : ∃ (f : Nat) (k : Nat) (d : List Byte) (s : State), Safety.calm s ∧ s.ready
    .sched = true ∧ s.pwrState < 2 ∧ Safety.noStrays s ∧ choose s (Safety.candidates s) = some f ∧ offer s f = some
    (.head d) ∧ coreFor s f false = some k ∧ (s.queue (flwQueue s f)).skips = [] ∧ (readEntry s (flwQueue s f)).1 = s ∧
    Safety.copiesAgree s ∧ bit (s.rd .SCH_TRACE_CTRL) 0 = false :=
  ⟨4095, 31, headBytes, sFlow, rfl, by decide +kernel, by decide +kernel, by unfold Safety.noStrays; decide +kernel, by
    decide +kernel, by decide +kernel, by decide +kernel, by decide +kernel, by decide +kernel,
    by unfold Safety.copiesAgree; decide +kernel, by decide +kernel⟩

theorem witness_SchedulerDispatchesItems_2 : ∃ (f : Nat) (k : Nat) (j : Item) (s : State), Safety.calm s ∧ s.ready .sched
    = true ∧ s.pwrState < 2 ∧ Safety.noStrays s ∧ choose s (Safety.candidates s) = some f ∧ offer s f = some (.again j) ∧
    coreFor s f true = some k ∧ bit (s.rd .SCH_TRACE_CTRL) 4 = false :=
  ⟨4095, 31, anItem .again, ({ sFlow with sched := { items := [anItem .again] } } : State), rfl, by decide +kernel, by
    decide +kernel, by unfold Safety.noStrays; decide +kernel, by decide +kernel⟩

theorem witness_SchedulerDispatchesItems_3 : ∃ (s : State), Safety.calm s ∧ s.ready .sched = true ∧ s.pwrState < 2 ∧
    Safety.noStrays s ∧ choose s (Safety.candidates s) = none :=
  ⟨s0, rfl, by decide +kernel, by decide +kernel, by unfold Safety.noStrays; decide +kernel, by decide +kernel⟩

theorem witness_SchedulerDispatchesItems_4 : ∃ (f : Nat) (flows : List Nat) (s : State), choose s flows = some f :=
  ⟨4095, [4095], sFlow, by decide +kernel⟩

theorem witness_SchedulerDispatchesItems_5 : ∃ (f : Nat) (flows : List Nat) (s : State), choose s flows = some f ∧ ∃ g, g
    ∈ flows :=
  ⟨4095, [4095], sFlow, by decide +kernel, 4095, by decide +kernel⟩

theorem witness_SchedulerDispatchesItems_6 : ∃ (f : Nat) (flows : List Nat) (s : State), choose s flows = some f ∧ ∃ g, ∃
    c, g ∈ flows ∧ s.rdf .SCH_CLASS 0 4 0 (flwClass s g) = s.rdf .SCH_CLASS 0 4 0 (flwClass s f) ∧ tget none
    s.sched.lastClass (s.rdf .SCH_CLASS 0 4 0 (flwClass s f)) = some c ∧ c < flwClass s g :=
  ⟨4095, [4095], ({ sFlow with sched := { lastClass := [(15, some 4)] } } : State), by decide +kernel, 4095, 4, by
    decide +kernel⟩

theorem witness_SchedulerDispatchesItems_7 : ∃ (q : Nat) (d : List Byte) (s : State), Safety.calm s ∧ s.ready .sched =
    true ∧ s.pwrState < 2 ∧ itemQueues s = [q] ∧ Safety.copiesAgree s ∧ gqWrite s q = gqRead s q + 32 ∧ headItem s q =
    some d ∧ isStray s q d = true ∧ (s.queue q).skips = [] ∧ s.rd .SCH_TRACE_CTRL = 0 :=
  ⟨1023, List.replicate 32 0, ({ sFlow with mem := [] } : State), rfl, by decide +kernel, by decide +kernel, by
    decide +kernel, by unfold Safety.copiesAgree; decide +kernel, by decide +kernel⟩

theorem witness_SchedulerDispatchesItems_8 : ∃ (k : Fin 32) (i : Fin 2) (e : Ecc) (data : List Byte) (s : State),
    Safety.calm s ∧ (s.landing k i).state = .filling ∧ (s.landing k i).drop = false ∧ (s.landing k i).bytes.length = 32 ∧
    (prefetch s (s.landing k i).bytes e).2 = some data :=
  ⟨31, 1, .ok, [], sFill 0, rfl, by decide +kernel⟩

theorem witness_SchedulerDispatchesItems_9 : ∃ (k : Fin 32) (i : Fin 2) (e : Ecc) (s : State), Safety.calm s ∧ (s.landing
    k i).state = .filling ∧ (s.landing k i).drop = false ∧ (s.landing k i).bytes.length = 32 ∧ (prefetch s (s.landing k
    i).bytes e).2 = none :=
  ⟨31, 1, .ok, sFill 64, rfl, by decide +kernel⟩

theorem witness_SchedulerDispatchesItems_10 : ∃ (k : Fin 32) (i : Fin 2) (s : State), Safety.calm s ∧ (s.landing k
    i).state = .filling ∧ (s.landing k i).drop = true :=
  ⟨31, 1, ({ s0 with slots := [(63, { state := .filling, drop := true })] } : State), rfl, by decide +kernel⟩

theorem witness_SchedulerDispatchesItems_11 : ∃ (f : Fin 4096) (d : List Byte) (s : State), Safety.calm s ∧ s.ready
    .sched = true ∧ s.pwrState < 2 ∧ Safety.copiesAgree s ∧ bit (flwStatus s f) 14 = true ∧ offer s f = some (.head d) ∧
    s.rd .SCH_TRACE_CTRL = 0 ∧ (readEntry s (flwQueue s f)).1 = s :=
  ⟨4095, headBytes, ({ sFlow.wr .FLW_STATUS 0x2000 4095 with sched := { waits := [(4095, 32)] } } : State), rfl, by
    decide +kernel, by decide +kernel, by unfold Safety.copiesAgree; decide +kernel, by decide +kernel⟩

theorem witness_SchedulerDispatchesItems_12 : ∃ (f : Fin 4096) (s : State), Safety.calm s ∧ s.ready .sched = true ∧ s.rd
    .SCH_STARVE_INT ≠ 0 ∧ (offer s f).any (!isAgain ·) = true ∧ anyCore s f = false :=
  ⟨4095, ({ sFlow with cores := [] } : State), rfl, by decide +kernel⟩

theorem witness_SchedulerDispatchesItems_13 : ∃ (q : Requester) (f : Fin 4096) (s : State), Safety.calm s ∧ Safety.serves
    s q .sched .FLW_CTRL f 0 ∧ flwEn s f = false ∧ flwMode s f ≠ 3 ∧ s.rdf .FLW_CTRL 10 8 f ≤ 200 :=
  ⟨.host, 4095, sFlow.wr .FLW_CTRL 0xFFC03F0 4095, rfl, serves_of (by decide +kernel), by decide +kernel⟩

/-! Chapter 15. -/

theorem witness_BanksFollowTheirCommands_1 : ∃ (q : Requester) (b : Fin 64) (v : Word) (s : State), Safety.calm s ∧
    Safety.serves s q .banks .SPB_OWNER b 0 ∧ dmaBusy s b = false ∧ ((s.rdf .SPB_OWNER 0 3 b = 3 → bankPing s b = false))
    ∧ fld v 0 3 ≤ 4 ∧ ((fld v 0 3 = 1 → fld v 8 6 < 32)) ∧ ((fld v 0 3 = 2 → fld v 8 6 < 48)) :=
  ⟨.host, 63, 0x12F02, s0, rfl, serves_of (by decide +kernel), by decide +kernel⟩

theorem witness_BanksFollowTheirCommands_2 : ∃ (q : Requester) (b : Fin 64) (s : State), Safety.calm s ∧ Safety.serves s
    q .banks .SPB_OWNER b 0 ∧ ((dmaBusy s b = true ∨ (s.rdf .SPB_OWNER 0 3 b = 3 ∧ bankPing s b = true))) ∧ s.rd
    .FAULT_COUNT (pageOf .banks) = 0 :=
  ⟨.host, 63, sDma 1, rfl, serves_of (by decide +kernel), by decide +kernel⟩

theorem witness_BanksFollowTheirCommands_3 : ∃ (q : Requester) (b : Fin 64) (s : State), Safety.calm s ∧ Safety.serves s
    q .banks .SPB_DMA_CMD b 0 ∧ dmaBusy s b = false ∧ dmaOk s b = true :=
  ⟨.host, 63, sDma 0, rfl, serves_of (by decide +kernel), by decide +kernel⟩

theorem witness_BanksFollowTheirCommands_4 : ∃ (q : Requester) (b : Fin 64) (s : State), Safety.calm s ∧ Safety.serves s
    q .banks .SPB_DMA_CMD b 0 ∧ ((dmaBusy s b = true ∨ dmaOk s b = false)) ∧ s.rd .FAULT_COUNT (pageOf .banks) = 0 :=
  ⟨.host, 63, sDma 1, rfl, serves_of (by decide +kernel), by decide +kernel⟩

theorem witness_BanksFollowTheirCommands_5 : ∃ (q : Requester) (b : Fin 64) (s : State), Safety.calm s ∧ Safety.serves s
    q .banks .SPB_DMA_CMD b 0 :=
  ⟨.host, 63, sDma 1, rfl, serves_of (by decide +kernel)⟩

theorem witness_BanksFollowTheirCommands_6 : ∃ (b : Fin 64) (bs : List Byte) (s : State), Safety.calm s ∧ dmaBusy s b =
    true ∧ (s.spb b).stuck = false ∧ (s.spb b).out = false ∧ bankState s b = 0 ∧ dmaPacket (s.spb b).addr (s.spb b).len =
    (s.spb b).len ∧ busRead s (.bankDma b) (s.spb b).addr (s.spb b).len = (s, .ok, bs) ∧ bs.length = (s.spb b).len :=
  ⟨63, [0, 0, 0, 7] ++ List.replicate 12 0, sDma 1, rfl, by decide +kernel⟩

theorem witness_BanksFollowTheirCommands_7 : ∃ (b : Fin 64) (e : Ecc) (s : State), Safety.calm s ∧ dmaBusy s b = true ∧
    (s.spb b).stuck = false ∧ (dmaWhole s b e).1.epo.detected = [] :=
  ⟨63, .ok, sDma 1, rfl, by decide +kernel⟩

theorem witness_BanksFollowTheirCommands_8 : ∃ (q : Requester) (b : Fin 64) (v : Word) (s : State), Safety.calm s ∧
    Safety.serves s q .banks .SPB_PWR b 0 ∧ fld v 0 2 ≠ 3 ∧ fld v 4 2 ≠ 3 ∧ ((fld v 0 2 = 0 ∨ (dmaBusy s b = false ∧
    bankPing s b = false))) :=
  ⟨.host, 63, 0x21, s0, rfl, serves_of (by decide +kernel), by decide +kernel⟩

theorem witness_BanksFollowTheirCommands_9 : ∃ (q : Requester) (b : Fin 64) (v : Word) (s : State), Safety.calm s ∧
    Safety.serves s q .banks .SPB_PWR b 0 ∧ fld v 0 2 ≠ 3 ∧ fld v 0 2 ≠ 0 ∧ ((dmaBusy s b = true ∨ bankPing s b = true))
    ∧ s.rd .FAULT_COUNT (pageOf .banks) = 0 :=
  ⟨.host, 63, 1, sPing, rfl, serves_of (by decide +kernel), by decide +kernel⟩

theorem witness_BanksFollowTheirCommands_10 : ∃ (b : Fin 64) (s : State), Safety.calm s ∧ bankState s b = 3 :=
  ⟨63,
    ({ (s0.wr .SPB_STATUS 3 63).wr .SPB_PWR 2 63 with mem := [(bankBase + 63 * 2 ^ 18 - 1, 5), (bankBase + 63 * 2 ^ 18, 6), (bankBase + 2 ^ 24 - 1, 7)] }
    : State), rfl, by decide +kernel⟩

theorem witness_BanksFollowTheirCommands_11 : ∃ (b : Fin 64) (s : State), Safety.calm s ∧ bit (s.rd .SPB_TEST b) 0 = true
    ∧ bankState s b = 0 ∧ s.asleep = false :=
  ⟨63, (s0.wr .SPB_TEST 1 63).wr .SPB_TEST_STATUS 0xFF 63, rfl, by decide +kernel⟩

theorem witness_BanksFollowTheirCommands_12 : ∃ (b : Fin 64) (spares : BitVec 4) (s : State), Safety.calm s ∧ bit (s.rd
    .SPB_TEST b) 0 = true ∧ bankState s b = 0 ∧ s.asleep = false ∧ bit (s.spb b).used 0 = false ∧ bit spares 0 = false :=
  ⟨63, 0, (s0.wr .SPB_TEST 1 63).wr .SPB_TEST_STATUS 0xFF 63, rfl, by decide +kernel⟩

theorem witness_BanksFollowTheirCommands_13 : ∃ (b : Fin 64) (s : State), Safety.calm s ∧ bit (s.rd .SPB_TEST b) 0 = true
    ∧ bankState s b = 0 ∧ s.asleep = false ∧ (s.spb b).used = 15 :=
  ⟨63, ({ (s0.wr .SPB_TEST 1 63).wr .SPB_TEST_STATUS 0xFF 63 with spbs := [(63, { used := 15 })] } : State), rfl, by
    decide +kernel⟩

/-! Chapter 16. -/

theorem witness_BoundariesFall_1 : ∃ (s : State), Safety.calm s ∧ s.power.inReset = false ∧ s.asleep = false :=
  ⟨sEpoch, rfl, by decide +kernel⟩

theorem witness_BoundariesFall_2 : ∃ (s : State), Safety.calm s ∧ s.power.inReset = false ∧ s.asleep = true :=
  ⟨s0.wr .PWR_STATUS 3, rfl, by decide +kernel⟩

theorem witness_BoundariesFall_3 : ∃ (s : State), Safety.calm s :=
  ⟨({ s0 with gpio := { epochOut := true } } : State), rfl⟩

theorem witness_BoundariesFall_4 : ∃ (s : State), Safety.calm s ∧ s.rdf .EPO_STATUS 12 2 = 1 :=
  ⟨sSync 1, rfl, by decide +kernel⟩

theorem witness_BoundariesFall_5 : ∃ (s : State), Safety.calm s ∧ s.rdf .EPO_STATUS 12 2 = 2 :=
  ⟨sSync 2, rfl, by decide +kernel⟩

theorem witness_BoundariesFall_6 : ∃ (s : State), Safety.calm s ∧ s.rdf .EPO_STATUS 12 2 = 0 :=
  ⟨s0, rfl, by decide +kernel⟩

theorem witness_BoundariesFall_7 : ∃ (s : State), Safety.calm s ∧ s.power.inReset = false ∧ s.rdf .EPO_STATUS 12 2 = 1 ∧
    s.epo.placed = none :=
  ⟨sSync 1, rfl, by decide +kernel⟩

theorem witness_BoundariesFall_8 : ∃ (s : State), Safety.calm s ∧ s.power.inReset = false ∧ s.rdf .EPO_STATUS 12 2 = 2 ∧
    s.epo.placed = none :=
  ⟨sSync 2, rfl, by decide +kernel⟩

theorem witness_EpochsCommitAndRecover_1 : ∃ (d : Fin 4) (s : State), Safety.calm s ∧ Safety.copiesAgree s ∧ snapComplete
    s d = true :=
  ⟨3, (sDom { epoch := 1, snaps := [aSnap 0] } { replay := true }).wr .EPO_NUMBER 1, rfl,
    by unfold Safety.copiesAgree; decide +kernel, by decide +kernel⟩

theorem witness_EpochsCommitAndRecover_2 : ∃ (d : Fin 4) (s : State), Safety.calm s ∧ snapComplete s d = false :=
  ⟨3, sDom {} {}, rfl, by decide +kernel⟩

theorem witness_EpochsCommitAndRecover_3 : ∃ (d : Fin 4) (s : State), Safety.calm s ∧ recovering s d = true ∧ coupled s d
    = [d.val] ∧ domOutputs s d = [] ∧ s.sched.items = [] ∧ Safety.copiesAgree s ∧ ((∀ x, x ∈ domTiles s d → (s.tile
    x).ports = [] ∧ (s.tile x).undo = [] ∧ (s.tile x).mems = [] ∧ ∃ y, (s.tile x).kept = some y ∧ y.image = [])) ∧ ((∀ q,
    q ∈ domInputs s d → (s.queue q).skips = [] ∧ ∃ m, gqMark s q = some m ∧ m ≤ gqWrite s q)) :=
  ⟨3, sRecover, rfl, by decide +kernel, by decide +kernel, by decide +kernel, by decide +kernel,
    by unfold Safety.copiesAgree; decide +kernel, recover_tiles, recover_inputs⟩

theorem witness_EpochsCommitAndRecover_4 : ∃ (d : Fin 4) (x : Fin 48) (s : State), Safety.calm s ∧ recovering s d = true
    ∧ coupled s d = [d.val] ∧ Safety.copiesAgree s ∧ ((∀ y, y ∈ domTiles s d → (s.tile y).mems = [])) ∧ (domTiles s
    d).find? (fun y => y == x.val) = some x.val :=
  ⟨3, 47, (sDom { epoch := 1 } { next := 1 }).wr .EPO_STATUS 8, rfl, by decide +kernel, by decide +kernel,
    by unfold Safety.copiesAgree; decide +kernel, by decide +kernel⟩

/-! Chapter 17. -/

theorem witness_PacketsArePerformed_1 : ∃ (q : Requester) (tag : BitVec 12) (a : Addr) (n : Nat) (d : Endpoint) (s :
    State), Safety.calm s ∧ Safety.reaches s q a.toNat n false ∧ Safety.comesTo s q a.toNat n d ∧ reqOf s q tag = none ∧
    badIn s a.toNat n = false :=
  ⟨.host, 0xFFF, bankAddr, 256, ⟨63, 4⟩, sBank, rfl, reaches_of (by decide +kernel), comesTo_of (by decide +kernel), by
    decide +kernel⟩

theorem witness_PacketsArePerformed_2 : ∃ (q : Requester) (tag : BitVec 12) (a : Addr) (bs : List Byte) (d : Endpoint) (s
    : State), Safety.calm s ∧ Safety.reaches s q a.toNat bs.length true ∧ Safety.comesTo s q a.toNat bs.length d ∧ reqOf
    s q tag = none :=
  ⟨.host, 0xFFF, bankAddr, List.replicate 16 9, ⟨63, 4⟩, sBank, rfl, reaches_of (by decide +kernel), comesTo_of (by
    decide +kernel), by decide +kernel⟩

theorem witness_PacketsArePerformed_3 : ∃ (q : Requester) (tag : BitVec 12) (a : Addr) (d : Endpoint) (s : State),
    Safety.calm s ∧ Safety.reaches s q a.toNat 4 true ∧ Safety.comesTo s q a.toNat 4 d ∧ reqOf s q tag = none ∧ badIn s
    a.toNat 4 = false :=
  ⟨.host, 0xFFF, bankAddr, ⟨63, 4⟩, sBank, rfl, reaches_of (by decide +kernel), comesTo_of (by decide +kernel), by
    decide +kernel⟩

theorem witness_PacketsArePerformed_4 : ∃ (q : Requester) (tag : BitVec 12) (a : Addr) (d : Endpoint) (s : State),
    Safety.calm s ∧ Safety.reaches s q a.toNat 4 true ∧ Safety.comesTo s q a.toNat 4 d ∧ reqOf s q tag = none ∧ badIn s
    a.toNat 4 = false :=
  ⟨.host, 0xFFF, bankAddr, ⟨63, 4⟩, sBank, rfl, reaches_of (by decide +kernel), comesTo_of (by decide +kernel), by
    decide +kernel⟩

theorem witness_PacketsArePerformed_5 : ∃ (q : Requester) (tag : BitVec 12) (a : Addr) (d : Endpoint) (s : State),
    Safety.calm s ∧ Safety.reaches s q a.toNat 4 true ∧ Safety.comesTo s q a.toNat 4 d ∧ reqOf s q tag = none ∧ badIn s
    a.toNat 4 = false :=
  ⟨.host, 0xFFF, bankAddr, ⟨63, 4⟩, sBank, rfl, reaches_of (by decide +kernel), comesTo_of (by decide +kernel), by
    decide +kernel⟩

theorem witness_PacketsArePerformed_6 : ∃ (a : Addr) (bs : List Byte) (s : State), Safety.calm s ∧ s.asleep = false ∧
    Safety.reaches s .host a.toNat bs.length true :=
  ⟨bankAddr, [9], sBank, rfl, by decide +kernel, reaches_of (by decide +kernel)⟩

theorem witness_PacketsArePerformed_7 : ∃ (a : Addr) (bs : List Byte) (d : Endpoint) (r : Nat) (s : State), Safety.calm s
    ∧ s.asleep = false ∧ wrongForm s .host .wrp a.toNat bs.length = false ∧ destOf s (endpointOf .host).router a.toNat =
    some d ∧ compareOn s (wayFrom s (endpointOf .host).router d).1 = s ∧ refusedAt s (endpointOf .host) d = some r :=
  ⟨bankAddr, [9], ⟨63, 4⟩, 59, sBank.wr .CRT_PORT_EN 0 59, rfl, by decide +kernel⟩

theorem witness_PacketsArePerformed_8 : ∃ (q : Fin 32) (k : Fin 32) (d : Endpoint) (s : State), Safety.calm s ∧ wrongForm
    s (.core q) .dbell (coreMem k 0) 4 = false ∧ carry s (.core q) (requestOf (.core q) .dbell (coreMem k 0) 4) = (s,
    .target d false) :=
  ⟨0, 31, ⟨55, 3⟩, s0, rfl, by decide +kernel⟩

theorem witness_PacketsArePerformed_9 : ∃ (q : Requester) (tag : BitVec 12) (a : Addr) (n : Nat) (s : State), Safety.calm
    s ∧ portOpen s q = true ∧ reqOf s q tag = none ∧ wrongForm s q .rd a.toNat n = true :=
  ⟨.host, 0xFFF, bankAddr, 5, sBank, rfl, by decide +kernel⟩

theorem witness_PacketsArePerformed_10 : ∃ (q : Requester) (tag : BitVec 12) (a : Addr) (n : Nat) (d : Endpoint) (h : Fin
    64) (m : BitVec 128) (z : Hop) (s : State), Safety.calm s ∧ portOpen s q = true ∧ s.asleep = false ∧ reqOf s q tag =
    none ∧ wrongForm s q .rd a.toNat n = false ∧ destOf s (endpointOf q).router a.toNat = some d ∧ portOn s (endpointOf
    q).router (8 + (endpointOf q).port) = true ∧ dropHop (wayFrom s (endpointOf q).router d).1 (requestOf q .rd a.toNat n
    tag.toNat) (endpointOf q) d { hdr := some (h, m) } = some z ∧ compareOn s (passed (wayFrom s (endpointOf q).router
    d).1 (some z)) = s :=
  ⟨.host, 0xFFF, bankAddr, 16, ⟨63, 4⟩, 63, 1, ⟨63, 3, true⟩, sBank, rfl, by decide +kernel⟩

theorem witness_PacketsArePerformed_11 : ∃ (q : Requester) (tag : BitVec 12) (a : Addr) (bs : List Byte) (d : Endpoint)
    (u : Fin 64) (s : State), Safety.calm s ∧ portOpen s q = true ∧ s.asleep = false ∧ reqOf s q tag = none ∧ wrongForm s
    q .wr a.toNat bs.length = false ∧ Safety.comesTo s q a.toNat bs.length d ∧ ((wayFrom s (endpointOf q).router d).1.any
    fun z => z.router == u.val) = true :=
  ⟨.host, 0xFFF, bankAddr, List.replicate 16 9, ⟨63, 4⟩, 63, sBank, rfl, by decide +kernel, by decide +kernel, by
    decide +kernel, by decide +kernel, comesTo_of (by decide +kernel), by decide +kernel⟩

theorem witness_PacketsArePerformed_12 : ∃ (q : Requester) (tag : BitVec 12) (s : State), Safety.calm s ∧ (reqOf s q
    tag).isSome = true :=
  ⟨.host, 0xFFF, ({ sBank with reqs := [aReq] } : State), rfl, by decide +kernel⟩

theorem witness_ResponsesAndReconfigurations_1 : ∃ (q : Requester) (tag : BitVec 12) (r : Req) (s : State), Safety.calm s
    ∧ reqOf s q tag = some r ∧ r.lost = false ∧ r.late = false ∧ r.store = none ∧ Safety.returns s q r ∧ r.reads = true
    :=
  ⟨.host, 0xFFF, aReq, ({ s0 with reqs := [aReq] } : State), rfl, by decide +kernel, by decide +kernel, by
    decide +kernel, by decide +kernel, by unfold Safety.returns; decide +kernel, by decide +kernel⟩

theorem witness_ResponsesAndReconfigurations_2 : ∃ (q : Requester) (tag : BitVec 12) (r : Req) (s : State), Safety.calm s
    ∧ reqOf s q tag = some r ∧ r.lost = false ∧ r.late = false ∧ r.store = none ∧ Safety.returns s q r ∧ r.reads = false
    :=
  ⟨.host, 0xFFF, ({ aReq with reads := false } : Req), ({ s0 with reqs := [{ aReq with reads := false }] } : State), rfl,
    by decide +kernel, by decide +kernel, by decide +kernel, by decide +kernel, by unfold Safety.returns; decide +kernel,
    by decide +kernel⟩

theorem witness_ResponsesAndReconfigurations_3 : ∃ (k : Fin 32) (tag : BitVec 12) (r : Req) (a : Word) (s : State),
    Safety.calm s ∧ reqOf s (.core k) tag = some r ∧ r.reads = false ∧ r.lost = false ∧ r.late = false ∧ r.store = some a
    ∧ r.who = .core k ∧ Safety.returns s (.core k) r :=
  ⟨31, 5, aStore, 0x80000000, ({ s0 with reqs := [aStore] } : State), rfl, by decide +kernel, by decide +kernel, by
    decide +kernel, by decide +kernel, by decide +kernel, by decide +kernel, by unfold Safety.returns; decide +kernel⟩

theorem witness_ResponsesAndReconfigurations_4 : ∃ (q : Requester) (tag : BitVec 12) (s : State), Safety.calm s ∧ reqOf s
    q tag = none :=
  ⟨.host, 0xFFF, s0, rfl, by decide +kernel⟩

theorem witness_ResponsesAndReconfigurations_5 : ∃ (q : Requester) (tag : BitVec 12) (s : State), Safety.calm s ∧ reqOf s
    q tag = none :=
  ⟨.host, 0xFFF, s0, rfl, by decide +kernel⟩

theorem witness_ResponsesAndReconfigurations_6 : ∃ (q : Requester) (tag : BitVec 12) (r : Req) (s : State), Safety.calm s
    ∧ reqOf s q tag = some r ∧ r.late = false ∧ r.store = none ∧ s.rdf .CRT_RSP_TIMEOUT 0 16 (endpointOf q).router ≠ 0 :=
  ⟨.host, 0xFFF, aReq, ({ s0 with reqs := [aReq] } : State), rfl, by decide +kernel⟩

theorem witness_ResponsesAndReconfigurations_7 : ∃ (k : Fin 32) (tag : BitVec 12) (r : Req) (a : Word) (s : State),
    Safety.calm s ∧ reqOf s (.core k) tag = some r ∧ r.late = false ∧ r.store = some a ∧ r.who = .core k ∧ s.rdf
    .CRT_RSP_TIMEOUT 0 16 (endpointOf (.core k)).router ≠ 0 :=
  ⟨31, 5, aStore, 0x80000000, ({ s0 with reqs := [aStore] } : State), rfl, by decide +kernel⟩

theorem witness_ResponsesAndReconfigurations_8 : ∃ (q : Requester) (r : Fin 64) (s : State), Safety.calm s ∧
    Safety.serves s q (.router r) .CRT_CMD r 0 ∧ bit (s.rd .CRT_STATUS r) 0 = false :=
  ⟨.host, 63, s0, rfl, serves_of (by decide +kernel), by decide +kernel⟩

theorem witness_ResponsesAndReconfigurations_9 : ∃ (q : Requester) (r : Fin 64) (s : State), Safety.calm s ∧
    Safety.serves s q (.router r) .CRT_CMD r 0 ∧ bit (s.rd .CRT_STATUS r) 0 = true ∧ s.rd .FAULT_COUNT (pageOf (.router
    r)) = 0 :=
  ⟨.host, 63, sRcfg 1, rfl, serves_of (by decide +kernel), by decide +kernel⟩

theorem witness_ResponsesAndReconfigurations_10 : ∃ (r : Fin 64) (s : State), Safety.calm s ∧ bit (s.rd .CRT_STATUS r) 0
    = true ∧ tget false s.resetting (0x700 + r) = false :=
  ⟨63, sRcfg 1, rfl, by decide +kernel⟩

theorem witness_ResponsesAndReconfigurations_11 : ∃ (r : Fin 64) (s : State), Safety.calm s ∧ bit (s.rd .CRT_STATUS r) 0
    = true ∧ tget false s.resetting (0x700 + r) = false :=
  ⟨63, sRcfg 3, rfl, by decide +kernel⟩

/-! Chapter 18. -/

theorem witness_LinkTrains_1 : ∃ (q : Requester) (v : Word) (s : State), Safety.calm s ∧ Safety.serves s q .link
    .RLK_CTRL 0 0 ∧ fld v 8 4 ≠ 0 :=
  ⟨.host, 0x400, sLink 4, rfl, serves_of (by decide +kernel), by decide +kernel⟩

theorem witness_LinkTrains_2 : ∃ (s : State), Safety.calm s ∧ s.up .link = true ∧ linkState s = 1 ∧ nearEnd s = false :=
  ⟨sLink 1, rfl, by decide +kernel⟩

theorem witness_LinkTrains_4 : ∃ (s : State), Safety.calm s ∧ s.up .link = true ∧ ((linkState s = 2 ∨ linkState s = 5))
    :=
  ⟨sLink 2, rfl, by decide +kernel⟩

theorem witness_LinkTrains_5 : ∃ (n : Nat) (h : Fin 4 → BitVec 58) (s : State), Safety.calm s ∧ s.up .link = true ∧
    ((linkState s = 3 ∨ linkState s = 5 ∧ s.link.aligned = true)) ∧ s.link.rx = ((List.finRange 4).map fun (i : Fin 4) =>
    Safety.heard (bit (s.rd .RLK_TRAIN) i) (h i) (List.replicate n ⟨BitVec.ofNat 3 (laneAt (bit (s.rd .RLK_TRAIN) 4) i),
    true, 3, 1, true⟩)) :=
  ⟨17, fun _ => 0x2AAAAAAAAAAAAAA, sReady, rfl, by decide +kernel⟩

theorem witness_LinkTrains_6 : ∃ (s : State), Safety.calm s ∧ linkState s = 4 :=
  ⟨sLink 4, rfl, by decide +kernel⟩

theorem witness_LinkTrains_7 : ∃ (q : Requester) (s : State), Safety.calm s ∧ Safety.serves s q .link .RLK_CMD 0 0 :=
  ⟨.host, sLink 4, rfl, serves_of (by decide +kernel)⟩

theorem witness_LinkTrains_8 : ∃ (q : Requester) (s : State), Safety.calm s ∧ Safety.serves s q .link .RLK_CMD 0 0 ∧
    nearEnd s = true :=
  ⟨.host, (sLink 1).wr .LOOP_CTRL 2 0xF00, rfl, serves_of (by decide +kernel), by decide +kernel⟩

theorem witness_LinkTrains_9 : ∃ (s : State), Safety.calm s ∧ linkState s = 5 :=
  ⟨sLink 5, rfl, by decide +kernel⟩

theorem witness_LinkTrains_10 : ∃ (s : State), Safety.calm s ∧ linkState s = 6 :=
  ⟨(sLink 6).wr .LOOP_CTRL 4 0xF00, rfl, by decide +kernel⟩

theorem witness_LinkTrains_11 : ∃ (s : State), Safety.calm s ∧ s.link.looping = true :=
  ⟨sLink 1 { looping := true }, rfl, by decide +kernel⟩

theorem witness_LinkTrains_12 : ∃ (payload : BitVec 512) (ctl : BitVec 64) (s : State), Safety.calm s ∧ s.up .link = true
    ∧ linkState s = 4 ∧ flitGood payload ctl = true ∧ fld ctl 24 4 = 2 :=
  ⟨0, Tests.ctl 0 0 2 0, sLink 4
    { waiting := [aFlit 0], replay := [aFlit 1], rxSeq := 7, streams := [(15, { next := 32, read := 16 })] }, rfl, by
    decide +kernel⟩

theorem witness_FlitsAreSequenced_1 : ∃ (payload : BitVec 512) (ctl : BitVec 64) (s : State), Safety.calm s ∧ s.up .link
    = true ∧ linkState s = 4 ∧ flitGood payload ctl = true ∧ 4 ≤ fld ctl 24 4 :=
  ⟨0, Tests.ctl 4095 0 4 0, sLink 4 { rxSeq := 4095 }, rfl, by decide +kernel⟩

theorem witness_FlitsAreSequenced_2 : ∃ (payload : BitVec 512) (ctl : BitVec 64) (s : State), Safety.calm s ∧ s.up .link
    = true ∧ linkState s = 4 ∧ flitGood payload ctl = false :=
  ⟨1, Tests.ctl 4095 0 4 0, sLink 4 { rxSeq := 4095 }, rfl, by decide +kernel⟩

theorem witness_FlitsAreSequenced_3 : ∃ (payload : BitVec 512) (ctl : BitVec 64) (s : State), Safety.calm s ∧ s.up .link
    = true ∧ linkState s = 4 ∧ flitGood payload ctl = true ∧ fld ctl 24 4 = 0 ∧ ((∀ f, f ∈ s.link.replay → f.bulk =
    none)) :=
  ⟨0, Tests.ctl 0 2047 0 0xFFF, sLink 4 { replay := [aFlit 0, aFlit 2047, aFlit 2048] }, rfl, by decide +kernel⟩

theorem witness_FlitsAreSequenced_4 : ∃ (payload : BitVec 512) (ctl : BitVec 64) (s : State), Safety.calm s ∧ s.up .link
    = true ∧ linkState s = 4 ∧ flitGood payload ctl = true ∧ fld ctl 24 4 = 1 ∧ ((∀ f, f ∈ s.link.replay → 2048 ≤
    (BitVec.ofNat 12 (fld ctl 12 12) - f.seq).toNat)) :=
  ⟨0, Tests.ctl 0 2047 1 0, sLink 4 { replay := [aFlit 2048, aFlit 2049], replays := 3 }, rfl, by decide +kernel⟩

theorem witness_FlitsAreSequenced_5 : ∃ (s : State), Safety.calm s ∧ s.up .link = true ∧ linkState s = 4 :=
  ⟨sLink 4 { replay := [aFlit 2048, aFlit 2049], replays := 4 }, rfl, by decide +kernel⟩

theorem witness_TransactionsAreAnswered_1 : ∃ (x : Tran) (s : State), Safety.calm s ∧ Safety.takes s x 1 ∧ ((∀ e, e ∈
    x.ecc → e = .ok)) ∧ Safety.reaches s .host x.addr.toNat 4 false ∧ badIn s x.addr.toNat 4 = false :=
  ⟨tran 1 4, sHost (tran 1 4), rfl, by unfold Safety.takes; decide +kernel, by decide +kernel, reaches_of (by
    decide +kernel), by decide +kernel⟩

theorem witness_TransactionsAreAnswered_2 : ∃ (x : Tran) (s : State), Safety.calm s ∧ Safety.takes s x 2 ∧ ((∀ e, e ∈
    x.ecc → e = .ok)) ∧ Safety.reaches s .host x.addr.toNat 4 true :=
  ⟨tran 2 4, sHost (tran 2 4), rfl, by unfold Safety.takes; decide +kernel, by decide +kernel, reaches_of (by
    decide +kernel)⟩

theorem witness_TransactionsAreAnswered_3 : ∃ (x : Tran) (s : State), Safety.calm s ∧ Safety.takes s x 3 ∧ ((∀ e, e ∈
    x.ecc → e = .ok)) ∧ Safety.reaches s .host x.addr.toNat x.len.toNat false ∧ badIn s x.addr.toNat x.len.toNat = false
    ∧ blockPacket x.addr.toNat x.len.toNat = x.len.toNat :=
  ⟨tran 3 240, sHost (tran 3 240), rfl, by unfold Safety.takes; decide +kernel, by decide +kernel, reaches_of (by
    decide +kernel), by decide +kernel⟩

theorem witness_TransactionsAreAnswered_4 : ∃ (x : Tran) (s : State), Safety.calm s ∧ Safety.takes s x 4 ∧ ((∀ e, e ∈
    x.ecc → e = .ok)) ∧ Safety.reaches s .host x.addr.toNat x.len.toNat true ∧ blockPacket x.addr.toNat x.len.toNat =
    x.len.toNat :=
  ⟨tran 4 16 [1, 2, 3], sHost (tran 4 16 [1, 2, 3]), rfl, by unfold Safety.takes; decide +kernel, by decide +kernel,
    reaches_of (by decide +kernel), by decide +kernel⟩

theorem witness_TransactionsAreAnswered_5 : ∃ (x : Tran) (s : State), Safety.calm s ∧ Safety.takes s x 5 ∧ ((∀ e, e ∈
    x.ecc → e = .ok)) ∧ Safety.reaches s .host x.addr.toNat x.len.toNat true ∧ blockPacket x.addr.toNat x.len.toNat =
    x.len.toNat :=
  ⟨tran 5 16 [1, 2, 3], sHost (tran 5 16 [1, 2, 3]), rfl, by unfold Safety.takes; decide +kernel, by decide +kernel,
    reaches_of (by decide +kernel), by decide +kernel⟩

theorem witness_TransactionsAreAnswered_6 : ∃ (x : Tran) (s : State), Safety.calm s ∧ Safety.takes s x 10 ∧
    x.stream.toNat < 16 :=
  ⟨tran 10 0, sHost (tran 10 0), rfl, by unfold Safety.takes; decide +kernel, by decide +kernel⟩

theorem witness_TransactionsAreAnswered_7 : ∃ (x : Tran) (s : State), Safety.calm s ∧ Safety.takes s x 11 :=
  ⟨tran 11 0, sHost (tran 11 0), rfl, by unfold Safety.takes; decide +kernel⟩

theorem witness_TransactionsAreAnswered_8 : ∃ (x : Tran) (s : State), Safety.calm s ∧ linkState s = 4 ∧ s.up .link = true
    ∧ s.pwrState = 0 ∧ tranHeld s x = true ∧ malformed x = false ∧ x.ttype.toNat = 2 ∧ 256 ≤ outstanding s :=
  ⟨tran 2 4,
    ({ sHost (tran 2 4) with link := { rxq := tranPayloads (tran 2 4), waiting := List.replicate 256 { aFlit 0 with cpl := true } } }
    : State), rfl, by decide +kernel⟩

theorem witness_TransactionsAreAnswered_9 : ∃ (x : Tran) (depart : DWord) (c : Instr) (s : State), Safety.calm s ∧
    linkState s = 4 ∧ s.up .link = true ∧ tranHeld s x = true ∧ malformed x = true ∧ c ∈ [.regRd x, .regWr x, .blkRd x,
    .blkWr x, .blkWrP x, .bulkGrant x, .sync x depart] :=
  ⟨tran 3 4097, 0, .blkRd (tran 3 4097), sHost (tran 3 4097), rfl, by decide +kernel⟩

theorem witness_StreamsSend_1 : ∃ (i : Fin 16) (q : Nat) (e : Nat) (ends : List Nat) (s : State), Safety.calm s ∧
    linkState s = 4 ∧ s.up .link = true ∧ s.asleep = false ∧ streamQueue s i = some q ∧ bit (s.rd .RLK_BS_CTRL 0 i) 0 =
    true ∧ (s.queue q).skips = [] ∧ gqRead s q = (s.stream i).read ∧ (s.stream i).cut = false ∧ (s.stream i).span = none
    ∧ (s.stream i).next < gqWrite s q ∧ entriesHeld s q (s.stream i).next (wholeEntries s q (s.stream i).next (grantRoom
    s i (s.stream i).next) 256 (s.stream i).next) = ends ∧ ends.getLast? = some e ∧ 32 ≤ e - (s.stream i).next ∧
    (entriesBytes s q (s.stream i).next ends).1 = s :=
  ⟨15, 1023, 64, [48, 64], sBulk 64, rfl, by decide +kernel⟩

theorem witness_StreamsSend_2 : ∃ (i : Fin 16) (q : Nat) (s : State), Safety.calm s ∧ linkState s = 4 ∧ s.up .link = true
    ∧ s.asleep = false ∧ streamQueue s i = some q ∧ bit (s.rd .RLK_BS_CTRL 0 i) 0 = true ∧ (s.queue q).skips = [] ∧
    gqRead s q = (s.stream i).read ∧ (s.stream i).cut = false ∧ (s.stream i).span = none ∧ (s.stream i).next < gqWrite s
    q ∧ grantRoom s i (s.stream i).next = 0 ∧ 0 < entrySize s q (s.stream i).next :=
  ⟨15, 1023, sBulk 32, rfl, by decide +kernel⟩

theorem witness_StreamsSend_3 : ∃ (i : Fin 16) (s : State), Safety.calm s ∧ bit (s.rd .RLK_BS_STATUS 0 i) 1 = true :=
  ⟨15, s0.wr .RLK_BS_STATUS 2 0 15, rfl, by decide +kernel⟩

/-! Chapter 19. -/

theorem witness_FlashBoots_1 : ∃ (s : State), Safety.calm s ∧ bootState s = 1 :=
  ⟨sBoot, rfl, by decide +kernel⟩

theorem witness_FlashBoots_2 : ∃ (x : FlashCopy) (s : State), Safety.calm s ∧ bootState s = 1 ∧ manifestError s 1 (256 +
    x.payload.length) x.manifest (keyOk s x.manifest) = 0 ∧ digestOk x.manifest x.payload = true ∧ mCommit x.manifest =
    false ∧ s.sec.log = [] :=
  ⟨⟨man3, []⟩, sBoot, rfl, by decide +kernel, accepted_man3, by decide +kernel⟩

theorem witness_FlashBoots_3 : ∃ (x : FlashCopy) (s : State), Safety.calm s ∧ bootState s = 1 ∧ manifestError s 1 (256 +
    x.payload.length) x.manifest (keyOk s x.manifest) = 0 ∧ digestOk x.manifest x.payload = true ∧ mCommit x.manifest =
    false ∧ s.sec.log = [] :=
  ⟨⟨man3, []⟩, sBoot, rfl, by decide +kernel, accepted_man3, by decide +kernel⟩

theorem witness_FlashBoots_4 : ∃ (x : FlashCopy) (y : FlashCopy) (s : State), Safety.calm s ∧ bootState s = 1 ∧
    manifestError s 1 (256 + x.payload.length) x.manifest (keyOk s x.manifest) = 0 ∧ manifestError s 1 (256 +
    y.payload.length) y.manifest (keyOk s y.manifest) = 0 ∧ mVersion x.manifest = mVersion y.manifest ∧ cut x.manifest
    0x20 0x60 ≠ cut y.manifest 0x20 0x60 :=
  ⟨⟨man3, []⟩, ⟨man3b, [1]⟩, sBoot, rfl, by decide +kernel, accepted_man3, accepted_man3b, by decide +kernel⟩

theorem witness_FlashBoots_5 : ∃ (x : FlashCopy) (y : FlashCopy) (s : State), Safety.calm s ∧ bootState s = 1 ∧
    manifestError s 1 (256 + x.payload.length) x.manifest (keyOk s x.manifest) = 0 ∧ manifestError s 1 (256 +
    y.payload.length) y.manifest (keyOk s y.manifest) = 0 ∧ mVersion x.manifest < mVersion y.manifest ∧ digestOk
    y.manifest y.payload = true ∧ mCommit y.manifest = false ∧ s.sec.log = [] :=
  ⟨⟨man3, []⟩, ⟨man4, []⟩, sBoot, rfl, by decide +kernel, accepted_man3, accepted_man4, by decide +kernel⟩

theorem witness_SecurityCommandsRun_1 : ∃ (q : Requester) (n : BitVec 7) (c : Instr) (op : Nat) (v : Nat) (s : State),
    Safety.calm s ∧ Safety.serves s q .security .SEC_CMD 0 0 ∧ (c, op, v) ∈ [(.bootLink q, 1, 0), (.bootCopyA q, 2, 0),
    (.bootCopyB q, 3, 0), (.keyCommand q, 4, 0), (.debugOpen q, 5, 0), (.debugClose q, 6, 0), (.debugChallenge q, 7, 0),
    (.quote q, 8, 0), (.cfgRollback q n, 9, n.toNat)] ∧ s.sec.cmd = none :=
  ⟨.host, 127, .cfgRollback .host 127, 9, 127, s0, rfl, serves_of (by decide +kernel), by decide +kernel⟩

theorem witness_SecurityCommandsRun_2 : ∃ (q : Requester) (n : BitVec 7) (c : Instr) (op : Nat) (v : Nat) (s : State),
    Safety.calm s ∧ Safety.serves s q .security .SEC_CMD 0 0 ∧ (c, op, v) ∈ [(.bootLink q, 1, 0), (.bootCopyA q, 2, 0),
    (.bootCopyB q, 3, 0), (.keyCommand q, 4, 0), (.debugOpen q, 5, 0), (.debugClose q, 6, 0), (.debugChallenge q, 7, 0),
    (.quote q, 8, 0), (.cfgRollback q n, 9, n.toNat)] ∧ s.sec.cmd.isSome = true :=
  ⟨.host, 127, .quote .host, 8, 0, sSec 9 1, rfl, serves_of (by decide +kernel), by decide +kernel⟩

theorem witness_SecurityCommandsRun_3 : ∃ (c : Nat) (v : Nat) (s : State), Safety.calm s ∧ s.sec.cmd = some (c, v) :=
  ⟨9, 64, sSec 9 64, rfl, by decide +kernel⟩

theorem witness_SecurityCommandsRun_4 : ∃ (v : Nat) (s : State), Safety.calm s ∧ s.sec.cmd = some (7, v) :=
  ⟨0, sSec 7 0, rfl, by decide +kernel⟩

theorem witness_SecurityCommandsRun_5 : ∃ (v : Nat) (s : State), Safety.calm s ∧ s.sec.cmd = some (6, v) :=
  ⟨0, (sSec 6 0).wr .SEC_DBG_STATUS 0x32, rfl, by decide +kernel⟩

theorem witness_SecurityCommandsRun_6 : ∃ (c : Nat) (v : Nat) (s : State), Safety.calm s ∧ s.sec.cmd = some (c, v) ∧ (((c
    = 1 ∧ bootState s ≠ 2 ∧ bootState s ≠ 3 ∧ bootState s ≠ 4) ∨ ((c = 2 ∨ c = 3) ∧ s.sec.copies = none) ∨ (c = 5 ∧ s.rdf
    .SEC_DBG_STATUS 0 2 ≠ 1))) :=
  ⟨1, 0, sSec 1 0, rfl, by decide +kernel⟩

theorem witness_SecurityCommandsRun_7 : ∃ (v : Nat) (a : FlashCopy) (b : FlashCopy) (s : State), Safety.calm s ∧
    bootState s = 3 ∧ s.sec.copies = some (a, b) ∧ s.sec.log = [] ∧ s.sec.cmd = some (2, v) ∧ digestOk a.manifest
    a.payload = true ∧ mCommit a.manifest = false :=
  ⟨0, ⟨man3, []⟩, ⟨man3b, [1]⟩, sAmbiguous 2, rfl, by decide +kernel⟩

theorem witness_SecurityCommandsRun_8 : ∃ (v : Nat) (a : FlashCopy) (b : FlashCopy) (s : State), Safety.calm s ∧
    bootState s = 3 ∧ s.sec.copies = some (a, b) ∧ s.sec.log = [] ∧ s.sec.cmd = some (3, v) ∧ digestOk b.manifest
    b.payload = true ∧ mCommit b.manifest = false :=
  ⟨0, ⟨man3, []⟩, ⟨man3b, [1]⟩, sAmbiguous 3, rfl, by decide +kernel⟩

theorem witness_SecurityCommandsRun_9 : ∃ (v : Nat) (s : State), Safety.calm s ∧ s.sec.cmd = some (9, v) ∧ v ≤ 64 ∧
    s.hold = false ∧ cfgCount s < v ∧ v ≤ s.sec.cfgHigh :=
  ⟨64, sSec 9 64, rfl, by decide +kernel⟩

theorem witness_SecurityCommandsRun_10 : ∃ (v : Nat) (s : State), Safety.calm s ∧ s.sec.cmd = some (9, v) ∧ v ≤ 64 ∧
    s.hold = false ∧ cfgCount s < v ∧ s.sec.cfgHigh < v :=
  ⟨64, ({ sSec 9 64 with sec := { cmd := some (9, 64), cfgHigh := 63 } } : State), rfl, by decide +kernel⟩

theorem witness_SecurityCommandsRun_11 : ∃ (v : Nat) (s : State), Safety.calm s ∧ s.sec.cmd = some (9, v) ∧ v ≤ 64 ∧
    s.hold = false ∧ v ≤ cfgCount s :=
  ⟨0, sSec 9 0, rfl, by decide +kernel⟩

theorem witness_SecurityCommandsRun_12 : ∃ (v : Nat) (s : State), Safety.calm s ∧ s.sec.cmd = some (8, v) ∧ (idSeed
    s).isSome = true :=
  ⟨0, sSec 8 0, rfl, by decide +kernel⟩

/-! Chapter 20. -/

theorem witness_HealthIsWatched_1 : ∃ (ts : List (BitVec 12)) (s : State), Safety.calm s ∧ ts.length ≤ 32 :=
  ⟨List.replicate 31 0x100 ++ [0x7FF], s0, rfl, by decide +kernel⟩

theorem witness_HealthIsWatched_2 : ∃ (vs : List (BitVec 12)) (s : State), Safety.calm s ∧ vs.length ≤ 24 :=
  ⟨List.replicate 23 800 ++ [4095], s0, rfl, by decide +kernel⟩

theorem witness_HealthIsWatched_3 : ∃ (ps : List (Option (BitVec 16))) (s : State), Safety.calm s ∧ bit (s.rd .HLT_CTRL)
    0 = true ∧ s.hold = false ∧ bootState s = 5 ∧ ps.length ≤ 96 :=
  ⟨List.replicate 95 (some 1000) ++ [none], sImage.wr .HLT_CTRL 1, rfl, by decide +kernel⟩

theorem witness_HealthIsWatched_4 : ∃ (cur : Nat) (s : State), Safety.calm s ∧ bit (s.rd .HLT_CTRL) 1 = true ∧ s.hold =
    false ∧ s.rdf .HLT_AVS_SET 0 10 ≠ 0 ∧ s.health.vout = some cur ∧ cur ≠ s.rdf .HLT_AVS_SET 0 10 :=
  ⟨748, sAvs 748 0, rfl, by decide +kernel⟩

theorem witness_HealthIsWatched_5 : ∃ (cur : Nat) (s : State), Safety.calm s ∧ bit (s.rd .HLT_CTRL) 1 = true ∧ s.hold =
    false ∧ s.rdf .HLT_AVS_SET 0 10 ≠ 0 ∧ s.health.vout = some cur ∧ cur ≠ s.rdf .HLT_AVS_SET 0 10 :=
  ⟨800, sAvs 800 1, rfl, by decide +kernel⟩

theorem witness_HealthIsWatched_6 : ∃ (reading : Nat) (s : State), Safety.calm s ∧ bit (s.rd .HLT_CTRL) 1 = true ∧ s.hold
    = false ∧ s.rdf .HLT_AVS_SET 0 10 ≠ 0 ∧ s.health.vout = some (s.rdf .HLT_AVS_SET 0 10) ∧ bit (s.rd .HLT_AVS_STATUS) 0
    = true ∧ reading < 1024 :=
  ⟨766, sAvs 750 1, rfl, by decide +kernel⟩

theorem witness_TilesRotateAndAreTested_1 : ∃ (x : Nat) (p : Nat) (s : State), Safety.calm s ∧ bit (s.rd .HLT_ROT_CTRL) 0
    = true ∧ s.rdf .HLT_ROT_STATUS 0 3 = 0 ∧ s.health.rotEpoch + s.rdf .HLT_ROT_CTRL 8 16 ≤ epochNow s ∧ candidate s =
    some x ∧ ((List.range 32).map (8 + ·)).find? (spareReady s) = some p ∧ s.up (tileB x) = true ∧ recovering s
    (tileDomain s x) = false ∧ ((s.rdf .TILE_LDR_STATUS 0 3 = 0 ∨ 5 ≤ s.rdf .TILE_LDR_STATUS 0 3)) :=
  ⟨8, 39, sRot, rfl, by decide +kernel⟩

theorem witness_TilesRotateAndAreTested_2 : ∃ (x : Nat) (p : Nat) (s : State), Safety.calm s ∧ s.health.rot = some (x, p)
    ∧ x < 48 ∧ p < 48 ∧ x ≠ p ∧ deliveryStopped s x = true ∧ drained s x = true :=
  ⟨8, 39, sTurn 1, rfl, by decide +kernel⟩

theorem witness_TilesRotateAndAreTested_3 : ∃ (x : Nat) (p : Nat) (s : State), Safety.calm s ∧ s.health.rot = some (x, p)
    ∧ x < 48 ∧ drained s x = false :=
  ⟨8, 39, ({ sTurn 1 with tiles := [(8, { ports := [(3, { buf := [aTok] })] })] } : State), rfl, by decide +kernel⟩

theorem witness_TilesRotateAndAreTested_4 : ∃ (x : Nat) (p : Nat) (s : State), Safety.calm s ∧ s.health.rot = some (x, p)
    ∧ x < 48 :=
  ⟨8, 39, sTurn 1, rfl, by decide +kernel⟩

theorem witness_TilesRotateAndAreTested_5 : ∃ (s : State), Safety.calm s ∧ s.rdf .HLT_ROT_STATUS 0 3 = 3 :=
  ⟨({ sTurn 0x803 with health := { slices := 255 } } : State), rfl, by decide +kernel⟩

theorem witness_TilesRotateAndAreTested_6 : ∃ (x : Fin 48) (f : Fin 64) (s : State), Safety.calm s ∧ bit (s.rd .HLT_CTRL)
    3 = true ∧ s.ready (.tile x) = true ∧ fuIdle s x f = true :=
  ⟨47, 63, ({ s0.wr .HLT_CTRL 8 with health := { gaps := [(64 * 47 + 63, 4095)] } } : State), rfl, by decide +kernel⟩

/-! Chapter 21. -/

theorem witness_DeviceStatesChange_1 : ∃ (q : Requester) (s : State), Safety.calm s ∧ Safety.levelsFollow s ∧
    Safety.serves s q .devctl .PWR_CMD 0 0 ∧ Safety.answers s q (regAddr .PWR_CMD) 4 ∧ s.pwrState = 0 ∧ quietOk s = true
    :=
  ⟨.host, s0, rfl, levelsFollow_of (by decide +kernel), serves_of (by decide +kernel), answers_of (by decide +kernel), by
    decide +kernel⟩

theorem witness_DeviceStatesChange_2 : ∃ (q : Requester) (s : State), Safety.calm s ∧ Safety.serves s q .devctl .PWR_CMD
    0 0 ∧ s.pwrState = 0 ∧ quietOk s = false :=
  ⟨.host, s0.wr .STR_STATUS 1, rfl, serves_of (by decide +kernel), by decide +kernel⟩

theorem witness_DeviceStatesChange_3 : ∃ (q : Requester) (s : State), Safety.calm s ∧ Safety.serves s q .devctl .PWR_CMD
    0 0 ∧ s.pwrState ≤ 1 :=
  ⟨.host, sPwr 1, rfl, serves_of (by decide +kernel), by decide +kernel⟩

theorem witness_DeviceStatesChange_4 : ∃ (q : Requester) (s : State), Safety.calm s ∧ Safety.serves s q .devctl .PWR_CMD
    0 0 ∧ s.pwrState ≤ 1 ∧ s.hold = false :=
  ⟨.host, sPwr 1, rfl, serves_of (by decide +kernel), by decide +kernel⟩

theorem witness_DeviceStatesChange_5 : ∃ (q : Requester) (s : State), Safety.calm s ∧ Safety.serves s q .devctl .PWR_CMD
    0 0 ∧ s.pwrState ≤ 1 ∧ s.hold = true :=
  ⟨.host, sHold, rfl, serves_of (by decide +kernel), by decide +kernel⟩

theorem witness_DeviceStatesChange_6 : ∃ (s : State), Safety.calm s ∧ s.pwrState = 2 ∧ s.hold = false :=
  ⟨({ sPwr 2 with power := { s0.power with wake := true } } : State), rfl, by decide +kernel⟩

theorem witness_DeviceStatesChange_7 : ∃ (w : WakeSource) (s : State), Safety.calm s ∧ s.pwrState = 3 ∧ s.hold = false ∧
    wakeValid s w = true :=
  ⟨.link, sPwr 3, rfl, by decide +kernel⟩

theorem witness_DeviceStatesChange_8 : ∃ (w : WakeSource) (s : State), Safety.calm s ∧ s.pwrState = 2 ∧ wakeValid s w =
    true :=
  ⟨.pin 95, (((sPwr 2).wr .PWR_WAKE_EN 1).wr .GPIO_CFG 0x1010000 0 95).wr .GPIO_EVT 0x80000000 0 2, rfl, by
    decide +kernel⟩

theorem witness_DeviceStatesChange_9 : ∃ (s : State), Safety.calm s ∧ s.pwrState = 4 ∧ s.hold = false ∧ s.power.woken =
    false :=
  ⟨sPwr 4, rfl, by decide +kernel⟩

theorem witness_DeviceStatesChange_10 : ∃ (s : State), Safety.calm s ∧ s.pwrState = 4 ∧ s.hold = false ∧ s.power.woken =
    true ∧ wakeReady s = true :=
  ⟨({ sPwr 4 with power := { s0.power with woken := true } } : State), rfl, by decide +kernel⟩

theorem witness_DeviceStatesChange_11 : ∃ (s : State), Safety.calm s ∧ s.pwrState = 4 ∧ s.hold = false ∧ s.power.woken =
    true ∧ wakeReady s = false :=
  ⟨({ (sPwr 4).wr .MC_STATUS 2 7 with power := { s0.power with woken := true } } : State), rfl, by decide +kernel⟩

theorem witness_HoldAndLog_1 : ∃ (s : State), Safety.calm s ∧ s.hold = false :=
  ⟨s0, rfl, by decide +kernel⟩

theorem witness_HoldAndLog_2 : ∃ (mv : Nat) (us : Nat) (s : State), Safety.calm s ∧ s.hold = true ∧ mv < 1024 ∧ 50 ≤ us ∧
    us < 2 ^ 20 :=
  ⟨1023, 0xFFFFF, sHold, rfl, by decide +kernel⟩

theorem witness_HoldAndLog_3 : ∃ (us : Nat) (s : State), Safety.calm s ∧ us < 50 :=
  ⟨49, sHold, rfl, by decide +kernel⟩

theorem witness_HoldAndLog_4 : ∃ (q : Requester) (s : State), Safety.calm s ∧ Safety.serves s q .devctl .PWR_FLOG_CNT 0 0
    :=
  ⟨.bsc, (s0.wr .PWR_FLOG 5 0 15).wr .PWR_FLOG_CNT 16, rfl, serves_of (by decide +kernel)⟩

theorem witness_ResetsTakeEffect_4 : ∃ (s : State), bit (s.rd .PWR_WDT_CTRL) 0 = true ∧ s.rdf .PWR_WDT_LEFT 0 16 = 0 ∧
    s.asleep = false ∧ s.power.inReset = false :=
  ⟨s0.wr .PWR_WDT_CTRL 0x20001, by decide +kernel⟩

theorem witness_ResetsTakeEffect_5 : ∃ (s : State), Safety.calm s ∧ s.rdf .PWR_WDT_LEFT 0 16 ≠ 0 :=
  ⟨(s0.wr .PWR_WDT_CTRL 0x20001).wr .PWR_WDT_LEFT 1, rfl, by decide +kernel⟩

theorem witness_ResetsTakeEffect_6 : ∃ (q : Requester) (v : Word) (s : State), Safety.calm s ∧ Safety.serves s q .devctl
    .PWR_WDT_KICK 0 0 ∧ v = 0x4B1C :=
  ⟨.host, 0x4B1C, s0.wr .PWR_WDT_CTRL 0xFFFF0001, rfl, serves_of (by decide +kernel), by decide +kernel⟩

theorem witness_ResetsTakeEffect_7 : ∃ (q : Requester) (v : Word) (s : State), Safety.calm s ∧ Safety.serves s q .devctl
    .PWR_WDT_KICK 0 0 ∧ v ≠ 0x4B1C :=
  ⟨.host, 0x4B1D, s0.wr .PWR_WDT_CTRL 0xFFFF0001, rfl, serves_of (by decide +kernel), by decide +kernel⟩

theorem witness_ResetsTakeEffect_8 : ∃ (s : State), s.power.inReset = true :=
  ⟨State.reset, by decide +kernel⟩

theorem witness_PinsFollowTheirCommands_1 : ∃ (q : Requester) (n : Fin 96) (v : Word) (s : State), Safety.calm s ∧
    Safety.serves s q .gpio .GPIO_CFG 0 n ∧ fld v 0 4 < 4 ∧ ((fld v 4 3 = 0 ∨ fld v 0 4 = 2)) ∧ fld v 10 2 ≠ 3 ∧ fld v 16
    3 < 6 ∧ ((fld v 20 4 = 0 ∨ n.val < 16)) :=
  ⟨.host, 15, 0xF40852, ({ s0 with gpio := { filt := 0x8000 } } : State), rfl, serves_of (by decide +kernel), by
    decide +kernel⟩

theorem witness_PinsFollowTheirCommands_2 : ∃ (q : Requester) (w : Fin 3) (s : State), Safety.calm s ∧ Safety.serves s q
    .gpio .GPIO_OUT_SET 0 w :=
  ⟨.host, 2, s0.wr .GPIO_OUT 2 0 2, rfl, serves_of (by decide +kernel)⟩

theorem witness_PinsFollowTheirCommands_3 : ∃ (q : Requester) (w : Fin 3) (s : State), Safety.calm s ∧ Safety.serves s q
    .gpio .GPIO_OUT_CLR 0 w :=
  ⟨.host, 2, s0.wr .GPIO_OUT 3 0 2, rfl, serves_of (by decide +kernel)⟩

theorem witness_PinsFollowTheirCommands_4 : ∃ (n : Fin 96) (ticks : Nat) (s : State), Safety.calm s ∧ ((ticks < s.rdf
    .GPIO_CFG 20 4 0 n ∨ tget 0 s.gpio.quiet n.val ≠ 0)) :=
  ⟨15, 14, s0.wr .GPIO_CFG 0xF30000 0 15, rfl, by decide +kernel⟩

theorem witness_PinsFollowTheirCommands_5 : ∃ (n : Fin 96) (ticks : Nat) (s : State), Safety.calm s ∧ s.rdf .GPIO_CFG 20
    4 0 n ≤ ticks ∧ tget 0 s.gpio.quiet n.val = 0 :=
  ⟨95, 0, s0.wr .GPIO_CFG 0x30000 0 95, rfl, by decide +kernel⟩

theorem witness_PinsFollowTheirCommands_6 : ∃ (n : Fin 96) (s : State), bankSupplyOk s (n / 24) = false :=
  ⟨95, s0.wr .HLT_VMON 0x1000 0 22, by decide +kernel⟩

theorem witness_PinsFollowTheirCommands_7 : ∃ (n : Fin 96) (s : State), s.rdf .GPIO_CFG 12 1 0 n = 1 :=
  ⟨95, s0.wr .GPIO_CFG 0x1001 0 95, by decide +kernel⟩

theorem witness_PinsFollowTheirCommands_8 : ∃ (n : Fin 96) (s : State), bankSupplyOk s (n / 24) = true ∧ s.rdf .GPIO_CFG
    12 1 0 n = 0 ∧ s.rdf .GPIO_CFG 0 4 0 n = 0 :=
  ⟨95, (s0.wr .GPIO_OE 0x80000000 0 2).wr .GPIO_OUT 0x80000000 0 2, by decide +kernel⟩

theorem witness_PinsFollowTheirCommands_9 : ∃ (n : Fin 96) (s : State), s.rdf .GPIO_CFG 0 4 0 n = 1 ∧ hthState s ≠ 4 ∧
    hthState s ≠ 5 :=
  ⟨95, (s0.wr .GPIO_CFG 0x201 0 95).wr .HTH_STATE 2, by decide +kernel⟩

theorem witness_PinsFollowTheirCommands_11 : ∃ (s : State), (s.tap.state = .shiftDr ∨ s.tap.state = .shiftIr) :=
  ⟨({ s0 with tap := { state := .shiftIr, shift := [false, true] } } : State), by decide +kernel⟩

theorem witness_PinsFollowTheirCommands_12 : ∃ (s : State), s.tap.state = .captureDr ∧ s.tap.instr = .sample :=
  ⟨({ s0 with tap := { state := .captureDr, instr := .sample } } : State), by decide +kernel⟩

theorem witness_PinsFollowTheirCommands_13 : ∃ (tms : Bool) (s : State), s.tap.state.next tms = .updateIr ∧ debugScope s
    1 = false :=
  ⟨true, ({ s0 with tap := { state := .exit1Ir, shift := [false, true] } } : State), by decide +kernel⟩

theorem witness_PinsFollowTheirCommands_15 : ∃ (mv : Int), 150 ≤ mv :=
  ⟨150, by decide +kernel⟩

theorem witness_PinsFollowTheirCommands_16 : ∃ (mv : Int), mv ≤ -150 :=
  ⟨-150, by decide +kernel⟩

theorem witness_PinsFollowTheirCommands_17 : ∃ (mv : Int), -50 < mv ∧ mv < 50 :=
  ⟨-49, by decide +kernel⟩

theorem witness_PinsFollowTheirCommands_18 : ∃ (s : State), Safety.calm s :=
  ⟨s0, rfl⟩

theorem witness_PinsFollowTheirCommands_19 : ∃ (addr : BitVec 7) (s : State), Safety.calm s ∧ addr.toNat = s.rdf
    .GPIO_SMB_CTRL 0 7 :=
  ⟨0x50, (s0.wr .GPIO_SMB_CTRL 0x50).wr .PWR_RESET_CAUSE 1, rfl, by decide +kernel⟩

end Sys2Proof.Tests
end

section
/-! SUPPORT. What lasts through the preparation of a device reset and the boot after its release: waiting commands, fuses,
the power controller and a few registers. -/

namespace Sys2Proof.Machine

/-- The registers that neither the preparation of a device reset nor the boot after its release writes. -/
def Reg.lasting (r : Reg) : Bool :=
  r == .PWR_CTRL || r == .PWR_RESET_CAUSE || r == .EPO_NUMBER || r == .GPIO_BANK

@[simp] theorem Reg.lasting_eq_false (r : Reg) :
    r.lasting = false ↔ r ≠ .PWR_CTRL ∧ r ≠ .PWR_RESET_CAUSE ∧ r ≠ .EPO_NUMBER ∧ r ≠ .GPIO_BANK := by
  simp [Reg.lasting, and_assoc]

/-- What the preparation of a device reset and the boot after its release leave alone. -/
structure Lasting where
  pending : List Instr
  fuses : Tbl Nat Word
  power : Power
  regs : Reg → Nat → Nat → DWord

/-- The lasting part of a state. -/
def State.lasting (s : State) : Lasting := ⟨s.pending, s.fuses, s.power, fun r i j => if r.lasting then s.rd r i j else 0⟩

theorem State.lasting_congr {s t : State} (hp : t.pending = s.pending) (hf : t.fuses = s.fuses)
    (hw : t.power = s.power)
    (hr : ∀ r i j, r.lasting = true → t.rd r i j = s.rd r i j) : t.lasting = s.lasting := by
  have e : (fun r i j => if r.lasting then t.rd r i j else 0) = fun r i j => if r.lasting then s.rd r i j else 0 := by
    funext r i j
    split
    · exact hr r i j ‹_›
    · rfl
  unfold State.lasting
  rw [hp, hf, hw, e]

theorem State.pending_of_lasting {s t : State} (h : t.lasting = s.lasting) : t.pending = s.pending :=
  congrArg Lasting.pending h
theorem State.fuses_of_lasting {s t : State} (h : t.lasting = s.lasting) : t.fuses = s.fuses := congrArg Lasting.fuses h
theorem State.power_of_lasting {s t : State} (h : t.lasting = s.lasting) : t.power = s.power := congrArg Lasting.power h
theorem State.rd_of_lasting {s t : State} (h : t.lasting = s.lasting) {r : Reg} (hr : r.lasting = true) (i j : Nat) :
    t.rd r i j = s.rd r i j := by
  have e := congrFun (congrFun (congrFun (congrArg Lasting.regs h) r) i) j
  simpa only [State.lasting, hr, if_true] using e

variable (s : State)

/-! The shared operations. -/

@[simp] theorem lasting_wr {r : Reg} (h : r.lasting = false) (v : DWord) (i j : Nat) :
    (s.wr r v i j).lasting = s.lasting :=
  State.lasting_congr rfl rfl rfl fun r' i' j' hr => State.rd_wr_reg s v i j i' j' (by rintro rfl; rw [h] at hr; cases hr)
@[simp] theorem lasting_wrf {r : Reg} (h : r.lasting = false) (lo n x i j : Nat) :
    (s.wrf r lo n x i j).lasting = s.lasting := lasting_wr s h _ i j
@[simp] theorem lasting_count {r : Reg} (h : r.lasting = false) (n i j : Nat) :
    (s.count r n i j).lasting = s.lasting := lasting_wr s h _ i j
@[simp] theorem lasting_orIn {r : Reg} (h : r.lasting = false) (m : DWord) (i j : Nat) :
    (s.orIn r m i j).lasting = s.lasting := lasting_wr s h _ i j

theorem Reg.steady_of_lasting {r : Reg} (h : r.lasting = true) : r.steady = true := by
  simp only [Reg.lasting, Bool.or_eq_true, beq_iff_eq] at h
  obtain ((rfl | rfl) | rfl) | rfl := h <;> rfl

@[simp] theorem lasting_evt (b : Block) (n : Nat) : (s.evt b n).lasting = s.lasting :=
  State.lasting_congr (State.evt_pending s b n) (State.evt_fuses s b n) (State.evt_power s b n) fun r i j hr =>
    (steady_rd r i j (Reg.steady_of_lasting hr)).evt s b n
@[simp] theorem lasting_fault (b : Block) (c d x : Nat) : (s.fault b c d x).lasting = s.lasting :=
  State.lasting_congr (State.fault_pending s b c d x) (State.fault_fuses s b c d x)
    (State.fault_power s b c d x) fun r i j hr =>
    (steady_rd r i j (Reg.steady_of_lasting hr)).fault s b c d x

theorem lasting_putBytes (l : List Byte) (a : Nat) : (s.putBytes a l).lasting = s.lasting := by
  induction l generalizing s a with
  | nil => rfl
  | cons b r ih => exact ih _ _

/-! The Corridor on a quiet way, and the memory behind it. -/

@[simp] theorem lasting_detourCompare (r : Nat) : (detourCompare s r).lasting = s.lasting := by
  unfold detourCompare
  split
  · split
    · rfl
    · simp
  · rfl

@[simp] theorem lasting_compareOn (hops : List Hop) : (compareOn s hops).lasting = s.lasting :=
  foldl_keep State.lasting (fun s (h : Hop) => detourCompare s h.router) (fun s h => lasting_detourCompare s h.router) _ s

@[simp] theorem lasting_compareBack (q : Requester) (r : Nat) (p : Packet) (x : Transit) :
    (compareBack s q r p x).lasting = s.lasting := by
  unfold compareBack
  split
  · rfl
  · exact lasting_compareOn s _

theorem lasting_refusal (c : PacketCmd) (n i : Nat) :
    (s.count (if c.posted then .CRT_DROP_POSTED else .CRT_REFUSED_CNT) n i).lasting = s.lasting := by
  split <;> exact lasting_count s rfl _ _ _

theorem lasting_carry (q : Requester) (p : Packet) : (carry s q p {}).1.lasting = s.lasting := by
  unfold carry
  simp only [List.foldl_nil, dropHop_quiet, checkUnits_quiet]
  split
  · rfl
  · split
    · rfl
    · split
      · exact lasting_refusal s _ _ _
      · split
        · cases ‹_ = _›
        · exact (lasting_refusal _ _ _ _).trans (lasting_compareOn s _)
        · split
          · simp
          · split <;> simp

theorem lasting_approach (q : Requester) (p : Packet) : (approach s q p {}).1.lasting = s.lasting := by
  unfold approach
  simp only []
  split <;> simp [lasting_carry]

@[simp] theorem lasting_unanswered (q : Requester) (l : Bool) : (unanswered s q l).1.lasting = s.lasting := by
  unfold unanswered
  simp only []
  split <;> split
  · rfl
  · exact lasting_orIn _ rfl _ _ _
  · rfl
  · exact lasting_orIn s rfl _ _ _

theorem lasting_reply (q : Requester) (r : Nat) (port : Option Nat) (p : Packet) (st : Status) :
    (reply s q r port p st {}).1.lasting = s.lasting := by
  unfold reply
  split
  · rfl
  · obtain e | ⟨k, e⟩ := comesBack_quiet s q r port p st <;> simp [e]

/-- An access leaves what its target leaves. -/
theorem lasting_access (q : Requester) (c : PacketCmd) (a n : Nat) (act : State → State × Status × List Byte)
    (h : ∀ s, (act s).1.lasting = s.lasting) : (access s q c a n {} act).1.lasting = s.lasting := by
  have hk := lasting_approach s q (requestOf q c a n)
  unfold access
  simp only []
  split
  · exact hk
  · exact (lasting_unanswered _ _ _).trans hk
  · exact (lasting_reply _ _ _ _ _ _).trans hk
  · refine (lasting_reply _ _ _ _ _ _).trans ?_
    split
    · exact hk
    · exact (h _).trans hk

theorem lasting_mcUncorrectable (c : Fin 8) (a : Nat) : (mcUncorrectable s c a).lasting = s.lasting := by
  unfold mcUncorrectable
  simp only []
  split <;> simp

theorem lasting_reportBad (a : Nat) : (reportBad s a).lasting = s.lasting := by
  unfold reportBad
  split
  · simp only []
    split
    · exact lasting_mcUncorrectable s _ _
    · rfl
  · simp
  · rfl

@[simp] theorem lasting_reportBads (a n : Nat) : (reportBads s a n).lasting = s.lasting :=
  foldl_keep State.lasting _ lasting_reportBad _ s

@[simp] theorem lasting_store (a : Nat) (bs : List Byte) : (store s a bs).lasting = s.lasting := lasting_putBytes _ bs a

/-- Error correction that finds nothing changes nothing. -/
theorem applyEccs_ok (a n : Nat) : applyEccs s a n .ok = s := by
  have e : eccFinds s a .ok = .ok := by unfold eccFinds; split <;> rfl
  show applyEcc s a .ok = s
  unfold applyEcc
  rw [e]

theorem lasting_memRead (q : Requester) (a n : Nat) : (memRead s q a n .ok).1.lasting = s.lasting := by
  refine lasting_access s q .rd a n _ fun s => ?_
  unfold memReadAt
  simp only [applyEccs_ok]
  split
  · rfl
  · split
    · exact lasting_reportBads s a n
    · rfl

theorem lasting_memWrite (q : Requester) (a : Nat) (bs : List Byte) : (memWrite s q a bs).1.lasting = s.lasting := by
  refine lasting_access s q .wr a bs.length _ fun s => ?_
  simp only []
  split
  · exact lasting_store s a bs
  · rfl

/-! The copies and loads that a device reset ends, and the channels. -/

theorem lasting_dmaMove (q : Requester) (b : Fin 64) (out : Bool) (ba ga n : Nat) :
    (dmaMove (fun s a n e => memRead s q a n e) (fun s a bs _ => memWrite s q a bs) b out .ok s ba ga n).1.lasting
      = s.lasting := by
  unfold dmaMove
  simp only [applyEccs_ok]
  split
  · rfl
  · split
    · split
      · exact lasting_reportBads s _ _
      · exact lasting_memWrite s q _ _
    · split
      · exact (lasting_store _ _ _).trans (lasting_memRead s q _ _)
      · exact lasting_memRead s q _ _

/-- A copy leaves what each of its packets leaves. -/
theorem lasting_dmaCopy (move : State → Nat → Nat → Nat → State × Status)
    (h : ∀ s ba ga n, (move s ba ga n).1.lasting = s.lasting) (k ba ga left : Nat) :
    (dmaCopy move k s ba ga left).1.lasting = s.lasting := by
  induction k generalizing s ba ga left with
  | zero => rfl
  | succ k ih =>
    unfold dmaCopy
    split
    · rfl
    · simp only []
      split
      · exact (ih _ _ _ _).trans (h s _ _ _)
      · exact h s _ _ _

@[simp] theorem lasting_dmaFail (b : Fin 64) (st : Status) (ga : Nat) : (dmaFail s b st ga).lasting = s.lasting := by
  unfold dmaFail
  simp

theorem lasting_dmaAbort (b : Fin 64) : (dmaAbort s b).lasting = s.lasting := by
  unfold dmaAbort
  split
  · have h : ∀ k, (dmaRun (dmaMove (fun s a n e => memRead s (.bankDma b) a n e) (fun s a bs _ => memWrite s (.bankDma b) a bs)
        b (s.spb b).out .ok) s.draw.1 b k).1.lasting = s.lasting :=
      fun k => lasting_dmaCopy _ _ (fun s ba ga n => lasting_dmaMove s _ b _ ba ga n) _ _ _ _
    simp only []
    split
    · exact (lasting_dmaFail _ _ _ _).trans (h _)
    · exact (lasting_wr _ rfl _ _ _).trans (h _)
  · rfl

@[simp] theorem lasting_dmaAbortAll : (dmaAbortAll s).lasting = s.lasting :=
  foldl_keep State.lasting _ lasting_dmaAbort _ s

@[simp] theorem lasting_ldrAbort : (ldrAbort s).lasting = s.lasting := by
  unfold ldrAbort
  show (State.wrf (if ldrBusy s then _ else s) .TILE_LDR_STATUS 0 3 0).lasting = _
  rw [lasting_wrf _ rfl]
  split
  · unfold ldrError
    simp
  · rfl

theorem lasting_mcOff (c : Fin 8) : (mcOff s c).lasting = s.lasting := by
  show ((s.wrf .MC_STATUS 3 1 0 c).wrf .MC_STATUS 0 3 0 c).lasting = _
  simp

theorem lasting_mcResetEW (c : Fin 8) : (mcResetEW s c).lasting = s.lasting := by
  unfold mcResetEW
  split
  · exact lasting_wrf s rfl _ _ _ _ _
  · split
    · rfl
    · exact lasting_mcOff s c

theorem lasting_loseWrite (a n : Nat) : (loseWrite s a n).lasting = s.lasting :=
  foldl_keep State.lasting _ (fun s _ => lasting_putBytes s.draw.1 _ _) _ s

theorem lasting_loseUnissued (c : Fin 8) (l : List (Nat × Nat)) : (loseUnissued s c l).lasting = s.lasting :=
  foldl_keep State.lasting (fun s (x : Nat × Nat) => loseWrite s x.1 x.2) (fun s x => lasting_loseWrite s x.1 x.2) _ s

theorem lasting_mcResetB (c : Fin 8) (kept : Bool) (l : List (Nat × Nat)) : (mcResetB s c kept l).lasting = s.lasting := by
  unfold mcResetB
  split
  · split
    · rw [lasting_wrf _ rfl]
      split
      · exact lasting_loseUnissued s c l
      · rfl
    · rw [lasting_wrf _ rfl]
      exact lasting_mcOff s c
  · split
    · rfl
    · exact lasting_mcOff s c

theorem lasting_excursion (mv us : Nat) : (excursion s mv us).lasting = s.lasting := by
  unfold excursion
  simp

/-! The boot after a release. -/

@[simp] theorem lasting_putWords {r : Reg} (h : r.lasting = false) (n : Nat) (bs : List Byte) :
    (putWords s r n bs).lasting = s.lasting :=
  foldl_keep State.lasting _ (fun s _ => lasting_wr s h _ _ _) _ s

@[simp] theorem lasting_fuseView : (fuseView s).lasting = s.lasting := by
  unfold fuseView
  simp only []
  split <;> simp

theorem lasting_senseFuses : (senseFuses s).lasting = s.lasting := by
  unfold senseFuses
  simp only []
  split <;> simp [fuseMismatch, apply_ite State.lasting]

theorem lasting_bootTo (st : Nat) : (bootTo s st).lasting = s.lasting := by
  unfold bootTo
  simp only []
  split <;> simp

theorem bootTo_sec (st : Nat) : (bootTo s st).sec = s.sec := by
  unfold bootTo
  simp only []
  split
  · exact State.evt_sec _ _ _
  · rfl

theorem lasting_bootStart (sel : BitVec 2) : (bootStart s sel).lasting = s.lasting := lasting_bootTo _ _

theorem bootStart_bootSel (sel : BitVec 2) : (bootStart s sel).sec.bootSel = sel := congrArg Sec.bootSel (bootTo_sec _ _)

end Sys2Proof.Machine
end

section
/-! SUPPORT. Resets P, B, E and W (R592 to R594): the registers by their letters, the units without what they held. -/

namespace Sys2Proof.Machine

variable (s : State)

/-! Registers across a reset. -/

/-- A filter on keys takes the entries that it removes to the unlisted value and leaves every other one. -/
theorem tget_filter_keys {κ β : Type} [DecidableEq κ] (d : β) (p : κ → Bool) (t : Tbl κ β) (k : κ) :
    tget d (t.filter fun e => p e.1) k = if p k = true then tget d t k else d := by
  induction t with
  | nil => simp [tget]
  | cons e r ih =>
    obtain ⟨x, v⟩ := e
    by_cases hk : x = k
    · subst hk
      by_cases hx : p x = true <;> simp [List.filter, tget, hx, ih]
    · by_cases hx : p x = true <;> simp [List.filter, tget, hx, hk, ih]

/-- A register goes with a reset of the whole device. -/
def goesWith (l : Letter) (k : RegKey) : Bool := (blockOfKey k).isSome && !survives k l

theorem rd_clearRegs_all (l : Letter) (r : Reg) (i j : Nat) :
    (clearRegs s l fun _ => true).rd r i j = if goesWith l ⟨r, i, j⟩ then por r i j else s.rd r i j := by
  have e : (clearRegs s l fun _ => true).regs = s.regs.filter fun e => !goesWith l e.1 := by
    refine congrArg (s.regs.filter ·) (funext fun e => ?_)
    unfold goesWith
    dsimp only
    cases blockOfKey e.1 <;> rfl
  unfold State.rd
  rw [e, tget_filter_keys (por r i j) fun k => !goesWith l k]
  cases goesWith l ⟨r, i, j⟩ <;> rfl

/-- A block's header page leads back to the block. -/
theorem blockOfPage_pageOf (b : Block) : blockOfPage (pageOf b) = some b := by
  cases b with
  | tile n | lane n | quad n | mc n | core n | router n =>
    have := n.isLt
    unfold blockOfPage pageOf
    simp only [Nat.add_sub_cancel_left, Fin.eta]
    repeat rw [if_neg (by omega)]
    repeat rw [dif_neg (by omega)]
    rw [dif_pos (by omega)]
  | _ => rfl

/-- Each block's `EVT_ENABLE` and `BLK_CTRL` go with resets B and E. -/
theorem goesWith_header (b : Block) {r : Reg} (hr : r = .EVT_ENABLE ∨ r = .BLK_CTRL) {l : Letter} (hl : l = .B ∨ l = .E) :
    goesWith l ⟨r, pageOf b, 0⟩ = true := by
  have hb : (blockOfKey ⟨r, pageOf b, 0⟩).isSome = true := by
    obtain rfl | rfl := hr <;> exact congrArg Option.isSome (blockOfPage_pageOf b)
  unfold goesWith survives
  simp only [hb, blockOfPage_pageOf]
  obtain rfl | rfl := hr <;> obtain rfl | rfl := hl <;> rfl

/-- `PWR_CTRL` and `PWR_RESET_CAUSE` outlast resets B and E. -/
theorem goesWith_pwr {r : Reg} (hr : r = .PWR_CTRL ∨ r = .PWR_RESET_CAUSE) {l : Letter} (hl : l = .B ∨ l = .E) :
    goesWith l ⟨r, 0, 0⟩ = false := by
  obtain rfl | rfl := hr <;> obtain rfl | rfl := hl <;> rfl

/-! Resets B, E and W. -/

theorem tileClear_rest (t : Nat) : tileClear s t = { s with tiles := (tileClear s t).tiles } := rfl

/-- What the units hold goes; registers, waiting commands and fuses stay. -/
theorem resetUnits_kept : (resetUnits s).regs = s.regs ∧ (resetUnits s).pending = s.pending ∧
    (resetUnits s).fuses = s.fuses ∧ (resetUnits s).power.inReset = true ∧ (resetUnits s).cores = [] ∧
    (resetUnits s).queues = [] ∧ (resetUnits s).lanes = [] := by
  have h := foldl_keep (fun s => (s.regs, s.pending, s.fuses)) tileClear
    (fun s t => by rw [tileClear_rest]) (List.range 48) s
  obtain ⟨h1, h2, h3⟩ : _ ∧ _ ∧ _ := by simpa only [Prod.mk.injEq] using h
  unfold resetUnits
  generalize List.foldl tileClear s (List.range 48) = u at h1 h2 h3 ⊢
  exact ⟨h1, h2, h3, rfl, rfl, rfl, rfl⟩

theorem rd_resetUnits (r : Reg) (i j : Nat) : (resetUnits s).rd r i j = s.rd r i j := by
  unfold State.rd
  rw [(resetUnits_kept s).1]

/-- What a device reset does once the units hold nothing. -/
def resetEnd (s : State) (l : Letter) (cause : BitVec 6) : State :=
  withPower (linkOff (clearRegs s l fun _ => true)) fun p => { p with cause := p.cause ||| cause }

/-- What a device reset does before the units lose what they hold: the loader's and the banks' work ends, and the channels act. -/
def resetBegin (s : State) (chan : State → Fin 8 → State) : State :=
  (List.finRange 8).foldl chan (dmaAbortAll (ldrAbort s))

theorem deviceReset_eq (l : Letter) (cause : BitVec 6) (chan : State → Fin 8 → State) :
    deviceReset s l cause chan = resetEnd (resetUnits (resetBegin s chan)) l cause := rfl

theorem lasting_resetBegin (chan : State → Fin 8 → State) (hc : ∀ s c, (chan s c).lasting = s.lasting) :
    (resetBegin s chan).lasting = s.lasting :=
  (foldl_keep State.lasting chan hc _ _).trans (by simp)

theorem rd_resetEnd (l : Letter) (cause : BitVec 6) {r : Reg} (hr : r ≠ .RLK_STATUS) (i j : Nat) :
    (resetEnd s l cause).rd r i j = if goesWith l ⟨r, i, j⟩ then por r i j else s.rd r i j :=
  (State.rd_wr_reg _ _ _ _ _ _ hr.symm).trans (rd_clearRegs_all s l r i j)

/-- What stands between a device reset and its release: what caused it, and units that hold nothing; waiting commands and fuses
are those of before. -/
structure ResetStands (cause : Nat) (s t : State) : Prop where
  inReset : t.power.inReset = true
  cause : bit t.power.cause cause = true
  fuses : t.fuses = s.fuses
  pending : t.pending = s.pending
  cores : t.cores = []
  queues : t.queues = []
  lanes : t.lanes = []

theorem bit_or_right {w : Nat} (a b : BitVec w) (n : Nat) (h : bit b n = true) : bit (a ||| b) n = true := by
  unfold bit at h ⊢
  rw [BitVec.getLsbD_or, h, Bool.or_true]

/-- The end of a device reset notes its cause and leaves what the units have lost. -/
theorem resetEnd_stands (l : Letter) (cause : BitVec 6) (n : Nat) (hn : bit cause n = true) (hi : s.power.inReset = true)
    (hk : s.cores = []) (hq : s.queues = []) (hl : s.lanes = []) : ResetStands n s (resetEnd s l cause) where
  inReset := hi
  cause := bit_or_right s.power.cause cause n hn
  fuses := rfl
  pending := rfl
  cores := hk
  queues := hq
  lanes := hl

theorem ResetStands.congr {n : Nat} {s u t : State} (h : ResetStands n u t) (hf : u.fuses = s.fuses)
    (hp : u.pending = s.pending) : ResetStands n s t := { h with fuses := h.fuses.trans hf, pending := h.pending.trans hp }

theorem deviceReset_stands (l : Letter) (cause : BitVec 6) (n : Nat) (chan : State → Fin 8 → State)
    (hn : bit cause n = true) (hc : ∀ s c, (chan s c).lasting = s.lasting) :
    ResetStands n s (deviceReset s l cause chan) := by
  have h := lasting_resetBegin s chan hc
  obtain ⟨-, hp, hf, hi, hk, hq, hl⟩ := resetUnits_kept (resetBegin s chan)
  rw [deviceReset_eq]
  exact (resetEnd_stands _ l cause n hn hi hk hq hl).congr (hf.trans (State.fuses_of_lasting h))
    (hp.trans (State.pending_of_lasting h))

/-- The registers after a device reset: those without its letter hold their power-on values. -/
theorem rd_deviceReset (l : Letter) (cause : BitVec 6) (chan : State → Fin 8 → State) {r : Reg} (hr : r ≠ .RLK_STATUS)
    (i j : Nat) : (deviceReset s l cause chan).rd r i j =
      if goesWith l ⟨r, i, j⟩ then por r i j else (resetBegin s chan).rd r i j := by
  rw [deviceReset_eq, rd_resetEnd _ l cause hr, rd_resetUnits]

/-- After resets B and E no block is enabled, and none of its events. -/
theorem rd_deviceReset_header (b : Block) {r : Reg} (hr : r = .EVT_ENABLE ∨ r = .BLK_CTRL) {l : Letter}
    (hl : l = .B ∨ l = .E) (cause : BitVec 6) (chan : State → Fin 8 → State) :
    (deviceReset s l cause chan).rd r (pageOf b) 0 = 0 := by
  rw [rd_deviceReset s l cause chan (by obtain rfl | rfl := hr <;> decide), goesWith_header b hr hl, if_pos rfl]
  obtain rfl | rfl := hr <;> rfl

theorem rd_deviceReset_pwr {r : Reg} (hr : r = .PWR_CTRL ∨ r = .PWR_RESET_CAUSE) {l : Letter}
    (hl : l = .B ∨ l = .E) (cause : BitVec 6) (chan : State → Fin 8 → State)
    (hc : ∀ s c, (chan s c).lasting = s.lasting) : (deviceReset s l cause chan).rd r 0 0 = s.rd r 0 0 := by
  rw [rd_deviceReset s l cause chan (by obtain rfl | rfl := hr <;> decide), goesWith_pwr hr hl, if_neg Bool.false_ne_true]
  exact State.rd_of_lasting (lasting_resetBegin s chan hc) (by obtain rfl | rfl := hr <;> rfl) 0 0

/-! The end of a reset command. -/

theorem countSummaries_cores : (countSummaries s).cores = s.cores := by
  refine foldl_keep State.cores _ (fun s e => ?_) (summaries s) s
  split
  · exact State.perf_cores _ _ _ _
  · rfl

theorem hostMessage_rest (n : Nat) : hostMessage s n =
    { s with hostEvents := (hostMessage s n).hostEvents, heldEvents := (hostMessage s n).heldEvents } := by
  unfold hostMessage
  split
  · split <;> rfl
  · rfl

/-- A host message changes only what waits for the host. -/
theorem hostMessages_keep {β : Type} (P : State → β)
    (h : ∀ s l m, P { s with hostEvents := l, heldEvents := m } = P s) (m : BitVec 384) : P (hostMessages s m) = P s := by
  unfold hostMessages
  split
  · rfl
  · refine foldl_keep P _ (fun s n => ?_) _ s
    split
    · rw [hostMessage_rest]; exact h s _ _
    · rfl

theorem endQuiet_cores (m : BitVec 384) : (endQuiet s m).cores = s.cores := by
  unfold endQuiet
  split <;> rfl

theorem wakeRequests_none (h : s.cores = []) (a b : BitVec 384) : wakeRequests s a b = s := by
  unfold wakeRequests
  rw [h]
  rfl

/-- Where there are no cores, `settle` wakes none. -/
theorem settle_no_cores (h : s.cores = []) : (settle s).cores = [] := by
  have h1 : (countSummaries s).cores = [] := (countSummaries_cores s).trans h
  have h2 : ∀ m, (hostMessages (countSummaries s) m).cores = [] := fun m =>
    (hostMessages_keep _ State.cores (fun _ _ _ => rfl) m).trans h1
  show (endQuiet (wakeRequests (hostMessages (countSummaries s) _) _ _) _).cores = []
  rw [endQuiet_cores, wakeRequests_none _ (h2 _)]
  exact h2 _

/-! Reset P: every register stands at its power-on value. -/

theorem rd_of_no_regs (h : s.regs = []) (r : Reg) (i j : Nat) : s.rd r i j = por r i j := by
  unfold State.rd
  rw [h]
  rfl

/-- At power-on no performance counter selects an event. -/
theorem perf_of_no_regs (h : s.regs = []) (b : Block) (e n : Nat) : s.perf b e n = s := by
  have one : ∀ k, (if s.rdf .PERF_SEL 0 8 (pageOf b) k = e ∧ e ≠ 0 then s.count .PERF_CNT n (pageOf b) k else s) = s := by
    intro k
    refine if_neg fun ⟨h0, h1⟩ => h1 ?_
    rw [← h0]
    unfold State.rdf
    rw [rd_of_no_regs s h]
    rfl
  unfold State.perf
  simp only [one]

/-- A fold whose every step leaves the state leaves it. -/
theorem foldl_fixed {α : Type} (f : State → α → State) (h : ∀ a, f s a = s) (l : List α) : l.foldl f s = s := by
  induction l with
  | nil => rfl
  | cons a l ih => rw [List.foldl_cons, h a]; exact ih

theorem countSummaries_no_regs (h : s.regs = []) : (countSummaries s).regs = [] := by
  refine (congrArg State.regs (foldl_fixed s _ (fun e => ?_) (summaries s))).trans h
  split
  · exact perf_of_no_regs s h _ _ _
  · rfl

/-- `settle` leaves the registers of a state with all of them at their power-on values. -/
theorem settle_no_regs (h : s.regs = []) (hc : s.cores = []) : (settle s).regs = [] := by
  have h1 := countSummaries_no_regs s h
  have c1 : (countSummaries s).cores = [] := (countSummaries_cores s).trans hc
  have h2 : ∀ m, (hostMessages (countSummaries s) m).regs = [] := fun m =>
    (hostMessages_keep _ State.regs (fun _ _ _ => rfl) m).trans h1
  have c2 : ∀ m, (hostMessages (countSummaries s) m).cores = [] := fun m =>
    (hostMessages_keep _ State.cores (fun _ _ _ => rfl) m).trans c1
  show (endQuiet (wakeRequests (hostMessages (countSummaries s) _) _ _) _).regs = []
  rw [wakeRequests_none _ (c2 _)]
  unfold endQuiet
  rw [if_neg]
  · exact h2 _
  · rintro ⟨hp, -⟩
    unfold State.pwrState State.rdf at hp
    rw [rd_of_no_regs _ (h2 _)] at hp
    exact absurd hp (by decide)

theorem ResetStands.settle {n : Nat} {s t : State} (h : ResetStands n s t) : ResetStands n s (settle t) where
  inReset := by rw [settle_power]; exact h.inReset
  cause := by rw [settle_power]; exact h.cause
  fuses := by rw [settle_fuses]; exact h.fuses
  pending := by rw [settle_pending]; exact h.pending
  cores := settle_no_cores t h.cores
  queues := by rw [settle_queues]; exact h.queues
  lanes := by rw [settle_lanes]; exact h.lanes

end Sys2Proof.Machine
end

section
/-! SUPPORT. The watchdog (R593). -/

namespace Sys2Proof.Machine

variable (s : State)

theorem changesOnly_withPower {rs : Reg → Nat → Nat → Bool} {ps : List Safety.Part} {s u : State}
    (h : Safety.changesOnly rs ps s u) {f : Power → Power} (hp : Safety.Part.power ∈ ps) :
    Safety.changesOnly rs ps s (withPower u f) :=
  ⟨h.1, fun p hn => by
    cases p
    case power => exact absurd hp hn
    all_goals exact h.2 _ hn⟩

/-- A command register written with a reserved value where the access is served (R56): the fault, and nothing else. -/
theorem setReg_reserved (q : Requester) (b : Block) (r : Reg) (v : Word) (i j : Nat)
    (h : Safety.serves s q b r i j) (hw : (regDesc r).wide = false) (ha : (regDesc r).acc = .wo) (hc : r ≠ .SEC_CMD)
    (hb : badFields (dropCapture s ⟨r, i, j⟩) b ⟨r, i, j⟩ 0 (ext v &&& regMask b ⟨r, i, j⟩) ≠ [])
    (hd : s.epo.detected = []) : ∃ t p, finish (setReg s q r v i j) = .next t ∧
      Asides ((dropCapture s ⟨r, i, j⟩).fault b codeReserved p v.toNat) t ∧ t.epo.detected = [] := by
  obtain ⟨p, hs, he⟩ := setReg_asides s q b r v i j h
  have ht := h.2.2.2.2.2.2.2
  have e : writeWord s q ⟨b, p, some ⟨r, i, j⟩, false⟩ v = (dropCapture s ⟨r, i, j⟩).fault b codeReserved p v.toNat := by
    unfold writeWord
    simp only [ht, Bool.false_and, Bool.false_eq_true, if_false, hw, if_true]
    unfold writeReg
    simp only [ha, hb, hc, false_and, or_self, if_false]
  rw [e] at hs he
  have hh : ((dropCapture s ⟨r, i, j⟩).fault b codeReserved p v.toNat).handing = s.handing := State.fault_handing _ _ _ _ _
  rw [handing_self hh] at hs
  have hd' : (setReg s q r v i j).epo.detected = [] := by
    rw [he, State.fault_epo]
    exact hd
  exact ⟨_, p, finish_quiet _ hd', hs.trans (settle_spec _).asides, rfl⟩

theorem fld_ext_and (v : Word) : fld (ext v &&& 0xFFFFFFFF#64) 0 32 = v.toNat := by
  have hv := v.isLt
  unfold fld
  rw [BitVec.toNat_and, toNat_ext, Nat.shiftRight_zero]
  have e : (0xFFFFFFFF#64).toNat = 2 ^ 32 - 1 := rfl
  rw [e, Nat.and_two_pow_sub_one_eq_mod, Nat.mod_mod, Nat.mod_eq_of_lt hv]

/-- The one value that `PWR_WDT_KICK` admits. -/
theorem badFields_wdtKick (v : Word) :
    badFields s .devctl ⟨.PWR_WDT_KICK, 0, 0⟩ 0 (ext v &&& regMask .devctl ⟨.PWR_WDT_KICK, 0, 0⟩) = [] ↔ v = 0x4B1C := by
  have hr : (regDesc .PWR_WDT_KICK).resv = [(0, 32, fun x => decide (x = 0x4B1C))] := rfl
  have hm : ∀ w, moreFields s .devctl ⟨.PWR_WDT_KICK, 0, 0⟩ 0 w = [] := fun _ => rfl
  have hk : regMask .devctl ⟨.PWR_WDT_KICK, 0, 0⟩ = 0xFFFFFFFF := rfl
  unfold badFields
  rw [hr, hm, hk, BitVec.toNat_eq]
  simp [fld_ext_and]

theorem wdtKick_restarts (q : Requester) (hc : Safety.calm s) (h : Safety.serves s q .devctl .PWR_WDT_KICK 0 0) :
    ∃ t, exec (.wdtKick q 0x4B1C) s = .next t ∧ (t.rd .PWR_WDT_LEFT).toNat = s.rdf .PWR_WDT_CTRL 16 16 ∧ t.power.wdt = 0 ∧
      Safety.changesOnly (fun r _ _ => r == .PWR_WDT_LEFT) [.captured, .power] s t := by
  let d := dropCapture s ⟨.PWR_WDT_KICK, 0, 0⟩
  obtain ⟨t, he, ha, hd⟩ := setReg_command s q .devctl .PWR_WDT_KICK 0x4B1C 0 0 (wdtRestart d) h rfl rfl
    ((badFields_wdtKick _ _).2 rfl) rfl hc
  have hu : Safety.changesOnly (fun r _ _ => r == .PWR_WDT_LEFT) [.captured, .power] s (wdtRestart d) :=
    changesOnly_withPower (Safety.changesOnly_wr (Safety.changesOnly_dropCapture Safety.changesOnly_refl (by simp)) (.inl rfl))
      (by simp)
  refine ⟨t, he, ?_, by rw [ha.power]; rfl, Safety.changesOnly_asides hu ha hc hd⟩
  rw [ha.rd _ _ _ rfl]
  have e : (wdtRestart d).rd .PWR_WDT_LEFT = BitVec.ofNat 64 (s.rdf .PWR_WDT_CTRL 16 16) := State.rd_wr_same _ _ _ _ _
  have hlt : s.rdf .PWR_WDT_CTRL 16 16 < 2 ^ 16 := Nat.mod_lt _ (by decide)
  rw [e, BitVec.toNat_ofNat]
  exact Nat.mod_eq_of_lt (by omega)

theorem wdtKick_refused (q : Requester) (v : Word) (hc : Safety.calm s) (h : Safety.serves s q .devctl .PWR_WDT_KICK 0 0)
    (hv : v ≠ 0x4B1C) : ∃ t, exec (.wdtKick q v) s = .next t ∧
      t.rdf .FAULT_COUNT 0 16 0 = min (s.rdf .FAULT_COUNT 0 16 0 + 1) 0xFFFF ∧
      Safety.changesOnly (fun r i _ => Safety.faultOf .devctl r i) [.captured] s t := by
  obtain ⟨t, p, he, ha, hd⟩ := setReg_reserved s q .devctl .PWR_WDT_KICK v 0 0 h rfl rfl (by decide)
    (fun e => hv ((badFields_wdtKick _ v).1 e)) hc
  refine ⟨t, he, ?_, Safety.changesOnly_asides (Safety.changesOnly_fault (Safety.changesOnly_dropCapture
    Safety.changesOnly_refl (by simp)) fun _ _ _ e => e) ha (by rw [State.fault_epo]; exact hc) hd⟩
  have e := State.fault_count (dropCapture s ⟨.PWR_WDT_KICK, 0, 0⟩) .devctl codeReserved p v.toNat
  unfold State.rdf at e ⊢
  rw [ha.rd _ _ _ rfl]
  exact e

/-- Before the watchdog's count has come to 0 its row does nothing (log 148). -/
theorem watchdogExpiry_early (hc : Safety.calm s) (h : s.rdf .PWR_WDT_LEFT 0 16 ≠ 0) :
    ∃ t, exec .watchdogExpiry s = .next t ∧ Safety.changesOnly (fun _ _ _ => false) [] s t := by
  have e : wdtDue s = false := by simp [wdtDue, h]
  refine ⟨settle s, ?_, Safety.changesOnly_settle Safety.changesOnly_refl hc⟩
  rw [exec_watchdogExpiry]
  unfold execWatchdogExpiry
  rw [e]
  rfl

theorem watchdogExpiry_resets (hw : bit (s.rd .PWR_WDT_CTRL) 0 = true) (h0 : s.rdf .PWR_WDT_LEFT 0 16 = 0)
    (ha : s.asleep = false) (hi : s.power.inReset = false) :
    ∃ t, exec .watchdogExpiry s = .next t ∧ ResetStands 3 s t := by
  have e : wdtDue s = true := by simp [wdtDue, hw, h0, ha, hi]
  refine ⟨_, ?_, (deviceReset_stands s .W 8 3 mcResetEW rfl lasting_mcResetEW).settle⟩
  rw [exec_watchdogExpiry]
  unfold execWatchdogExpiry
  rw [e]
  rfl

end Sys2Proof.Machine
end

section
/-! SUPPORT. The commands of resets P, B and E. -/

namespace Sys2Proof.Machine

variable (s : State)

theorem resetP_powerOn : ∃ t, exec .resetP s = .next t ∧ (∀ r i j, t.rd r i j = por r i j) ∧ t.mem = [] ∧
    t.fuses = s.fuses ∧ t.pending = s.pending ∧ t.power = State.reset.power ∧ t.cores = [] ∧ t.queues = [] ∧
    t.lanes = [] := by
  refine ⟨_, rfl, rd_of_no_regs _ (settle_no_regs _ rfl rfl), ?_, ?_, ?_, ?_, settle_no_cores _ rfl, ?_, ?_⟩
  · rw [settle_mem]; rfl
  · rw [settle_fuses]
  · rw [settle_pending]
  · rw [settle_power]
  · rw [settle_queues]; rfl
  · rw [settle_lanes]; rfl

/-- What resets B and E leave of the registers: no block enabled, `PWR_CTRL` and the causes of earlier resets as they were. -/
structure RegsReset (s t : State) : Prop where
  header : ∀ b : Block, t.rd .EVT_ENABLE (pageOf b) = 0 ∧ t.rd .BLK_CTRL (pageOf b) = 0
  pwr : t.rd .PWR_CTRL = s.rd .PWR_CTRL ∧ t.rd .PWR_RESET_CAUSE = s.rd .PWR_RESET_CAUSE

theorem RegsReset.congr {s u t v : State} (h : RegsReset s u) (hs : s.lasting = t.lasting)
    (hu : ∀ r i j, r = .EVT_ENABLE ∨ r = .BLK_CTRL ∨ r = .PWR_CTRL ∨ r = .PWR_RESET_CAUSE → v.rd r i j = u.rd r i j) :
    RegsReset t v where
  header b := ⟨(hu _ _ _ (by simp)).trans (h.header b).1, (hu _ _ _ (by simp)).trans (h.header b).2⟩
  pwr := ⟨(hu _ _ _ (by simp)).trans (h.pwr.1.trans (State.rd_of_lasting hs rfl 0 0)),
    (hu _ _ _ (by simp)).trans (h.pwr.2.trans (State.rd_of_lasting hs rfl 0 0))⟩

theorem deviceReset_regs {l : Letter} (hl : l = .B ∨ l = .E) (cause : BitVec 6) (chan : State → Fin 8 → State)
    (hc : ∀ s c, (chan s c).lasting = s.lasting) : RegsReset s (deviceReset s l cause chan) where
  header b := ⟨rd_deviceReset_header s b (.inl rfl) hl cause chan, rd_deviceReset_header s b (.inr rfl) hl cause chan⟩
  pwr := ⟨rd_deviceReset_pwr s (.inl rfl) hl cause chan hc, rd_deviceReset_pwr s (.inr rfl) hl cause chan hc⟩

theorem RegsReset.settle {s t : State} (h : RegsReset s t) : RegsReset s (settle t) :=
  h.congr rfl fun r i j hr => settle_rd t r i j (by rintro rfl; simp at hr) (by rintro rfl; simp at hr)

theorem ResetStands.fault {n : Nat} {s t : State} (h : ResetStands n s t) (b : Block) (c d x : Nat) :
    ResetStands n s (t.fault b c d x) where
  inReset := by rw [State.fault_power]; exact h.inReset
  cause := by rw [State.fault_power]; exact h.cause
  fuses := by rw [State.fault_fuses]; exact h.fuses
  pending := by rw [State.fault_pending]; exact h.pending
  cores := by rw [State.fault_cores]; exact h.cores
  queues := by rw [State.fault_queues]; exact h.queues
  lanes := by rw [State.fault_lanes]; exact h.lanes

theorem RegsReset.fault {s t : State} (h : RegsReset s t) (b : Block) (c d x : Nat) : RegsReset s (t.fault b c d x) :=
  h.congr rfl fun r i j hr => (steady_rd r i j (by obtain rfl | rfl | rfl | rfl := hr <;> rfl)).fault t b c d x

theorem resetE_stands : ∃ t, exec .resetE s = .next t ∧ ResetStands 2 s t ∧ RegsReset s t :=
  ⟨_, rfl, (deviceReset_stands s .E 4 2 mcResetEW rfl lasting_mcResetEW).settle,
    (deviceReset_regs s (.inr rfl) 4 mcResetEW lasting_mcResetEW).settle⟩

/-- Channels whose contents a reset B loses record their faults and leave the reset as it stands. -/
theorem lostChannels_stand {n : Nat} {s t : State} (h : ResetStands n s t ∧ RegsReset s t) (l : List (Fin 8)) (c : Nat) :
    ResetStands n s (l.foldl (fun s m => s.fault (.mc m) c) t) ∧
      RegsReset s (l.foldl (fun s m => s.fault (.mc m) c) t) := by
  induction l generalizing t with
  | nil => exact h
  | cons m l ih => exact ih ⟨h.1.fault _ _ _ _, h.2.fault _ _ _ _⟩

theorem resetB_stands (sram : Bool) (k : Kept) (mv us : Nat) :
    ∃ t, exec (.resetB sram k mv us) s = .next t ∧ ResetStands 1 s t ∧ RegsReset s t := by
  let u := if s.hold then excursion s mv us else s
  have hu : u.lasting = s.lasting := by
    show (if s.hold then excursion s mv us else s).lasting = _
    split
    · exact lasting_excursion s mv us
    · rfl
  have hc : ∀ s c, (mcResetB s c (k.chans.getLsbD c) k.unissued).lasting = s.lasting := fun s c => lasting_mcResetB s c _ _
  have hr := lostChannels_stand ⟨deviceReset_stands u .B (if sram then 0x22 else 2) 1 _ (by cases sram <;> rfl) hc,
    deviceReset_regs u (.inl rfl) (if sram then 0x22 else 2) _ hc⟩
  exact ⟨_, rfl, ((hr _ _).1.congr (State.fuses_of_lasting hu) (State.pending_of_lasting hu)).settle,
    ((hr _ _).2.congr hu fun _ _ _ _ => rfl).settle⟩

end Sys2Proof.Machine
end

section
/-! SUPPORT. The release of a reset (R594, R614). -/

namespace Sys2Proof.Machine

variable (s : State)

/-- Elements of a register array written one after another hold what was written. -/
theorem rd_foldl_wr (r : Reg) (f : Nat → DWord) (n : Nat) {b : Nat} (hb : b < n) :
    ((List.range n).foldl (fun s b => s.wr r (f b) 0 b) s).rd r 0 b = f b := by
  induction n with
  | zero => omega
  | succ n ih =>
    rw [List.range_succ, List.foldl_append]
    by_cases h : b = n
    · subst h
      exact State.rd_wr_same _ _ _ _ _
    · exact (State.rd_wr_ne _ _ fun e => h e.2.2.symm).trans (ih (by omega))

/-- The timebase starts again at a release, unless software keeps it or power has just come. -/
def startTimebase (s : State) : State := if bit (s.rd .PWR_CTRL) 0 || s.power.full then s else s.wr .PWR_TB 0

theorem startTimebase_power : (startTimebase s).power = s.power := by
  unfold startTimebase
  split <;> rfl

theorem rd_startTimebase {r : Reg} (hr : r ≠ .PWR_TB) (i j : Nat) : (startTimebase s).rd r i j = s.rd r i j := by
  unfold startTimebase
  split
  · rfl
  · exact State.rd_wr_reg _ _ _ _ _ _ hr.symm

/-- After reset P each GPIO bank takes the level of its supply. -/
def takeBanks (s : State) (vsel : BitVec 4) : State :=
  if s.power.full then
    (List.range 4).foldl (fun s b => s.wr .GPIO_BANK (BitVec.ofNat 64 (vsel.getLsbD b).toNat) 0 b) s
  else s

theorem takeBanks_power (vsel : BitVec 4) : (takeBanks s vsel).power = s.power := by
  unfold takeBanks
  split
  · exact foldl_keep State.power _ (fun s b => State.wr_power s .GPIO_BANK (BitVec.ofNat 64 (vsel.getLsbD b).toNat) 0 b) _ s
  · rfl

theorem rd_takeBanks {r : Reg} (hr : r ≠ .GPIO_BANK) (vsel : BitVec 4) (i j : Nat) :
    (takeBanks s vsel).rd r i j = s.rd r i j := by
  unfold takeBanks
  split
  · exact foldl_keep (fun s => s.rd r i j) _ (fun s _ => State.rd_wr_reg s _ _ _ _ _ hr.symm) _ s
  · rfl

/-- The state of a release in which the fuses are sensed. -/
def released (s : State) (vsel : BitVec 4) : State :=
  (withPower (takeBanks (startTimebase (s.orIn .PWR_RESET_CAUSE (s.power.cause.setWidth 64))) vsel)
    fun p => { p with inReset := false, full := false, cause := 0 }).wr .EPO_NUMBER 0

theorem resetRelease_eq (sel : BitVec 2) (vsel : BitVec 4) (h : s.power.inReset = true) :
    exec (.resetRelease sel vsel) s = .next (settle (bootStart (senseFuses (released s vsel)) sel)) := by
  rw [exec_resetRelease]
  unfold execResetRelease
  rw [if_pos h]
  rfl

theorem released_power (vsel : BitVec 4) :
    (released s vsel).power = { s.power with inReset := false, full := false, cause := 0 } := by
  show { (takeBanks _ vsel).power with inReset := false, full := false, cause := 0 } = _
  rw [takeBanks_power, startTimebase_power]
  rfl

theorem released_cause (vsel : BitVec 4) :
    (released s vsel).rd .PWR_RESET_CAUSE = s.rd .PWR_RESET_CAUSE ||| s.power.cause.setWidth 64 := by
  refine (State.rd_wr_reg _ _ _ _ _ _ (by decide)).trans ?_
  show (takeBanks _ vsel).rd _ _ _ = _
  rw [rd_takeBanks _ (by decide), rd_startTimebase _ (by decide)]
  exact State.rd_wr_same _ _ _ _ _

theorem released_epoch (vsel : BitVec 4) : (released s vsel).rd .EPO_NUMBER = 0 := State.rd_wr_same _ _ _ _ _

theorem released_banks (vsel : BitVec 4) (h : s.power.full = true) {b : Nat} (hb : b < 4) :
    (released s vsel).rd .GPIO_BANK 0 b = BitVec.ofNat 64 (vsel.getLsbD b).toNat := by
  refine (State.rd_wr_reg _ _ _ _ _ _ (by decide)).trans ?_
  show (takeBanks _ vsel).rd _ _ _ = _
  unfold takeBanks
  rw [if_pos (by rw [startTimebase_power]; exact h)]
  exact rd_foldl_wr _ _ (fun b => BitVec.ofNat 64 (vsel.getLsbD b).toNat) 4 hb

/-- What a release leaves: sensing the fuses and starting the boot touch none of it. -/
theorem release_records (sel : BitVec 2) (vsel : BitVec 4) (h : s.power.inReset = true) :
    ∃ t, exec (.resetRelease sel vsel) s = .next t ∧ t.power.inReset = false ∧ t.power.full = false ∧
      t.rd .PWR_RESET_CAUSE = s.rd .PWR_RESET_CAUSE ||| s.power.cause.setWidth 64 ∧ t.rd .EPO_NUMBER = 0 ∧
      t.sec.bootSel = sel ∧
      (s.power.full = true → ∀ b, b < 4 → t.rd .GPIO_BANK 0 b = BitVec.ofNat 64 (vsel.getLsbD b).toNat) := by
  have hl : (bootStart (senseFuses (released s vsel)) sel).lasting = (released s vsel).lasting :=
    (lasting_bootStart _ sel).trans (lasting_senseFuses _)
  have hp : (settle (bootStart (senseFuses (released s vsel)) sel)).power =
      { s.power with inReset := false, full := false, cause := 0 } :=
    (settle_power _).trans ((State.power_of_lasting hl).trans (released_power s vsel))
  have hr : ∀ r i j, r.lasting = true → r ≠ .PERF_CNT → r ≠ .PWR_STATUS →
      (settle (bootStart (senseFuses (released s vsel)) sel)).rd r i j = (released s vsel).rd r i j :=
    fun r i j h h1 h2 => (settle_rd _ r i j h1 h2).trans (State.rd_of_lasting hl h i j)
  refine ⟨_, resetRelease_eq s sel vsel h, congrArg Power.inReset hp, congrArg Power.full hp, ?_, ?_, ?_, fun hf b hb => ?_⟩
  · rw [hr _ _ _ rfl (by decide) (by decide), released_cause]
  · rw [hr _ _ _ rfl (by decide) (by decide), released_epoch]
  · rw [settle_sec, bootStart_bootSel]
  · rw [hr _ _ _ rfl (by decide) (by decide), released_banks s vsel hf hb]

end Sys2Proof.Machine
end

section
/-! The obligation on resets. -/

namespace Sys2Proof.Machine

/-- Settles O59, clause by clause: reset P returns to the power-on state, resets B, E and W stand until their
release with nothing left in the units, the watchdog acts at 0 only, and the release notes the causes. -/
theorem resetsTakeEffect : Obligations.ResetsTakeEffect := by
  unfold Obligations.ResetsTakeEffect
  refine ⟨resetP_powerOn, fun sram kept unissued mv us s => ?_, fun s => ?_, fun s hw h0 ha hi => ?_,
    watchdogExpiry_early, fun q v s hc h hv => ?_, fun q v s hc h hv => wdtKick_refused s q v hc h hv,
    fun sel vsel s h => release_records s sel vsel h⟩
  · obtain ⟨t, he, h, hr⟩ := resetB_stands s sram ⟨kept, unissued⟩ mv us
    exact ⟨t, he, h.inReset, h.cause, h.fuses, h.pending, h.cores, h.queues, h.lanes, hr.header, hr.pwr⟩
  · obtain ⟨t, he, h, hr⟩ := resetE_stands s
    exact ⟨t, he, h.inReset, h.cause, h.fuses, h.pending, h.cores, h.queues, h.lanes, hr.header, hr.pwr⟩
  · obtain ⟨t, he, h⟩ := watchdogExpiry_resets s hw h0 ha hi
    exact ⟨t, he, h.inReset, h.cause, h.fuses, h.cores, h.queues, h.lanes⟩
  · subst hv
    exact wdtKick_restarts s q hc h

end Sys2Proof.Machine
end

section
/-! SUPPORT. Performance counters that select no event (R48, R635): nothing on the way of a register write counts in them. -/

namespace Sys2Proof.Machine

variable (s : State)

/-- The value of performance counter `n` of page `p`, where it selects no event. -/
def State.idleCount (s : State) (p n : Nat) : Option DWord :=
  if s.rdf .PERF_SEL 0 8 p n = 0 then some (s.rd .PERF_CNT p n) else none

variable (p n : Nat)

theorem rd_of_idleCount {s : State} {p n : Nat} {x : DWord} (h : s.idleCount p n = some x) : s.rd .PERF_CNT p n = x := by
  unfold State.idleCount at h
  split at h
  · exact Option.some.inj h
  · cases h

theorem idleCount_wr {r : Reg} (hs : r ≠ .PERF_SEL) (hc : r ≠ .PERF_CNT) (v : DWord) (i j : Nat) :
    (s.wr r v i j).idleCount p n = s.idleCount p n := by
  unfold State.idleCount State.rdf
  rw [State.rd_wr_reg s v i j p n hs, State.rd_wr_reg s v i j p n hc]

/-- A count goes to a counter that selects its event, so an idle one keeps its value. -/
theorem idleCount_perf (b : Block) (e m : Nat) : (s.perf b e m).idleCount p n = s.idleCount p n := by
  have one : ∀ (s : State) (k : Nat), (if s.rdf .PERF_SEL 0 8 (pageOf b) k = e ∧ e ≠ 0 then
      s.count .PERF_CNT m (pageOf b) k else s).idleCount p n = s.idleCount p n := by
    intro s k
    split
    · next h =>
      obtain ⟨hsel, he⟩ := h
      have sel : (s.count .PERF_CNT m (pageOf b) k).rd .PERF_SEL p n = s.rd .PERF_SEL p n :=
        State.rd_wr_reg s _ _ _ _ _ (by decide)
      unfold State.idleCount State.rdf
      rw [sel]
      by_cases hk : pageOf b = p ∧ k = n
      · obtain ⟨rfl, rfl⟩ := hk
        have hne : fld (s.rd .PERF_SEL (pageOf b) k) 0 8 ≠ 0 := fun h0 => he (hsel.symm.trans h0)
        rw [if_neg hne, if_neg hne]
      · have cnt : (s.count .PERF_CNT m (pageOf b) k).rd .PERF_CNT p n = s.rd .PERF_CNT p n :=
          State.rd_wr_ne s _ fun e => hk e.2
        rw [cnt]
    · rfl
  exact (one _ 1).trans (one s 0)

theorem idleCount_unanswered (q : Requester) (l : Bool) : (unanswered s q l).1.idleCount p n = s.idleCount p n := by
  unfold unanswered
  simp only []
  split <;> split
  · rfl
  · exact idleCount_wr _ p n (by decide) (by decide) _ _ _
  · rfl
  · exact idleCount_wr s p n (by decide) (by decide) _ _ _

theorem idleCount_reply (q : Requester) (r : Nat) (port : Option Nat) (k : Packet) (st : Status) :
    (reply s q r port k st).1.idleCount p n = s.idleCount p n := by
  unfold reply
  split
  · rfl
  · obtain e | ⟨m, e⟩ := comesBack_quiet s q r port k st
    · simp only [e, Bool.false_eq_true, false_and, if_false]
    · simp only [e]
      exact (idleCount_unanswered _ p n q true).trans (idleCount_wr s p n (by decide) (by decide) _ _ _)

theorem idleCount_endsQuiet (q : Requester) (t : State) : (endsQuiet s q t).idleCount p n = t.idleCount p n := by
  unfold endsQuiet quietEnd
  split
  · split
    · exact idleCount_wr t p n (by decide) (by decide) _ _ _
    · rfl
  · rfl

/-! The end of a command. -/

theorem idleCount_countSummaries : (countSummaries s).idleCount p n = s.idleCount p n := by
  refine foldl_keep (fun s => s.idleCount p n) _ (fun s e => ?_) (summaries s) s
  split
  · exact idleCount_perf s p n _ _ _
  · rfl

theorem idleCount_wakeRequests (a b : BitVec 384) : (wakeRequests s a b).idleCount p n = s.idleCount p n := by
  refine foldl_keep (fun s => s.idleCount p n) _ (fun s e => ?_) s.cores s
  split
  · rw [State.wake_rest]; rfl
  · rfl

theorem idleCount_endQuiet (m : BitVec 384) : (endQuiet s m).idleCount p n = s.idleCount p n := by
  unfold endQuiet
  split
  · exact idleCount_wr s p n (by decide) (by decide) _ _ _
  · rfl

theorem idleCount_settle : (settle s).idleCount p n = s.idleCount p n := by
  show (endQuiet (wakeRequests (hostMessages (countSummaries s) _) _ _) _).idleCount p n = _
  rw [idleCount_endQuiet, idleCount_wakeRequests,
    hostMessages_keep _ (fun s => s.idleCount p n) (fun _ _ _ => rfl), idleCount_countSummaries]

/-! One register write. -/

/-- What `storeWord` leaves of idle counters where the access is served: what the write of the word leaves. -/
theorem idleCount_storeWord (q : Requester) (a place : Nat) (b : Block) (k : RegKey) (v : Word) (d : Endpoint)
    (hp : portOpen s q = true) (hs : slotAt (a - regBase) = some ⟨b, place, some k, false⟩) (hr : inRegs a = true)
    (h4 : a % 4 = 0) (hn : spans s q a 4 = false) (hc : Safety.comesTo s q a 4 d) (ha : admitted s q k.reg = true) :
    (storeWord s q a v).idleCount p n = (writeWord s q ⟨b, place, some k, false⟩ v).idleCount p n := by
  let w := (writeWord s q ⟨b, place, some k, false⟩ v).perf b 4 1
  have e : (regWrite s q a (leBytes 4 v.toNat)).1 =
      (reply w q d.router (some d.port) (responseTo PacketCmd.wr.reads a 4 .ok) .ok).1 := by
    unfold regWrite access
    simp only [length_leBytes, hc .wr, Bool.false_eq_true, if_false, regForm_four _ h4, if_true, Nat.reduceDiv,
      wordsOf_leBytes, wordsWrite_one s q _ place b k v hs ha, (asides_reply _ q _ _ _).2.2]
    rfl
  unfold storeWord busWrite
  simp only [hp, length_leBytes, packetForm_four _ h4, hn, Bool.true_eq_false, Bool.false_eq_true, or_self, if_false, hr,
    if_true]
  refine (idleCount_endsQuiet s p n q _).trans ?_
  rw [e, idleCount_reply, idleCount_perf]

/-- What `setReg` leaves where the access is served and the write has the effect `u`: `u` with asides, idle counters
included. -/
theorem setReg_served (q : Requester) (b : Block) (r : Reg) (v : Word) (i j : Nat) (u : State)
    (h : Safety.serves s q b r i j) (hw : (regDesc r).wide = false)
    (hr : ∀ p, writeReg (dropCapture s ⟨r, i, j⟩) q b ⟨r, i, j⟩ p (ext v) v = u) (hh : u.handing = s.handing) :
    Asides u (setReg s q r v i j) ∧ (setReg s q r v i j).epo = u.epo ∧
      ∀ p n, (setReg s q r v i j).idleCount p n = u.idleCount p n := by
  obtain ⟨hp, ⟨place, hs⟩, hi, h4, hn, ⟨d, hc⟩, hm, hk⟩ := h
  have e : writeWord s q ⟨b, place, some ⟨r, i, j⟩, false⟩ v = u := by
    unfold writeWord
    simp only [hk, Bool.false_and, Bool.false_eq_true, if_false, hw, if_true, hr]
  obtain ⟨ha, he⟩ := storeWord_asides s q _ place b _ v d hp hs hi h4 hn hc hm
  rw [e] at ha he
  rw [handing_self hh] at ha
  exact ⟨ha, he, fun p n => (idleCount_storeWord s p n q _ place b _ v d hp hs hi h4 hn hc hm).trans (by rw [e])⟩

end Sys2Proof.Machine
end

section
/-! SUPPORT. Event and fault registers (R46, R48, R62): what each write leaves in them, and its frame. -/

namespace Sys2Proof.Machine

open Safety (changesOnly changesOnly_wr changesOnly_evt changesOnly_foldl changesOnly_ite)

variable {rs : Reg → Nat → Nat → Bool} {ps : List Safety.Part} {s u : State}

/-! Bits that a write selects. -/

/-- The key of a header register of a block. -/
def hdrKey (b : Block) (r : Reg) : RegKey := ⟨r, pageOf b, 0⟩

theorem bit_ofNat_evtMask (b : Block) (i : Nat) (hi : i < 64) :
    bit (BitVec.ofNat 64 (evtMask b)) i = decide (evtMask b / 2 ^ i % 2 = 1) := by
  unfold bit
  rw [BitVec.getLsbD_ofNat, Nat.testBit_eq_decide_div_mod_eq]
  simp [hi]

theorem bit_ext (v : Word) (i : Nat) (hi : i < 64) : bit (ext v) i = bit v i := by
  unfold bit ext
  rw [BitVec.getLsbD_setWidth]
  simp [hi]

/-- The bits that a write of `v` to an event register of a block selects: those that exist. -/
def evtBits (b : Block) (v : Word) : DWord := ext v &&& BitVec.ofNat 64 (evtMask b)

theorem bit_evtBits (b : Block) (v : Word) (i : Nat) (hi : i < 64) :
    bit (evtBits b v) i = (bit v i && decide (evtMask b / 2 ^ i % 2 = 1)) := by
  rw [← bit_ext v i hi, ← bit_ofNat_evtMask b i hi]
  exact BitVec.getLsbD_and

theorem bit_lo32 (v : DWord) (i : Nat) (hi : i < 32) : bit (lo32 v) i = bit v i := by
  unfold bit lo32
  rw [BitVec.getLsbD_setWidth]
  simp [hi]

theorem bit_and_not {w : Nat} (x y : BitVec w) (i : Nat) (hi : i < w) : bit (x &&& ~~~y) i = (bit x i && !bit y i) := by
  unfold bit
  simp [hi]

/-! `EVT_STATUS` written. -/

theorem changesOnly_noteRearm (h : changesOnly rs ps s u) (b : Block) (w : Nat) : changesOnly rs ps s (noteRearm u b w) :=
  ⟨h.1, fun p hp => by cases p <;> exact h.2 _ hp⟩

theorem changesOnly_force (h : changesOnly rs ps s u) (hf : Safety.Part.force ∈ ps) (f : Tbl Nat Word) :
    changesOnly rs ps s { u with force := f } :=
  ⟨h.1, fun p hn => by
    cases p
    case force => exact absurd hf hn
    all_goals exact h.2 _ hn⟩

theorem clearWrite_evtStatus (b : Block) (x : DWord) (hm : summaryMask b = 0) :
    clearWrite s b (hdrKey b .EVT_STATUS) x = noteRearm (s.clearIn .EVT_STATUS x (pageOf b)) b x.toNat :=
  congrArg (fun u => noteRearm u b x.toNat) (if_pos hm)

theorem clearWrite_force (b : Block) (x : DWord) (hm : summaryMask b ≠ 0) :
    clearWrite s b (hdrKey b .EVT_STATUS) x = noteRearm { s with
      force := tset id 0 s.force (pageOf b) (tget 0 s.force (pageOf b) &&& ~~~lo32 x) } b x.toNat :=
  congrArg (fun u => noteRearm u b x.toNat) (if_neg hm)

/-! `EVT_FORCE` written. -/

/-- The chosen bits are set one after another, each by its cause's own operation. -/
theorem bit_foldl_evt (b : Block) (w : Nat) (l : List Nat) (s : State) (i : Nat) (hi : i < 64) :
    bit ((l.foldl (fun s n => if (w >>> n) % 2 = 1 then s.evt b n else s) s).rd .EVT_STATUS (pageOf b)) i =
      (decide (i ∈ l ∧ (w >>> i) % 2 = 1) || bit (s.rd .EVT_STATUS (pageOf b)) i) := by
  induction l generalizing s with
  | nil => simp
  | cons n l ih =>
    rw [List.foldl_cons, ih]
    split
    · next hn =>
      rw [State.evt_bit s b n i hi]
      by_cases e : i = n
      · subst e; simp [hn]
      · simp [e]
    · next hn =>
      by_cases e : i = n
      · subst e; simp [hn]
      · simp [e]

theorem evtForce_stored (b : Block) (w : Nat) (hm : summaryMask b = 0) :
    evtForce s b w = (List.range 16).foldl (fun s i => if (w >>> i) % 2 = 1 then s.evt b i else s) s := if_pos hm

theorem evtForce_flags (b : Block) (w : Nat) (hm : summaryMask b ≠ 0) :
    evtForce s b w = { s with force := tset id 0 s.force (pageOf b) (tget 0 s.force (pageOf b) ||| BitVec.ofNat 32 w) } :=
  if_neg hm

/-- What neither an event nor the force flags hold is left by `EVT_FORCE`. -/
theorem evtForce_keep {β : Type} (P : State → β) (he : ∀ s b i, P (State.evt s b i) = P s)
    (hf : ∀ s f, P { s with force := f } = P s) (s : State) (b : Block) (w : Nat) : P (evtForce s b w) = P s := by
  by_cases hm : summaryMask b = 0
  · rw [evtForce_stored b w hm]
    refine foldl_keep P _ (fun s i => ?_) _ s
    split
    · exact he s b i
    · rfl
  · rw [evtForce_flags b w hm]; exact hf s _

/-- `EVT_STATUS` as it reads shows every bit that `EVT_FORCE` chose, however the event controller ends the command. -/
theorem evtStatus_evtForce {t : State} (b : Block) (w i : Nat) (hi : i < 16) (hw : w.testBit i = true)
    (h : Asides (evtForce s b w) t) : bit (evtStatus t b) i = true := by
  unfold evtStatus
  split
  · next hm =>
    have hb : (w >>> i) % 2 = 1 := by
      rw [Nat.shiftRight_eq_div_pow]
      rw [Nat.testBit_eq_decide_div_mod_eq] at hw
      exact of_decide_eq_true hw
    rw [bit_lo32 _ _ (by omega), h.rd _ _ _ rfl, evtForce_stored b w hm, bit_foldl_evt b w _ s i (by omega)]
    simp [hi, hb]
  · next hm =>
    rw [h.force, evtForce_flags b w hm, tget_tset_same]
    refine bit_or_right _ _ i (bit_or_right _ _ i ?_)
    unfold bit
    rw [BitVec.getLsbD_ofNat, hw]
    simp [show i < 32 by omega]

theorem changesOnly_evtForce (h : changesOnly rs ps s u) {b : Block} {w : Nat} (hr : rs .EVT_STATUS (pageOf b) 0 = true)
    (hf : Safety.Part.force ∈ ps) : changesOnly rs ps s (evtForce u b w) := by
  by_cases hm : summaryMask b = 0
  · rw [evtForce_stored b w hm]
    exact changesOnly_foldl _ (fun u i hu => changesOnly_ite (changesOnly_evt hu hr) hu) _ h
  · rw [evtForce_flags b w hm]; exact changesOnly_force h hf _

/-! `FAULT_COUNT` written. -/

/-- The registers of a block's fault record after `FAULT_COUNT` is written (R46). -/
theorem rd_wipe_faults (s : State) (b : Block) {r : Reg} (hr : r = .FAULT_COUNT ∨ r = .FAULT_REC0 ∨ r = .FAULT_REC1) :
    (wipeWrite s (hdrKey b .FAULT_COUNT)).rd r (pageOf b) = 0 := by
  show ((((s.wr .FAULT_COUNT 0 (pageOf b)).wr .FAULT_REC0 0 (pageOf b)).wr .FAULT_REC1 0 (pageOf b)).rd r (pageOf b)) = 0
  obtain rfl | rfl | rfl := hr
  · rw [State.rd_wr_reg _ _ _ _ _ _ (by decide), State.rd_wr_reg _ _ _ _ _ _ (by decide), State.rd_wr_same]
  · rw [State.rd_wr_reg _ _ _ _ _ _ (by decide), State.rd_wr_same]
  · rw [State.rd_wr_same]

theorem changesOnly_wipe_faults {b : Block} (h : changesOnly (fun r i _ => Safety.faultOf b r i) ps s u) :
    changesOnly (fun r i _ => Safety.faultOf b r i) ps s (wipeWrite u (hdrKey b .FAULT_COUNT)) :=
  changesOnly_wr (changesOnly_wr (changesOnly_wr h (.inl (by simp [Safety.faultOf, hdrKey])))
    (.inl (by simp [Safety.faultOf, hdrKey]))) (.inl (by simp [Safety.faultOf, hdrKey]))

/-- A fault after the first leaves both record words (R46). -/
theorem State.fault_later (s : State) (b : Block) (c d x : Nat) (h : s.rd .FAULT_COUNT (pageOf b) ≠ 0) {r : Reg}
    (hr : r = .FAULT_REC0 ∨ r = .FAULT_REC1) : (s.fault b c d x).rd r (pageOf b) = s.rd r (pageOf b) := by
  have hc : r ≠ .FAULT_COUNT := by obtain rfl | rfl := hr <;> decide
  have hp : r ≠ .PERF_CNT := by obtain rfl | rfl := hr <;> decide
  unfold State.fault
  simp only [if_neg h]
  rw [State.perf_rd _ _ _ _ _ _ _ hp]
  exact State.rd_wr_reg s _ _ _ _ _ hc.symm

/-! `PERF_SEL` written. -/

/-- Counter `n` of a block takes an event number and starts at 0 (R48). -/
def selectEvent (s : State) (b : Block) (n : Nat) (v : Word) : State :=
  (s.wr .PERF_SEL (merge 0xFF (s.rd .PERF_SEL (pageOf b) n) (ext v)) (pageOf b) n).wr .PERF_CNT 0 (pageOf b) n

theorem rdf_selectEvent (s : State) (b : Block) (n : Nat) (v : Word) :
    (selectEvent s b n v).rdf .PERF_SEL 0 8 (pageOf b) n = fld v 0 8 := by
  unfold State.rdf selectEvent
  rw [State.rd_wr_reg _ _ _ _ _ _ (by decide), State.rd_wr_same, fld_merge _ _ _ _ _ (by decide) (by decide), fld_ext]

theorem idleCount_selectEvent (s : State) (b : Block) (n : Nat) (v : Word) (h : fld v 0 8 = 0) :
    (selectEvent s b n v).idleCount (pageOf b) n = some 0 := by
  unfold State.idleCount
  rw [rdf_selectEvent, if_pos h]
  exact congrArg some (State.rd_wr_same _ _ _ _ _)

theorem writeReg_perfSel (s : State) (q : Requester) (b : Block) (n : Nat) (v : Word) (h : fld v 0 8 < 5) (p : Nat) :
    writeReg s q b ⟨.PERF_SEL, pageOf b, n⟩ p (ext v) v = selectEvent s b n v := by
  have hf : fld (ext v) 0 8 < 5 := by rw [fld_ext]; exact h
  have hn : fld (merge 0xFF (s.rd .PERF_SEL (pageOf b) n) (ext v)) 0 8 < 5 := by
    rw [fld_merge _ _ _ _ _ (by decide) (by decide)]; exact hf
  have hb : badFields s b ⟨.PERF_SEL, pageOf b, n⟩ (s.rd .PERF_SEL (pageOf b) n)
      (merge 0xFF (s.rd .PERF_SEL (pageOf b) n) (ext v)) = [] := by
    have hr : (regDesc .PERF_SEL).resv = [(0, 8, fun x => decide (x < 5))] := rfl
    unfold badFields
    rw [hr]
    simpa [moreFields] using hn
  have ha : (regDesc .PERF_SEL).acc = .rw := rfl
  have ho : regView s b ⟨.PERF_SEL, pageOf b, n⟩ = s.rd .PERF_SEL (pageOf b) n := rfl
  have hm : regMask b ⟨.PERF_SEL, pageOf b, n⟩ = 0xFF := rfl
  have hw : ∀ old new raw, writeRefused s q b ⟨.PERF_SEL, pageOf b, n⟩ old new raw = false := fun _ _ _ => rfl
  have hp : ∀ old new, putReg s b ⟨.PERF_SEL, pageOf b, n⟩ old new (ext v) =
      (s.wr .PERF_SEL new (pageOf b) n).wr .PERF_CNT 0 (pageOf b) n := fun _ _ => if_pos hf
  unfold writeReg
  simp only [ha, ho, hm, hb, keepFields, hw, hp, Bool.false_eq_true, if_false, if_true]
  exact groupsLeft_same _ _ rfl

end Sys2Proof.Machine
end

section
/-! The obligation on event and fault registers. -/

namespace Sys2Proof.Machine

open Safety (changesOnly changesOnly_refl changesOnly_dropCapture changesOnly_wr changesOnly_fault changesOnly_asides
  changesOnly_settle)

variable (s : State) (q : Requester) (b : Block) (v : Word)

/-- A W1C write of `EVT_STATUS` where the access is served. -/
theorem evtStatusClear_asides (hc : Safety.calm s) (h : Safety.serves s q b .EVT_STATUS (pageOf b) 0) :
    ∃ t, exec (.evtStatusClear q b v) s = .next t ∧ t.epo.detected = [] ∧
      Asides (clearWrite (dropCapture s (hdrKey b .EVT_STATUS)) b (hdrKey b .EVT_STATUS) (evtBits b v)) t := by
  have hk : (clearWrite (dropCapture s (hdrKey b .EVT_STATUS)) b (hdrKey b .EVT_STATUS) (evtBits b v)).handing = s.handing ∧
      (clearWrite (dropCapture s (hdrKey b .EVT_STATUS)) b (hdrKey b .EVT_STATUS) (evtBits b v)).epo.detected = [] := by
    by_cases hm : summaryMask b = 0
    · rw [clearWrite_evtStatus b _ hm]; exact ⟨rfl, hc⟩
    · rw [clearWrite_force b _ hm]; exact ⟨rfl, hc⟩
  obtain ⟨t, ht, ha, hd⟩ := setReg_finish s q b .EVT_STATUS v (pageOf b) 0 _ h rfl (fun _ => handing_self hk.1) hk.2
  exact ⟨t, ht, hd, ha⟩

theorem evtStatusClear_stored (hc : Safety.calm s) (h : Safety.serves s q b .EVT_STATUS (pageOf b) 0)
    (hm : summaryMask b = 0) : ∃ t, exec (.evtStatusClear q b v) s = .next t ∧
      (∀ i, i < 16 → bit (t.rd .EVT_STATUS (pageOf b)) i =
        (bit (s.rd .EVT_STATUS (pageOf b)) i && !(bit v i && decide (evtMask b / 2 ^ i % 2 = 1)))) ∧
      changesOnly (fun r i _ => Safety.eventOf b r i) [.captured] s t := by
  obtain ⟨t, ht, hd, ha⟩ := evtStatusClear_asides s q b v hc h
  rw [clearWrite_evtStatus b _ hm] at ha
  refine ⟨t, ht, fun i hi => ?_, changesOnly_asides (changesOnly_noteRearm (changesOnly_wr (changesOnly_dropCapture
    changesOnly_refl (by simp)) (.inl (by simp [Safety.eventOf]))) _ _) ha hc hd⟩
  have e : t.rd .EVT_STATUS (pageOf b) = s.rd .EVT_STATUS (pageOf b) &&& ~~~evtBits b v :=
    (ha.rd _ _ _ rfl).trans (State.rd_wr_same _ _ _ _ _)
  rw [e, bit_and_not _ _ _ (by omega), bit_evtBits _ _ _ (by omega)]

theorem evtStatusClear_flags (hc : Safety.calm s) (h : Safety.serves s q b .EVT_STATUS (pageOf b) 0)
    (hm : summaryMask b ≠ 0) : ∃ t, exec (.evtStatusClear q b v) s = .next t ∧
      (∀ i, i < 16 → bit (tget 0 t.force (pageOf b)) i =
        (bit (tget 0 s.force (pageOf b)) i && !(bit v i && decide (evtMask b / 2 ^ i % 2 = 1)))) ∧
      changesOnly (fun r i _ => Safety.eventOf b r i) [.captured, .force] s t := by
  obtain ⟨t, ht, hd, ha⟩ := evtStatusClear_asides s q b v hc h
  rw [clearWrite_force b _ hm] at ha
  refine ⟨t, ht, fun i hi => ?_, changesOnly_asides (changesOnly_noteRearm (changesOnly_force (changesOnly_dropCapture
    changesOnly_refl (by simp)) (by simp) _) _ _) ha hc hd⟩
  have e : tget 0 t.force (pageOf b) = tget 0 s.force (pageOf b) &&& ~~~lo32 (evtBits b v) := by
    rw [ha.force]; exact tget_tset_same _ _ _ _ _
  rw [e, bit_and_not _ _ _ (by omega), bit_lo32 _ _ (by omega), bit_evtBits _ _ _ (by omega)]

theorem evtForce_sets (hc : Safety.calm s) (h : Safety.serves s q b .EVT_FORCE (pageOf b) 0) :
    ∃ t, exec (.evtForce q b v) s = .next t ∧
      (∀ i, i < 16 → bit v i = true → evtMask b / 2 ^ i % 2 = 1 → bit (evtStatus t b) i = true) ∧
      changesOnly (fun r i _ => Safety.eventOf b r i) [.captured, .force] s t := by
  let d := dropCapture s (hdrKey b .EVT_FORCE)
  have hh : (evtForce d b (evtBits b v).toNat).handing = s.handing :=
    evtForce_keep State.handing State.evt_handing (fun _ _ => rfl) d b _
  have he : (evtForce d b (evtBits b v).toNat).epo = s.epo :=
    evtForce_keep State.epo State.evt_epo (fun _ _ => rfl) d b _
  have hd0 : (evtForce d b (evtBits b v).toNat).epo.detected = [] := by rw [he]; exact hc
  obtain ⟨t, ht, ha, hd⟩ := setReg_command s q b .EVT_FORCE v (pageOf b) 0 _ h rfl rfl rfl (handing_self hh) hd0
  refine ⟨t, ht, fun i hi hv hm => evtStatus_evtForce b _ i hi ?_ ha, changesOnly_asides (changesOnly_evtForce
    (changesOnly_dropCapture changesOnly_refl (by simp)) (by simp [Safety.eventOf]) (by simp)) ha hd0 hd⟩
  show bit (evtBits b v) i = true
  rw [bit_evtBits _ _ _ (by omega), hv]
  simp [hm]

/-- The state after the write of `FAULT_COUNT` itself: the record is cleared, and nothing else has moved. -/
theorem setReg_faultCount (hc : Safety.calm s) (h : Safety.serves s q b .FAULT_COUNT (pageOf b) 0) :
    (setReg s q .FAULT_COUNT v (pageOf b)).epo.detected = [] ∧
      (∀ r, r = .FAULT_COUNT ∨ r = .FAULT_REC0 ∨ r = .FAULT_REC1 →
        (setReg s q .FAULT_COUNT v (pageOf b)).rd r (pageOf b) = 0) ∧
      changesOnly (fun r i _ => Safety.faultOf b r i) [.captured] s (setReg s q .FAULT_COUNT v (pageOf b)) := by
  obtain ⟨ha, he, -⟩ := setReg_served s q b .FAULT_COUNT v (pageOf b) 0 _ h rfl (fun _ => rfl) rfl
  have hd : (setReg s q .FAULT_COUNT v (pageOf b)).epo.detected = [] := (congrArg Epo.detected he).trans hc
  refine ⟨hd, fun r hr => ?_, changesOnly_asides (changesOnly_wipe_faults (changesOnly_dropCapture changesOnly_refl
    (by simp))) ha hc hd⟩
  exact (ha.rd r _ _ (by obtain rfl | rfl | rfl := hr <;> rfl)).trans (rd_wipe_faults _ b hr)

theorem faultCountClear_clears (hc : Safety.calm s) (h : Safety.serves s q b .FAULT_COUNT (pageOf b) 0) :
    ∃ t, exec (.faultCountClear q b v none) s = .next t ∧ t.rd .FAULT_COUNT (pageOf b) = 0 ∧
      t.rd .FAULT_REC0 (pageOf b) = 0 ∧ t.rd .FAULT_REC1 (pageOf b) = 0 ∧
      changesOnly (fun r i _ => Safety.faultOf b r i) [.captured] s t := by
  obtain ⟨hd, h0, hk⟩ := setReg_faultCount s q b v hc h
  exact ⟨_, finish_quiet _ hd, (settle_rd _ _ _ _ (by decide) (by decide)).trans (h0 _ (by simp)),
    (settle_rd _ _ _ _ (by decide) (by decide)).trans (h0 _ (by simp)),
    (settle_rd _ _ _ _ (by decide) (by decide)).trans (h0 _ (by simp)), changesOnly_settle hk hd⟩

/-- A fault that coincides with the write meets a cleared record, so it is the first one (R46). -/
theorem faultCountClear_first (f : FaultRec) (hc : Safety.calm s) (h : Safety.serves s q b .FAULT_COUNT (pageOf b) 0) :
    ∃ t, exec (.faultCountClear q b v (some f)) s = .next t ∧ t.rdf .FAULT_COUNT 0 16 (pageOf b) = 1 ∧
      t.rd .FAULT_REC0 (pageOf b) = BitVec.ofNat 64 (f.code.toNat * 65536 + f.detail.toNat) ∧
      t.rd .FAULT_REC1 (pageOf b) = f.rec1.setWidth 64 ∧
      changesOnly (fun r i _ => Safety.faultOf b r i) [.captured] s t := by
  obtain ⟨hd, h0, hk⟩ := setReg_faultCount s q b v hc h
  generalize hu : setReg s q .FAULT_COUNT v (pageOf b) = u at hd h0 hk
  have hq : (u.fault b f.code.toNat f.detail.toNat f.rec1.toNat).epo.detected = [] := by rw [State.fault_epo]; exact hd
  obtain ⟨h1, h2⟩ := u.fault_first b f.code.toNat f.detail.toNat f.rec1.toNat (h0 _ (by simp))
  have hn := u.fault_count b f.code.toNat f.detail.toNat f.rec1.toNat
  refine ⟨settle (u.fault b f.code.toNat f.detail.toNat f.rec1.toNat), ?_, ?_, ?_, ?_,
    changesOnly_settle (changesOnly_fault hk fun _ _ _ e => e) hq⟩
  · rw [exec_faultCountClear, ← finish_quiet _ hq, ← hu]; rfl
  · unfold State.rdf at hn ⊢
    rw [settle_rd _ _ _ _ (by decide) (by decide), hn, h0 _ (by simp)]
    rfl
  · rw [settle_rd _ _ _ _ (by decide) (by decide), h1, Nat.mod_eq_of_lt f.code.isLt, Nat.mod_eq_of_lt f.detail.isLt]
  · rw [settle_rd _ _ _ _ (by decide) (by decide), h2, Nat.mod_eq_of_lt f.rec1.isLt, BitVec.ofNat_toNat]

theorem perfSelWrite_selects (n : Fin 2) (hc : Safety.calm s) (h : Safety.serves s q b .PERF_SEL (pageOf b) n)
    (hv : fld v 0 8 < 5) : ∃ t, exec (.perfSelWrite q b n v) s = .next t ∧
      t.rdf .PERF_SEL 0 8 (pageOf b) n = fld v 0 8 ∧ (fld v 0 8 = 0 → t.rd .PERF_CNT (pageOf b) n = 0) ∧
      changesOnly (fun r i j => r == .PERF_SEL && i == pageOf b && j == n.val) [.captured] s t := by
  obtain ⟨ha, he, hi⟩ := setReg_served s q b .PERF_SEL v (pageOf b) n _ h rfl
    (fun p => writeReg_perfSel _ q b n v hv p) rfl
  have hd : (setReg s q .PERF_SEL v (pageOf b) n).epo.detected = [] := (congrArg Epo.detected he).trans hc
  have hk : changesOnly (fun r i j => r == .PERF_SEL && i == pageOf b && j == n.val) [.captured] s
      (selectEvent (dropCapture s ⟨.PERF_SEL, pageOf b, n⟩) b n v) :=
    changesOnly_wr (changesOnly_wr (changesOnly_dropCapture changesOnly_refl (by simp)) (.inl (by simp))) (.inr rfl)
  refine ⟨_, finish_quiet _ hd, ?_, fun h0 => rd_of_idleCount ?_, changesOnly_settle (changesOnly_asides hk ha hc hd) hd⟩
  · unfold State.rdf
    rw [settle_rd _ _ _ _ (by decide) (by decide), ha.rd _ _ _ rfl]
    exact rdf_selectEvent _ b n v
  · rw [idleCount_settle, hi, idleCount_selectEvent _ b n v h0]

/-- Settles O7, clause by clause: clears of stored bits and of force flags, forced bits, the fault record cleared alone and
under a coincident fault, the recording of a fault, and the event selection of a performance counter. -/
theorem eventAndFaultRegisters : Obligations.EventAndFaultRegisters := by
  unfold Obligations.EventAndFaultRegisters
  refine ⟨fun q b v s hc h hm => evtStatusClear_stored s q b v hc h hm,
    fun q b v s hc h hm => evtStatusClear_flags s q b v hc h hm, fun q b v s hc h => evtForce_sets s q b v hc h,
    fun q b v s hc h => faultCountClear_clears s q b v hc h,
    fun q b v f s hc h => faultCountClear_first s q b v f hc h, fun b c d x s => ?_,
    fun q b n v s hc h hv => perfSelWrite_selects s q b v n hc h hv⟩
  exact ⟨s.fault_count b c d x, s.fault_first b c d x,
    fun h => ⟨s.fault_later b c d x h (.inl rfl), s.fault_later b c d x h (.inr rfl)⟩⟩

end Sys2Proof.Machine
end

section
/-! SUPPORT. The banks of a stream core (R360, R397): what a bank set as the current one reads, and banks set one after
another. -/

namespace Sys2Proof.Machine

/-! A key set twice holds what it was set to last. -/

section
variable {κ β : Type} [DecidableEq κ]

theorem tdel_tdel (t : Tbl κ β) (k : κ) : tdel (tdel t k) k = tdel t k := by
  induction t with
  | nil => rfl
  | cons e r ih =>
    obtain ⟨a, w⟩ := e
    by_cases h : a = k <;> simp [tdel, h, ih]

theorem tdel_tins (ord : κ → Nat) (t : Tbl κ β) (k : κ) (v : β) : tdel (tins ord t k v) k = tdel t k := by
  induction t with
  | nil => simp [tins, tdel]
  | cons e r ih =>
    obtain ⟨a, w⟩ := e
    simp only [tins]
    split
    · simp [tdel]
    · by_cases h : a = k <;> simp [tdel, h, ih]

theorem tset_tset [DecidableEq β] (ord : κ → Nat) (d v w : β) (t : Tbl κ β) (k : κ) :
    tset ord d (tset ord d t k v) k w = tset ord d t k w := by
  have e : tdel (tset ord d t k v) k = tdel t k := by
    unfold tset
    split
    · exact tdel_tdel t k
    · rw [tdel_tins, tdel_tdel]
  unfold tset at e ⊢
  rw [e]

end

/-! Registers of a bank. -/

@[simp] theorem Bank.sp_setSp_same (b : Bank) (n : Nat) (v : Word) : (b.setSp n v).sp n = v := tget_tset_same id 0 v b.spec n

theorem Bank.sp_setSp_ne (b : Bank) {n m : Nat} (v : Word) (h : n ≠ m) : (b.setSp n v).sp m = b.sp m :=
  tget_tset_ne id 0 v 0 b.spec h

/-- A bank without the cells that an instruction pops. -/
def Bank.popped (b : Bank) (n : Need) : Bank := { b with ds := b.ds.drop n.pop, rs := b.rs.drop n.rpop }

/-- A bank with cells pushed. -/
def Bank.pushed (b : Bank) (ds rs : List Word) : Bank := { b with ds := ds ++ b.ds, rs := rs ++ b.rs }

theorem Bank.sp_pushed (b : Bank) (ds rs : List Word) (n : Nat) : (b.pushed ds rs).sp n = b.sp n := rfl

/-- A bank whose V an instruction has set, or not (R369). -/
def Bank.raised (b : Bank) (v : Bool) : Bank := if v then b.setSp 0 (b.sp 0 ||| 1) else b

theorem Bank.sp_raised (b : Bank) (v : Bool) : (b.raised v).sp 0 = Safety.flagged (b.sp 0) v := by
  cases v
  · rfl
  · exact b.sp_setSp_same 0 _

/-- Bank `b'` differs from `b` in its stacks, the special registers in `spec`, the local registers in `locals` and, where
`accs`, its accumulators: the part of a unit's frame that is about its bank. -/
structure Bank.Keeps (spec locals : Nat → Bool) (accs : Bool) (b b' : Bank) : Prop where
  sp : ∀ n, spec n = false → b'.sp n = b.sp n
  locals : ∀ n, locals n = false → b'.local n = b.local n
  accs : accs = false → b'.acc0 = b.acc0 ∧ b'.acc1 = b.acc1
  dsp : b'.dsp = b.dsp
  rsp : b'.rsp = b.rsp

section
variable {spec locals : Nat → Bool} {accs : Bool} {b b' : Bank}

theorem Bank.Keeps.popped (n : Need) : Bank.Keeps spec locals accs b (b.popped n) :=
  ⟨fun _ _ => rfl, fun _ _ => rfl, fun _ => ⟨rfl, rfl⟩, rfl, rfl⟩

theorem Bank.Keeps.pushed (h : Bank.Keeps spec locals accs b b') (ds rs : List Word) :
    Bank.Keeps spec locals accs b (b'.pushed ds rs) := ⟨h.sp, h.locals, h.accs, h.dsp, h.rsp⟩

theorem Bank.Keeps.setSp (h : Bank.Keeps spec locals accs b b') {n : Nat} (hn : spec n = true) (v : Word) :
    Bank.Keeps spec locals accs b (b'.setSp n v) where
  sp m hm := (b'.sp_setSp_ne v fun e => by rw [e, hm] at hn; cases hn).trans (h.sp m hm)
  locals := h.locals
  accs := h.accs
  dsp := h.dsp
  rsp := h.rsp

theorem Bank.Keeps.raised (h : Bank.Keeps spec locals accs b b') (h0 : spec 0 = true) (v : Bool) :
    Bank.Keeps spec locals accs b (b'.raised v) := by
  cases v
  · exact h
  · exact h.setSp h0 _

theorem Bank.Keeps.withAccs (h : Bank.Keeps spec locals true b b') (x y : BitVec 72) :
    Bank.Keeps spec locals true b { b' with acc0 := x, acc1 := y } := ⟨h.sp, h.locals, nofun, h.dsp, h.rsp⟩

end

/-! The current bank of a core. -/

/-- The state with a bank as the current one of core `k`. -/
def State.withCur (s : State) (k : Nat) (b : Bank) : State := s.setCore k ((s.core k).setCur b)

variable (s : State) (k : Nat)

@[simp] theorem Core.cur_setCur (c : Core) (b : Bank) : (c.setCur b).cur = b := tget_tset_same id ({} : Bank) b c.banks c.bank

theorem Core.bk_setCur_ne (c : Core) (b : Bank) {n : Nat} (h : n ≠ c.bank) : (c.setCur b).bk n = c.bk n :=
  tget_tset_ne id ({} : Bank) b {} c.banks h.symm

@[simp] theorem State.core_withCur (b : Bank) : (s.withCur k b).core k = (s.core k).setCur b := State.core_setCore_same ..

theorem State.core_withCur_ne (b : Bank) {j : Nat} (h : j ≠ k) : (s.withCur k b).core j = s.core j :=
  State.core_setCore_ne s _ h.symm

theorem State.cur_withCur (b : Bank) : ((s.withCur k b).core k).cur = b := by
  rw [State.core_withCur, Core.cur_setCur]

@[simp] theorem State.withCur_withCur (b b' : Bank) : (s.withCur k b).withCur k b' = s.withCur k b' := by
  unfold State.withCur Core.setCur Core.setBk
  rw [State.core_setCore_same]
  simp only [State.setCore, tset_tset]

@[simp] theorem State.modCur_withCur (b : Bank) (f : Bank → Bank) : (s.withCur k b).modCur k f = s.withCur k (f b) := by
  show (s.withCur k b).withCur k (f ((s.withCur k b).core k).cur) = _
  rw [State.cur_withCur, State.withCur_withCur]

@[simp] theorem raiseV_withCur (b : Bank) (v : Bool) : raiseV (s.withCur k b) k v = s.withCur k (b.raised v) := by
  cases v
  · rfl
  · exact s.modCur_withCur k b fun b => b.setSp 0 (b.sp 0 ||| 1)

/-! Memory beside the cores. -/

theorem State.leAt_congr {s t : State} (h : t.mem = s.mem) (a n : Nat) : t.leAt a n = s.leAt a n := by
  have e (a : Nat) : t.bytes a n = s.bytes a n := by
    induction n generalizing a with
    | zero => rfl
    | succ n ih =>
      have hbyte : t.byte a = s.byte a := congrArg (tget 0 · a) h
      rw [State.bytes, State.bytes, hbyte, ih]
  exact congrArg leNat (e a)

@[simp] theorem State.leAt_withCur (b : Bank) (a n : Nat) : (s.withCur k b).leAt a n = s.leAt a n :=
  State.leAt_congr (s := s) (t := s.withCur k b) rfl a n

@[simp] theorem badIn_withCur (b : Bank) (a n : Nat) : badIn (s.withCur k b) a n = badIn s a n := rfl

theorem State.putBytes_setCore (c : Core) (l : List Byte) (a : Nat) :
    (s.setCore k c).putBytes a l = (s.putBytes a l).setCore k c := by
  induction l generalizing s a with
  | nil => rfl
  | cons b r ih => exact ih (s.putByte a b) (a + 1)

theorem State.putBytes_rest (l : List Byte) (a : Nat) : s.putBytes a l = { s with mem := (s.putBytes a l).mem } := by
  induction l generalizing s a with
  | nil => rfl
  | cons b r ih =>
    unfold State.putBytes
    rw [ih]
    rfl

/-- A core's store to its own memory touches nothing but memory and what stands uncorrectable in it. -/
theorem localWrite_rest (a n v : Nat) :
    localWrite s k a n v = { s with mem := (localWrite s k a n v).mem, bad := (localWrite s k a n v).bad } := by
  unfold localWrite store
  rw [State.putBytes_rest]
  rfl

theorem localWrite_cores (a n v : Nat) : (localWrite s k a n v).cores = s.cores := by rw [localWrite_rest]

theorem localWrite_epo (a n v : Nat) : (localWrite s k a n v).epo = s.epo := by rw [localWrite_rest]

theorem localWrite_withCur (b : Bank) (a n v : Nat) :
    localWrite (s.withCur k b) k a n v = (localWrite s k a n v).withCur k b := by
  have e : (localWrite s k a n v).core k = s.core k := congrArg (tget ({} : Core) · k) (localWrite_cores s k a n v)
  unfold State.withCur
  rw [e]
  exact State.putBytes_setCore (clearBad s _ _) k _ _ _

theorem localWrite_leAt (a v : Nat) (n : Nat) : (localWrite s k a n v).leAt (coreMem k a) n = v % 256 ^ n := by
  have e := State.bytes_putBytes (clearBad s (coreMem k a) (leBytes n v).length) (leBytes n v) (coreMem k a)
  rw [length_leBytes] at e
  unfold State.leAt localWrite store
  rw [length_leBytes, e, leNat_leBytes]

theorem localWrite_byte_out (a n v z : Nat) (h : z < coreMem k a ∨ coreMem k a + n ≤ z) :
    (localWrite s k a n v).byte z = s.byte z :=
  State.byte_putBytes_out _ _ _ _ (by rwa [length_leBytes])

theorem changesOnly_localWrite {rs : Reg → Nat → Nat → Bool} {ps : List Safety.Part} (hm : Safety.Part.mem ∈ ps)
    (hb : Safety.Part.bad ∈ ps) (a n v : Nat) : Safety.changesOnly rs ps s (localWrite s k a n v) := by
  have h : Safety.changesOnly rs ps s s := Safety.changesOnly_refl
  rw [localWrite_rest]
  refine ⟨h.1, fun p hp => ?_⟩
  cases p
  case mem => exact absurd hm hp
  case bad => exact absurd hb hp
  all_goals exact h.2 _ hp

end Sys2Proof.Machine
end

section
/-! SUPPORT. A stream core's unit that completes (R361, R397, R405): from what its instruction's effect answers to the state
after the command. -/

namespace Sys2Proof.Machine

open Safety

variable {s u : State} {k : Fin 32} {x : CoreEnv} {op : Nat} {i : Insn}

/-- Where the cells stand in the caches, none moves (R397, R405). -/
theorem bringCells_ready {n : Need} (h : cellsReady (s.core k) n) (hl : n.look ≤ (Safety.ds s k).length) :
    bringCells s k (s.core k).bank n x = { s := s, seen := (Safety.ds s k).take n.reads } := by
  obtain ⟨hp, hrp, hd, hr⟩ := h
  have hreads : n.reads ≤ (s.core k).cur.ds.length := Nat.max_le.mpr ⟨hl, hp⟩
  have h16 : (s.core k).cur.ds.length - n.pop + n.push ≤ 16 := by split at hd <;> omega
  have hm : movesFor (s.core k).cur n = (0, 0, 0, 0) := by
    simp only [movesFor, Prod.mk.injEq, Nat.max_eq_left hreads, Nat.max_eq_left hrp]
    omega
  have hcur : (s.core k).bk (s.core k).bank = (s.core k).cur := rfl
  simp only [bringCells, hcur, hm, Nat.max_eq_left hreads]
  split
  · rename_i hT
    rw [if_pos hT] at hd
    simp [Nat.not_lt.mpr hd, Safety.ds]
  · simp [runMoves, limitOf, never, hcur, Safety.ds]

theorem applyEcc_ok (s : State) (a : Nat) : applyEcc s a .ok = s := applyEccs_ok s a 0

theorem fetchEcc_ok (h : x.fetch = .ok) : fetchEcc s k x = s := by
  have e : applyEcc s (coreMem k (s.core k).pc.toNat) x.fetch = s := by rw [h]; exact applyEcc_ok s _
  simp only [fetchEcc, e, ite_self]

/-- A core that is not to stop, and whose page writes are all done, has nothing to do at a boundary (R407, R410). -/
theorem boundary_idle (hs : (s.core k).stopping = false) (hm : (s.core k).mirrors = []) :
    boundaryMirrors (stopHere s k) k = s := by
  simp [stopHere, hs, boundaryMirrors, hm]

/-- An instruction whose effect is done leaves the cells it pushes in the current bank, and its core goes on behind it. -/
theorem issue_done {b : Bank} {ds' rs' : List Word} (h : issues s k x op i) (hb : isBranch op = false)
    (hl : (needOf i).look ≤ (Safety.ds s k).length)
    (hf : effect (s.withCur k ((s.core k).cur.popped (needOf i))) k x i ((Safety.ds s k).take (needOf i).reads)
      ((Safety.rs s k).take (needOf i).rpop) = .done (u.withCur k b) ds' rs') (hu : u.cores = s.cores) :
    issue s k x (· == op) = goOn (u.withCur k (b.pushed ds' rs')) k (i.last + 2) := by
  obtain ⟨hw, hs, hm, hrun, hrep, hx, hd, rfl, hc⟩ := h
  have hk : u.core k = s.core k := congrArg (tget ({} : Core) · k.val) hu
  have ht : takeCells s k (needOf i) = s.withCur k ((s.core k).cur.popped (needOf i)) := rfl
  have hp : pushCells (u.withCur k b) k ds' rs' = u.withCur k (b.pushed ds' rs') := u.modCur_withCur k b _
  have hr : ((u.withCur k (b.pushed ds' rs')).core k).rep = false := by rw [State.core_withCur, hk]; exact hrep
  have hplain : plainUnit s k x i = goOn (u.withCur k (b.pushed ds' rs')) k (i.last + 2) := by
    unfold plainUnit
    simp only [bringCells_ready hc hl, ht]
    rw [if_neg (by decide)]
    unfold Safety.rs at hf
    rw [hf]
    simp only [hp, hr]
    rfl
  unfold issue
  rw [if_neg (by simp [hw, hrun])]
  simp only [fetchEcc_ok hx, modeOf, hrep, Bool.false_eq_true, if_false, hd, beq_self_eq_true, if_true, hb, hplain]
  refine boundary_idle ?_ ?_
  · simpa [goOn, hk, Core.setCur, Core.setBk] using hs
  · simpa [goOn, hk, Core.setCur, Core.setBk] using hm

/-- Core `k` has completed a unit of `s`: it goes on at `next` with `b` as its current bank, memory is that of `u`, and beside
the core nothing differs but what `ps` names. -/
structure Completed (s u t : State) (k : Fin 32) (next : Word) (b : Bank) (ps : List Part) : Prop where
  goesOn : goesOn t k next b.ds b.rs
  cur : (t.core k).cur = b
  mem : t.mem = u.mem
  kept : ∀ spec locals accs, Bank.Keeps spec locals accs (s.core k).cur b → coreKept spec locals accs s t k
  frame : changesOnly (fun _ _ _ => false) ps s t

/-- What a unit of core `k` leaves alone, where its end state differs from `s` in the core's program counter and in its current
bank. -/
theorem coreKept_of_bank {t : State} {next : Word} {b : Bank} {spec locals : Nat → Bool} {accs : Bool}
    (hk : t.core k = { (s.core k).setCur b with pc := next, run := .running })
    (ho : ∀ j, j ≠ k.val → (s.core j).run ≠ .inWait → t.core j = s.core j)
    (h : Bank.Keeps spec locals accs (s.core k).cur b) : coreKept spec locals accs s t k := by
  have hcur : (t.core k).cur = b := by rw [hk]; exact Core.cur_setCur _ b
  unfold coreKept
  rw [hcur, hk]
  exact ⟨rfl, rfl, rfl, rfl, rfl, rfl, rfl, rfl, rfl, rfl, rfl, h.sp, h.locals, h.accs, h.dsp, h.rsp,
    fun _ hb => Core.bk_setCur_ne _ b hb, ho⟩

/-- A command whose instruction's effect is done completes the unit. -/
theorem unit_completes {c : Instr} {b : Bank} {ds' rs' : List Word} {ps : List Part} (hc : calm s)
    (h : issues s k x op i) (he : exec c s = finish (issue s k x (· == op))) (hb : isBranch op = false)
    (hl : (needOf i).look ≤ (Safety.ds s k).length)
    (hf : effect (s.withCur k ((s.core k).cur.popped (needOf i))) k x i ((Safety.ds s k).take (needOf i).reads)
      ((Safety.rs s k).take (needOf i).rpop) = .done (u.withCur k b) ds' rs')
    (hu : u.cores = s.cores) (hd : u.epo = s.epo) (hp : Part.cores ∈ ps)
    (hk : changesOnly (fun _ _ _ => false) ps s u) :
    ∃ t, exec c s = .next t ∧ Completed s u t k (i.last + 2) (b.pushed ds' rs') ps := by
  have hcore (j : Nat) : u.core j = s.core j := congrArg (tget ({} : Core) · j) hu
  have hrep : (s.core k).rep = false := by obtain ⟨-, -, -, -, hrep, -⟩ := h; exact hrep
  rw [issue_done h hb hl hf hu] at he
  generalize hv : goOn (u.withCur k (b.pushed ds' rs')) k (i.last + 2) = v at he
  have hvk : v.core k = { (s.core k).setCur (b.pushed ds' rs') with pc := i.last + 2, run := .running } := by
    rw [← hv, ← hcore k]
    simp [goOn]
  have hvo (j : Nat) (hj : j ≠ k.val) : v.core j = s.core j := by
    rw [← hv, ← hcore j]
    exact (State.core_setCore_ne _ _ hj.symm).trans (u.core_withCur_ne k _ hj)
  have hvd : v.epo.detected = [] := by
    rw [← hv]
    exact (congrArg Epo.detected hd).trans hc
  have htk := (settle_core v k (by rw [hvk]; simp)).trans hvk
  have hcur : ((settle v).core k).cur = b.pushed ds' rs' := by rw [htk]; exact Core.cur_setCur _ _
  refine ⟨settle v, he.trans (finish_quiet v hvd), ?_, hcur, ?_, fun _ _ _ hk => coreKept_of_bank htk ?_ hk, ?_⟩
  · unfold goesOn Safety.ds Safety.rs
    rw [hcur, htk]
    exact ⟨rfl, rfl, hrep, rfl, rfl⟩
  · rw [settle_mem, ← hv]
    rfl
  · intro j hj hr
    rw [settle_core v j (by rwa [hvo j hj]), hvo j hj]
  · refine changesOnly_settle ?_ hvd
    rw [← hv]
    exact changesOnly_setCore (changesOnly_setCore hk hp) hp

end Sys2Proof.Machine
end

section
/-! SUPPORT. The signal processing instructions (R377, R387 to R396): what each answers on a state whose current bank is
known, and the arithmetic of address registers, saturation and the block exponent. -/

namespace Sys2Proof.Machine

/-! Address registers (R392, R393). -/

theorem revBits_lt (n x : Nat) : revBits n x < 2 ^ n := by
  induction n generalizing x with
  | zero => simp [revBits]
  | succ n ih =>
    have h := ih (x / 2)
    obtain e | e := Nat.mod_two_eq_zero_or_one x <;> simp only [revBits, e, Nat.pow_succ] <;> omega

theorem postMod_lt {ar : Nat} (h : ar < 65536) (ofs m : Nat) : postMod ar ofs m < 65536 := by
  unfold postMod
  split
  · exact h
  · omega
  · omega
  · have h := revBits_lt 14 ((revBits 14 (ar / 4) + revBits 14 (ofs / 4 % 2 ^ 14)) % 2 ^ 14)
    omega

theorem arOf_lt (b : Bank) (n : Nat) : arOf b n < 65536 := Nat.mod_lt _ (by decide)

theorem arOf_stepAr_same (b : Bank) (n m : Nat) :
    arOf (stepAr b n m) n = postMod (arOf b n) ((b.sp (0x14 + n)).toNat % 65536) m := by
  have h := postMod_lt (arOf_lt b n) ((b.sp (0x14 + n)).toNat % 65536) m
  unfold stepAr
  rw [arOf, Bank.sp_setSp_same, BitVec.toNat_ofNat]
  omega

theorem sp_stepAr_ne (b : Bank) {n j : Nat} (m : Nat) (h : 0x10 + n ≠ j) : (stepAr b n m).sp j = b.sp j :=
  Bank.sp_setSp_ne b _ h

theorem arOf_stepAr_ne (b : Bank) {n j : Nat} (m : Nat) (h : n ≠ j) : arOf (stepAr b n m) j = arOf b j := by
  unfold arOf
  rw [sp_stepAr_ne b m (by omega)]

theorem arOf_pushed (b : Bank) (ds rs : List Word) (n : Nat) : arOf (b.pushed ds rs) n = arOf b n := rfl

theorem arAddr_toNat (b : Bank) (n : Nat) : (arAddr b n).toNat = (if n < 2 then 0x10000 else 0x20000) + arOf b n := by
  have h := arOf_lt b n
  unfold arAddr
  rw [BitVec.toNat_ofNat]
  split <;> omega

/-- An address register names a word of the core's own memory. -/
theorem coreArea_arAddr (b : Bank) (n : Nat) : coreArea (arAddr b n).toNat = 1 := by
  have h := arOf_lt b n
  have hr : 0x10000 ≤ (arAddr b n).toNat ∧ (arAddr b n).toNat < 0x30000 := by
    rw [arAddr_toNat]
    split <;> omega
  unfold coreArea
  rw [if_pos (.inr hr)]

/-- A word read from the core's own memory, where it stands correctable (R376). -/
theorem arLoad_ready (s : State) (k : Fin 32) (b : Bank) {n : Nat} (ha : (arAddr b n).toNat % 4 = 0)
    (hb : badIn s (coreMem k (arAddr b n).toNat) 4 = false) :
    arLoad (s.withCur k b) k n .ok = { s := s.withCur k b, val := s.leAt (coreMem k (arAddr b n).toNat) 4 } := by
  simp [arLoad, coreLoad, addrTrap, ha, coreArea_arAddr, localRead, applyEcc_ok, hb]

/-! Saturation (R389, R390) and the block exponent (R396). -/

theorem satTo_eq (n : Nat) (x : Int) : satTo n x =
    (max (-(2 ^ (n - 1))) (min (2 ^ (n - 1) - 1) x), decide (x < -(2 ^ (n - 1))) || decide (2 ^ (n - 1) - 1 < x)) := by
  have h : (0 : Int) < 2 ^ (n - 1) := Int.pow_pos (by decide)
  unfold satTo
  generalize (2 : Int) ^ (n - 1) = m at h
  by_cases hlo : x < -m
  · rw [if_pos hlo, decide_eq_true hlo, Bool.true_or, Prod.mk.injEq]
    exact ⟨by omega, rfl⟩
  · rw [if_neg hlo, decide_eq_false hlo, Bool.false_or]
    by_cases hhi : m - 1 < x
    · rw [if_pos hhi, decide_eq_true hhi, Prod.mk.injEq]
      exact ⟨by omega, rfl⟩
    · rw [if_neg hhi, decide_eq_false hhi, Prod.mk.injEq]
      exact ⟨by omega, rfl⟩

theorem sp_followBexp (b : Bank) (w : Word) : ((followBexp b w).sp 0x18).toNat =
    min ((b.sp 0x18).toNat % 16) (min (headroom (fld w 0 16)) (headroom (fld w 16 16))) := by
  unfold followBexp
  rw [Bank.sp_setSp_same, BitVec.toNat_ofNat]
  exact Nat.mod_eq_of_lt (by omega)

theorem arOf_followBexp (b : Bank) (w : Word) {n : Nat} (h : n < 8) : arOf (followBexp b w) n = arOf b n := by
  unfold arOf followBexp
  rw [Bank.sp_setSp_ne b _ (by omega)]

theorem setAcc_eq (b : Bank) (n : Nat) (v : BitVec 72) :
    setAcc b n v = { b with acc0 := if n = 0 then v else b.acc0, acc1 := if n = 0 then b.acc1 else v } := by
  unfold setAcc
  split <;> rfl

theorem accOf_setAcc_same (b : Bank) (n : Nat) (v : BitVec 72) : accOf (setAcc b n v) n = v := by
  by_cases h : n = 0 <;> simp [accOf, setAcc, h]

theorem accOf_setAcc_ne (b : Bank) {n m : Nat} (v : BitVec 72) (h : ¬(n = 0 ↔ m = 0)) :
    accOf (setAcc b n v) m = accOf b m := by
  by_cases hn : n = 0 <;> simp_all [accOf, setAcc]

/-! Each instruction on a state whose current bank is `b`; `l` is the stack that it pops from. -/

theorem cell_take (l : List Word) {m n : Nat} (h : m < n) : cell (l.take n) m = cell l m := by
  simp [cell, List.getD_eq_getElem?_getD, h]

section
variable (s : State) (k : Fin 32) (x : CoreEnv) (i : Insn) (b : Bank) (d l : List Word)

theorem semDsp_acclr (h : i.op = 0x83) : semDsp (s.withCur k b) k x i d = .done (s.withCur k { b with
    acc0 := if i.arg % 2 = 1 then 0 else b.acc0, acc1 := if i.arg / 2 % 2 = 1 then 0 else b.acc1 }) [] [] := by
  simp [semDsp, h]

theorem semDsp_acrd (h : i.op = 0x84) {y : Int}
    (hy : roundShift (accOf b (i.arg % 2)).toInt (i.arg / 2 % 32) (i.arg / 64) = y) :
    semDsp (s.withCur k b) k x i d =
      .done (s.withCur k (b.raised (overflows y))) [BitVec.ofInt 32 (max (-2 ^ 31) (min (2 ^ 31 - 1) y))] [] := by
  subst hy
  simp only [semDsp, h, acrd, pushOne, State.core_withCur, Core.cur_setCur, satTo_eq, raiseV_withCur]
  rfl

theorem semDsp_acrdc (h : i.op = 0x85) {y z : Int × Bool}
    (hy : satTo 16 (roundShift b.acc0.toInt (i.arg % 32) (i.arg / 32 % 4)) = y)
    (hz : satTo 16 (roundShift b.acc1.toInt (i.arg % 32) (i.arg / 32 % 4)) = z) :
    semDsp (s.withCur k b) k x i d = .done (s.withCur k (b.raised (y.2 || z.2))) [packed y.1 z.1] [] := by
  simp [semDsp, h, acrdc, pushOne, hy, hz]

theorem semDsp_acget (h : i.op = 0x86) :
    semDsp (s.withCur k b) k x i d = .done (s.withCur k b) [accPart (accOf b (i.arg % 2)) (i.arg / 2)] [] := by
  simp [semDsp, h, pushOne]

theorem semDsp_acset (h : i.op = 0x87) : semDsp (s.withCur k b) k x i (l.take 1) =
    .done (s.withCur k (setAcc b (i.arg % 2) (setPart (accOf b (i.arg % 2)) (i.arg / 2) (cell l 0)))) [] [] := by
  simp [semDsp, h, cell_take]

theorem semDsp_bexp (h : i.op = 0x88) :
    semDsp (s.withCur k b) k x i (l.take 1) = .done (s.withCur k (followBexp b (cell l 0))) [cell l 0] [] := by
  simp [semDsp, h, pushOne, cell_take]

theorem semDsp_bexclr (h : i.op = 0x89) :
    semDsp (s.withCur k b) k x i d = .done (s.withCur k (b.setSp 0x18 15)) [] [] := by
  simp [semDsp, h]

theorem semDsp_ldxy (h : i.op = 0x8A) (hx : x.data = .ok) (ha : (arAddr b (i.arg % 4)).toNat % 4 = 0)
    (hb : badIn s (coreMem k (arAddr b (i.arg % 4)).toNat) 4 = false) :
    semDsp (s.withCur k b) k x i d = .done (s.withCur k (stepAr b (i.arg % 4) (i.arg / 4)))
      [BitVec.ofNat 32 (s.leAt (coreMem k (arAddr b (i.arg % 4)).toNat) 4)] [] := by
  simp [semDsp, h, ldxy, hx, arLoad_ready s k b ha hb, Got.then, pushOne]

theorem semDsp_stxy (h : i.op = 0x8B) (ha : (arAddr b (i.arg % 4)).toNat % 4 = 0) :
    semDsp (s.withCur k b) k x i (l.take 1) =
      .done ((localWrite s k (arAddr b (i.arg % 4)).toNat 4 (cell l 0).toNat).withCur k
        (followBexp (stepAr b (i.arg % 4) (i.arg / 4)) (cell l 0))) [] [] := by
  simp [semDsp, h, stxy, ha, localWrite_withCur, cell_take]

theorem halves_withCur (r m : Int) : halves (s.withCur k b) k r m =
    .done (s.withCur k (b.raised (decide (r < -32768 ∨ 32767 < r ∨ m < -32768 ∨ 32767 < m))))
      [packed (max (-32768) (min 32767 r)) (max (-32768) (min 32767 m))] [] := by
  simp [halves, pushOne, satTo_eq, Bool.or_assoc]

theorem semDsp_cadd (h : i.op = 0x8C) : semDsp s k x i (l.take 2) =
    halves s k (re (cell l 1) + re (cell l 0)) (im (cell l 1) + im (cell l 0)) := by simp [semDsp, h, cell_take]

theorem semDsp_csub (h : i.op = 0x8D) : semDsp s k x i (l.take 2) =
    halves s k (re (cell l 1) - re (cell l 0)) (im (cell l 1) - im (cell l 0)) := by simp [semDsp, h, cell_take]

theorem semDsp_cshr (h : i.op = 0x8E) : semDsp (s.withCur k b) k x i (l.take 1) = .done (s.withCur k b)
    [packed (roundShift (re (cell l 0)) (i.arg % 16) 1) (roundShift (im (cell l 0)) (i.arg % 16) 1)] [] := by
  simp [semDsp, h, pushOne, cell_take]

theorem semDsp_cmac (h : i.op = 0x80) : semDsp s k x i d = mac s k x i.arg (cprod i.arg) addAcc := by simp [semDsp, h]

theorem semDsp_cmul (h : i.op = 0x81) : semDsp s k x i d = mac s k x i.arg (cprod i.arg) putAcc := by simp [semDsp, h]

theorem semDsp_rmac (h : i.op = 0x82) :
    semDsp s k x i d = mac s k x i.arg (fun v w => (re v * re w, im v * im w)) addAcc := by simp [semDsp, h]

/-- A product instruction reads its two words from memory, hands their products, negated where operand bit 7 asks, to `upd`,
and steps both address registers (R387, R388, R393). -/
theorem mac_ready {g : Nat} {f : Word → Word → Int × Int} {upd : Bank → Int × Int → Bank} (h1 : x.data = .ok)
    (h2 : x.data2 = .ok) (hax : (arAddr b (g % 2)).toNat % 4 = 0) (hay : (arAddr b (2 + g / 2 % 2)).toNat % 4 = 0)
    (hbx : badIn s (coreMem k (arAddr b (g % 2)).toNat) 4 = false)
    (hby : badIn s (coreMem k (arAddr b (2 + g / 2 % 2)).toNat) 4 = false) {p : Int × Int}
    (hp : f (BitVec.ofNat 32 (s.leAt (coreMem k (arAddr b (g % 2)).toNat) 4))
      (BitVec.ofNat 32 (s.leAt (coreMem k (arAddr b (2 + g / 2 % 2)).toNat) 4)) = p) :
    mac (s.withCur k b) k x g f upd = .done (s.withCur k (stepAr (stepAr
      (upd b ((if g / 128 % 2 = 1 then -1 else 1) * p.1, (if g / 128 % 2 = 1 then -1 else 1) * p.2))
        (g % 2) (g / 4 % 4)) (2 + g / 2 % 2) (g / 16 % 4))) [] [] := by
  have hs : (if g / 128 % 2 = 1 then (-p.1, -p.2) else p) =
      ((if g / 128 % 2 = 1 then -1 else 1) * p.1, (if g / 128 % 2 = 1 then -1 else 1) * p.2) := by
    split <;> simp
  simp [mac, h1, h2, hax, hay, arLoad_ready s k b hax hbx, arLoad_ready s k b hay hby, Got.then, hp, hs]

end

end Sys2Proof.Machine
end

section
/-! Signal processing (R377, R387 to R396): every instruction of row 0x8 completes its unit as its effect says. -/

namespace Sys2Proof.Machine

open Safety

theorem cell_cons_drop {l : List Word} (h : 1 ≤ l.length) : cell l 0 :: l.drop 1 = l := by
  cases l with
  | nil => cases h
  | cons a l => rfl

/-- No signal processing instruction looks below what it pops, or touches the return stack. -/
theorem needDsp_plain (n : Nat) : (needDsp n).look = 0 ∧ (needDsp n).rpop = 0 ∧ (needDsp n).reads = (needDsp n).pop := by
  unfold needDsp
  split <;> exact ⟨rfl, rfl, rfl⟩

theorem issues_op {s : State} {k : Fin 32} {x : CoreEnv} {op : Nat} {i : Insn} (h : issues s k x op i) : i.op = op := by
  obtain ⟨-, -, -, -, -, -, -, e, -⟩ := h
  exact e

variable {s u : State} {k : Fin 32} {x : CoreEnv} {op : Nat} {i : Insn} {c : Instr} {b : Bank}

theorem dsp_completes {w : List Word} {ps : List Part} (hc : calm s) (h : issues s k x op i) (h8 : op / 16 = 8)
    (he : exec c s = finish (issue s k x (· == op)))
    (hf : semDsp (s.withCur k ((s.core k).cur.popped (needDsp (op % 16)))) k x i
      ((Safety.ds s k).take (needDsp (op % 16)).pop) = .done (u.withCur k b) w [])
    (hu : u.cores = s.cores) (hd : u.epo = s.epo) (hp : Part.cores ∈ ps)
    (hk : changesOnly (fun _ _ _ => false) ps s u) :
    ∃ t, exec c s = .next t ∧ Completed s u t k (i.last + 2) (b.pushed w []) ps := by
  have hop := issues_op h
  have hn : needOf i = needDsp (op % 16) := by simp [needOf, hop, h8]
  obtain ⟨hl, hr, hs⟩ := needDsp_plain (op % 16)
  refine unit_completes hc h he ?_ (by rw [hn, hl]; exact Nat.zero_le _) ?_ hu hd hp hk
  · simp only [isBranch, Bool.or_eq_false_iff, Bool.and_eq_false_iff, decide_eq_false_iff_not, beq_eq_false_iff_ne]
    omega
  · rw [hn, hs]
    simp only [effect, hop, h8]
    exact hf

/-- The same for an instruction that changes nothing beside its core. -/
theorem dsp_completes_quietly {w : List Word} (hc : calm s) (h : issues s k x op i) (h8 : op / 16 = 8)
    (he : exec c s = finish (issue s k x (· == op)))
    (hf : semDsp (s.withCur k ((s.core k).cur.popped (needDsp (op % 16)))) k x i
      ((Safety.ds s k).take (needDsp (op % 16)).pop) = .done (s.withCur k b) w []) :
    ∃ t, exec c s = .next t ∧ Completed s s t k (i.last + 2) (b.pushed w []) [.cores] :=
  dsp_completes hc h h8 he hf rfl rfl (by simp) changesOnly_refl

/-- An instruction that pushes one cell and may raise V. -/
theorem dsp_computes {w : Word} {v : Bool} (hc : calm s) (h : issues s k x op i) (h8 : op / 16 = 8)
    (he : exec c s = finish (issue s k x (· == op)))
    (hf : semDsp (s.withCur k ((s.core k).cur.popped (needDsp (op % 16)))) k x i
      ((Safety.ds s k).take (needDsp (op % 16)).pop) =
        .done (s.withCur k (((s.core k).cur.popped (needDsp (op % 16))).raised v)) [w] []) :
    computes s k c (i.last + 2) (w :: (Safety.ds s k).drop (needDsp (op % 16)).pop) (Safety.rs s k)
      (flagged (status s k) v) := by
  obtain ⟨t, ht, hg⟩ := dsp_completes_quietly hc h h8 he hf
  obtain ⟨-, hr, -⟩ := needDsp_plain (op % 16)
  refine ⟨t, ht, ?_, ?_, hg.kept _ _ _ (((Bank.Keeps.popped _).raised rfl v).pushed _ _), hg.frame⟩
  · have hgo := hg.goesOn
    cases v <;> simpa [Bank.pushed, Bank.raised, Bank.popped, Bank.setSp, hr, Safety.ds, Safety.rs] using hgo
  · unfold status
    rw [hg.cur, Bank.sp_pushed]
    exact Bank.sp_raised _ v

/-- A product instruction (R387, R388, R392 to R394): its accumulators and both address registers. -/
theorem products_complete {n0 n1 : BitVec 72} {nx ny mx my : Nat} (hc : calm s) (h : issues s k x op i)
    (h8 : op / 16 = 8) (hn : needDsp (op % 16) = {}) (he : exec c s = finish (issue s k x (· == op))) (hx : nx < 2)
    (hy : 2 ≤ ny ∧ ny < 4)
    (hf : semDsp (s.withCur k (s.core k).cur) k x i [] = .done (s.withCur k (stepAr (stepAr
      { (s.core k).cur with acc0 := n0, acc1 := n1 } nx mx) ny my)) [] []) :
    ∃ t, exec c s = .next t ∧ goesOn t k (i.last + 2) (Safety.ds s k) (Safety.rs s k) ∧
      (t.core k).cur.acc0 = n0 ∧ (t.core k).cur.acc1 = n1 ∧
      arOf (t.core k).cur nx = postMod (arOf (s.core k).cur nx) (((s.core k).cur.sp (0x14 + nx)).toNat % 65536) mx ∧
      arOf (t.core k).cur ny = postMod (arOf (s.core k).cur ny) (((s.core k).cur.sp (0x14 + ny)).toNat % 65536) my ∧
      coreKept (fun n => n == 0x10 + nx || n == 0x10 + ny) nothing true s t k ∧
      changesOnly (fun _ _ _ => false) [.cores] s t := by
  obtain ⟨t, ht, hg⟩ := dsp_completes_quietly hc h h8 he (by rw [hn]; exact hf)
  have hk : Bank.Keeps (fun n => n == 0x10 + nx || n == 0x10 + ny) nothing true (s.core k).cur (s.core k).cur :=
    Bank.Keeps.popped {}
  refine ⟨t, ht, hg.goesOn, by rw [hg.cur]; rfl, by rw [hg.cur]; rfl, ?_, ?_,
    hg.kept _ _ _ ((((hk.withAccs n0 n1).setSp (by simp) _).setSp (by simp) _).pushed _ _), hg.frame⟩
  · rw [hg.cur, arOf_pushed, arOf_stepAr_ne _ my (by omega), arOf_stepAr_same]
    rfl
  · rw [hg.cur, arOf_pushed, arOf_stepAr_same, arOf_stepAr_ne _ mx (by omega), sp_stepAr_ne _ mx (by omega)]
    rfl

/-- ACSET (R390) writes a part of one accumulator. -/
theorem acset_completes (hc : calm s) (h : issues s k x 0x87 i) :
    ∃ t, exec (.acset k x) s = .next t ∧ goesOn t k (i.last + 2) ((Safety.ds s k).drop 1) (Safety.rs s k) ∧
      accOf (t.core k).cur (i.arg % 2) =
        setPart (accOf (s.core k).cur (i.arg % 2)) (i.arg / 2) (cell (Safety.ds s k) 0) ∧
      accOf (t.core k).cur (1 - i.arg % 2) = accOf (s.core k).cur (1 - i.arg % 2) ∧
      coreKept nothing nothing true s t k ∧ changesOnly (fun _ _ _ => false) [.cores] s t := by
  obtain ⟨t, ht, hg⟩ := dsp_completes_quietly hc h rfl (exec_acset k x s) (semDsp_acset s k x i _ _ (issues_op h))
  refine ⟨t, ht, ?_, ?_, ?_, hg.kept _ _ _ ?_, hg.frame⟩
  · have hgo := hg.goesOn
    rw [setAcc_eq] at hgo
    exact hgo
  · rw [hg.cur]
    exact accOf_setAcc_same _ _ _
  · rw [hg.cur]
    exact accOf_setAcc_ne _ _ (by omega)
  · rw [setAcc_eq]
    exact ((Bank.Keeps.popped _).withAccs _ _).pushed _ _

/-- BEXP (R396) leaves the stack as it was and lets `SC_BEXP` follow its top. -/
theorem bexp_completes (hc : calm s) (h : issues s k x 0x88 i) :
    ∃ t, exec (.bexp k x) s = .next t ∧ goesOn t k (i.last + 2) (Safety.ds s k) (Safety.rs s k) ∧
      ((t.core k).cur.sp 0x18).toNat = min (((s.core k).cur.sp 0x18).toNat % 16)
        (min (headroom (fld (cell (Safety.ds s k) 0) 0 16)) (headroom (fld (cell (Safety.ds s k) 0) 16 16))) ∧
      coreKept (· == 0x18) nothing false s t k ∧ changesOnly (fun _ _ _ => false) [.cores] s t := by
  obtain ⟨t, ht, hg⟩ := dsp_completes_quietly hc h rfl (exec_bexp k x s) (semDsp_bexp s k x i _ _ (issues_op h))
  have hds : cell (Safety.ds s k) 0 :: (Safety.ds s k).drop 1 = Safety.ds s k := by
    obtain ⟨-, -, -, -, -, -, -, e, hpop, -⟩ := h
    exact cell_cons_drop (by simpa [needOf, e, needDsp, Safety.ds] using hpop)
  have hgo := hg.goesOn
  refine ⟨t, ht, by rwa [← hds], ?_, hg.kept _ _ _ (((Bank.Keeps.popped _).setSp rfl _).pushed _ _), hg.frame⟩
  rw [hg.cur, Bank.sp_pushed]
  exact sp_followBexp _ _

/-- STXY (R377, R392, R393, R396) stores a word where its address register points. -/
theorem stxy_completes (hc : calm s) (h : issues s k x 0x8B i)
    (ha : (arAddr (s.core k).cur (i.arg % 4)).toNat % 4 = 0) {a : Nat}
    (hplace : coreMem k (arAddr (s.core k).cur (i.arg % 4)).toNat = a) :
    ∃ t, exec (.stxy k x) s = .next t ∧ goesOn t k (i.last + 2) ((Safety.ds s k).drop 1) (Safety.rs s k) ∧
      t.leAt a 4 = (cell (Safety.ds s k) 0).toNat ∧ (∀ z, (z < a ∨ a + 4 ≤ z) → t.byte z = s.byte z) ∧
      arOf (t.core k).cur (i.arg % 4) = postMod (arOf (s.core k).cur (i.arg % 4))
        (((s.core k).cur.sp (0x14 + i.arg % 4)).toNat % 65536) (i.arg / 4) ∧
      ((t.core k).cur.sp 0x18).toNat = min (((s.core k).cur.sp 0x18).toNat % 16)
        (min (headroom (fld (cell (Safety.ds s k) 0) 0 16)) (headroom (fld (cell (Safety.ds s k) 0) 16 16))) ∧
      coreKept (fun n => n == 0x18 || n == 0x10 + i.arg % 4) nothing false s t k ∧
      changesOnly (fun _ _ _ => false) [.cores, .mem, .bad] s t := by
  subst hplace
  obtain ⟨t, ht, hg⟩ := dsp_completes hc h rfl (exec_stxy k x s) (semDsp_stxy s k x i _ _ (issues_op h) ha)
    (localWrite_cores s k _ _ _) (localWrite_epo s k _ _ _) (ps := [.cores, .mem, .bad]) (by simp)
    (changesOnly_localWrite s k (by simp) (by simp) _ _ _)
  refine ⟨t, ht, hg.goesOn, ?_, fun z hz => ?_, ?_, ?_,
    hg.kept _ _ _ ((((Bank.Keeps.popped _).setSp (by simp) _).setSp rfl _).pushed _ _), hg.frame⟩
  · rw [State.leAt_congr hg.mem]
    exact (localWrite_leAt s k _ _ 4).trans (Nat.mod_eq_of_lt (BitVec.isLt _))
  · exact (congrArg (tget 0 · z) hg.mem).trans (localWrite_byte_out s k _ 4 _ z hz)
  · rw [hg.cur, arOf_pushed, arOf_followBexp _ _ (by omega)]
    exact arOf_stepAr_same _ _ _
  · rw [hg.cur, Bank.sp_pushed, sp_followBexp, sp_stepAr_ne _ _ (by omega)]
    rfl

end Sys2Proof.Machine
end

section
/-! Signal processing: the statement of chapter 13, clause by clause. -/

namespace Sys2Proof.Machine

open Safety

/-- Settles O38: what each instruction does to the current bank, by its equation for `semDsp`, is what its command completes. -/
theorem signalProcessingComputes : Obligations.SignalProcessingComputes := by
  unfold Obligations.SignalProcessingComputes
  intro k x i s hc hx hx2 ds rs st next g c b a quiet nx ny px py yi sign zr zi
  refine ⟨?products, fun h => ?acclr, fun h => ?acrd, fun h => ?acrdc, fun h => ?acget, fun h => acset_completes hc h,
    fun h => bexp_completes hc h, fun h => ?bexclr, fun h ha hb => ?ldxy, fun h ha => stxy_completes hc h ha rfl, ?halves,
    fun h => ?cshr⟩
  case products =>
    intro op e n0 n1 hm h hax hay hbx hby
    have hmac {f : Word → Word → Int × Int} {upd : Bank → Int × Int → Bank} :=
      mac_ready s k x c (f := f) (upd := upd) hx hx2 hax hay hbx hby rfl
    have hy : 2 ≤ ny ∧ ny < 4 := by omega
    simp only [List.mem_cons, Prod.mk.injEq, List.not_mem_nil, or_false] at hm
    obtain ⟨rfl, rfl, rfl, rfl⟩ | ⟨rfl, rfl, rfl, rfl⟩ | ⟨rfl, rfl, rfl, rfl⟩ := hm
    · exact products_complete hc h rfl rfl rfl (Nat.mod_lt _ (by decide)) hy ((semDsp_cmac _ k x i _ (issues_op h)).trans hmac)
    · exact products_complete hc h rfl rfl rfl (Nat.mod_lt _ (by decide)) hy ((semDsp_cmul _ k x i _ (issues_op h)).trans hmac)
    · exact products_complete hc h rfl rfl rfl (Nat.mod_lt _ (by decide)) hy ((semDsp_rmac _ k x i _ (issues_op h)).trans hmac)
  case acclr =>
    obtain ⟨t, ht, hg⟩ := dsp_completes_quietly hc h rfl (exec_acclr k x s) (semDsp_acclr s k x i _ _ (issues_op h))
    exact ⟨t, ht, hg.goesOn, congrArg Bank.acc0 hg.cur, congrArg Bank.acc1 hg.cur,
      hg.kept _ _ _ (((Bank.Keeps.popped _).withAccs _ _).pushed _ _), hg.frame⟩
  case acrd => exact dsp_computes hc h rfl rfl (semDsp_acrd s k x i _ _ (issues_op h) rfl)
  case acrdc => exact dsp_computes hc h rfl rfl (semDsp_acrdc s k x i _ _ (issues_op h) rfl rfl)
  case acget => exact dsp_computes (v := false) hc h rfl rfl (semDsp_acget s k x i _ _ (issues_op h))
  case bexclr =>
    obtain ⟨t, ht, hg⟩ := dsp_completes_quietly hc h rfl (exec_bexclr k x s) (semDsp_bexclr s k x i _ _ (issues_op h))
    refine ⟨t, ht, hg.goesOn, ?_, hg.kept _ _ _ (((Bank.Keeps.popped _).setSp rfl _).pushed _ _), hg.frame⟩
    rw [hg.cur, Bank.sp_pushed]
    exact Bank.sp_setSp_same _ _ _
  case ldxy =>
    obtain ⟨t, ht, hg⟩ := dsp_completes_quietly hc h rfl (exec_ldxy k x s) (semDsp_ldxy s k x i _ _ (issues_op h) hx ha hb)
    refine ⟨t, ht, hg.goesOn, ?_, hg.kept _ _ _ (((Bank.Keeps.popped _).setSp (by simp [g]) _).pushed _ _), hg.frame⟩
    rw [hg.cur, arOf_pushed]
    exact arOf_stepAr_same _ _ _
  case halves =>
    intro op e r m hm h
    simp only [List.mem_cons, Prod.mk.injEq, List.not_mem_nil, or_false] at hm
    obtain ⟨rfl, rfl, rfl, rfl⟩ | ⟨rfl, rfl, rfl, rfl⟩ := hm
    · exact dsp_computes hc h rfl rfl ((semDsp_cadd _ k x i _ (issues_op h)).trans (halves_withCur s k _ _ _))
    · exact dsp_computes hc h rfl rfl ((semDsp_csub _ k x i _ (issues_op h)).trans (halves_withCur s k _ _ _))
  case cshr => exact dsp_computes (v := false) hc h rfl rfl (semDsp_cshr s k x i _ _ (issues_op h))

end Sys2Proof.Machine
end
